-- ==== Sys2Proof/Word.lean ====
section
/-! DEFINITION. The word types of the model: a byte, and the 32-bit word in which every register page is read and
written (R11). -/

namespace Sys2Proof

/-- One byte. -/
abbrev Byte := BitVec 8

/-- One register word (R11). -/
abbrev Word := BitVec 32

end Sys2Proof
end

