-- ==== Sys2Proof/Syntax.lean ====
section
/-! DEFINITION. The commands of the block and the values they carry. -/

namespace Sys2Proof

/-- The kinds of register page (Tables 19-1 to 19-3). -/
inductive PageKind where
  | BNK | TNK | GSW | ARB | MOD | HC | ENG | ERP | FMN | MIX | CRY
  | STW | CTX | DBG | TBS | MMAP | VTC | THL | EVM | TWN | PRS | BOOT
  | TDB | TFQ | TTV | TQC | TCT | TMK | TEV
  deriving DecidableEq, Repr

/-- A register page: its kind and its instance (gallery, module, engine or context; 0 on central pages). -/
structure Page where
  kind : PageKind
  inst : Nat
  deriving DecidableEq, Repr

/-- A port of arrival (R115, R638): the steward port, the TAP, or a fabric module. -/
inductive Port where
  | steward
  | tap
  | module (m : Fin 16)
  deriving DecidableEq, Repr

/-- What the AVSBus brought in an interval: nothing was sent, a voltage in mV, a current in 10 mA, a status, or a
transaction that failed its three repeats. -/
inductive AvsRead where
  | none | failed
  | volt (mv : BitVec 10)
  | cur (i : BitVec 16)
  | status (bad : Bool)
  deriving DecidableEq, Repr

/-- Where a parity or storage error arises of itself (R81, R126, R127, R172, R402, R403, R444, R445, R494 to R496, R529, R579,
R622, R660, R695, R748). -/
inductive ParityAt where
  /-- A writable field of the register at a DPA, live or shadow. -/
  | field (dpa : BitVec 48)
  /-- A counter at a DPA. -/
  | counter (dpa : BitVec 48)
  | timeCounter
  /-- An entry of a translation cache: gallery, set, way. -/
  | xltCache (g : Fin 8) (set : Fin 256) (way : Fin 4)
  | spareMap (g : Fin 8)
  /-- Control state of an errand or combiner entry of a gallery. -/
  | errandState (g : Fin 8)
  /-- Held data of a combiner entry: gallery, entry, granule. -/
  | combinerData (g : Fin 8) (i : Fin 16) (granule : Fin 8)
  | resumeRecord (q : Fin 128)
  /-- A prefetched command of a ring. -/
  | prefetched (r : Fin 64)
  | scoreboard (g : Fin 8)
  /-- A tally record, corrected or not. -/
  | tally (p : Fin 8192) (corrected : Bool)
  /-- An uncorrectable holder record, by its place in the list. -/
  | holder (i : Fin 256)
  /-- An uncorrectable waiter record, or the hall's admission or release logic. -/
  | hall
  | checkUnit (g : Fin 8)
  /-- A live table entry of a crier: table, index. -/
  | table (g : Fin 8) (t : Fin 4) (i : Fin 2048)
  /-- A landing chunk pointer, or the step engine's state. -/
  | stepEngine (g : Fin 8)
  | twin
  | contextTable
  | portQueue
  | traceControl
  | purser
  /-- An entry of a context's fault buffer. -/
  | faultBuffer (c : Fin 16) (i : Fin 8)
  deriving DecidableEq, Repr

/-- A unit whose fault is fatal to the whole device (R40, R219). -/
inductive UnitAt where
  | switch (g : Fin 8)
  | arbiter (g : Fin 8)
  | stairNode (g : Fin 8)
  /-- The central block with a central page. -/
  | central (p : Fin 11)
  deriving DecidableEq, Repr

/-- The straps as the integrator ties them (R701). -/
structure Straps where
  twinEn : Bool := false
  twinRole : Bool := false
  refPri : Bool := false
  testMode : Bool := false
  deriving DecidableEq, Repr

/-- What the test of one line found: whether MARCH failed, whether RETEST failed, and granules of the saved copy that
fail their check on restore (R171). -/
structure LineTest where
  line : Nat
  march : Bool
  retest : Bool
  saveBad : Nat
  deriving DecidableEq, Repr

/-- A requester of a draw: its index (R793), its class and its urgency stamp. -/
structure Req where
  index : Nat
  cls : Nat
  urg : Nat
  deriving DecidableEq, Repr

/-- The commands of the block, one constructor for each row of the opcode table, in the table's order. -/
inductive Instr where
  /-- PWR_OK_FALL (R718): PWR_OK falling starts a cold reset at once, with no drain, whatever reset or phase is in progress. -/
  | pwrOkFall
  /-- RESET_RELEASE (R703): The later of PWR_OK and RST_N rising begins phase P0 of a cold reset and samples the straps. -/
  | resetRelease (x : Straps)
  /-- WARM_RESET (R704): RST_N held low for the 600 ns filter starts a warm reset, which begins with a drain. -/
  | warmReset
  /-- WARM_DRAIN_DONE (R704): The warm drain completes, or passes 100 µs, and phase P0 of the warm reset begins once RST_N is high. -/
  | warmDrainDone (late : Bool)
  /-- FATAL_WARM_TIMER (R706): 1 ms after FATAL_N is asserted with FATAL_WARM set, a warm reset drain begins. -/
  | fatalWarmTimer
  /-- P0_END (R707): Phase P0 completes: fuses loaded on a cold reset, mixers compared, arbiters seeded; P1 begins. -/
  | p0End (us : Nat) (fails : BitVec 64) (fuseErr : Bool)
  /-- P1_END (R82): Reference selection and oscillator calibration complete, the steward port and time counter start, and P2 begins. -/
  | p1End (us : Nat) (a b agree : Bool) (v cur : AvsRead)
  /-- P2_END (R709): The march of every line and the stair and spoke checks complete; P3 begins, or the die stops in P2. -/
  | p2End (fails : List (Nat × Nat)) (stair : BitVec 32)
  /-- P3_END (R277): Every enabled module is UP, or 5 ms have passed since P3 began; P4 begins. -/
  | p3End
  /-- P4_END (R314): Every stack is UP or FAILED; HBM_ALIAS_SIZE is formed and P5 begins. -/
  | p4End
  /-- READY (R714): A write of BOOT_CMD.READY in P5 moves the device to READY and starts the tinker sweep. -/
  | bootReady
  /-- TICK (R52): Every 1,000 time-base clock periods a tick is counted and delivered to all galleries. -/
  | tick
  /-- TURN_PERIOD_UPDATE (R49): At the end of each 1 µs window every gallery's turn period is published. -/
  | turnPeriodUpdate (periods : BitVec 128) (fails : BitVec 8)
  /-- REF_WINDOW_END (R58): At the end of each 10 ms measurement window both references are graded from their deviations. -/
  | refWindowEnd (dAB dAO dBO : BitVec 16) (lostA lostB : Bool)
  /-- REF_LOST (R60): A reference with no edge for 100 ns is graded LOST at once and replaced within 200 ns if selected. -/
  | refLost (b : Bool)
  /-- OSC_FAULT (R79): The oscillator stops or leaves ±3 %, so grading uses REFA against REFB only. -/
  | oscFault
  /-- TIME_ROLLOVER (R66): TIME_NS reaching 1,000,000,000 becomes 0 and TIME_SEC increments, or a pending AT_NEXT_SECOND apply replaces it. -/
  | timeRollover
  /-- NOW (R69): TIME_APPLY.MODE NOW loads the TIME_SET values into the time counter at once. -/
  | timeNow
  /-- AT_NEXT_SECOND (R70): TIME_APPLY.MODE AT_NEXT_SECOND sets PENDING so the TIME_SET values load at the next roll-over. -/
  | atNextSecond
  /-- TIME_APPLY_CANCEL (R70): TIME_APPLY.MODE CANCEL clears PENDING without applying. -/
  | timeApplyCancel
  /-- TIME_NS_READ (R68): A read of TIME_NS returns the nanoseconds and captures TIME_SEC into the port's snapshot. -/
  | timeNsRead (port : Port)
  /-- CNT_SNAPSHOT_READ (R44): A read of the _LO half of a 64-bit counter captures both halves into the port's snapshot. -/
  | cntSnapshotRead (port : Port) (dpa : BitVec 48)
  /-- TRC_DATA_READ (R649): A read of TRC_DATA_3 returns the selected trace entry word and increments the port's TRC_IDX. -/
  | trcDataRead (port : Port)
  /-- FORCE (R78): A write of REF_CTRL.FORCE selects one reference regardless of grade, or is ignored for an OUT or LOST reference. -/
  | refForce (v : BitVec 2)
  /-- CLEAR_MAX (R49): A write of TURN_CTRL.CLEAR_MAX clears every TURN_MAX_g. -/
  | clearMax
  /-- REGISTER_WRITE (R111): A write to a register with no row of its own acts on each field by its attribute class. -/
  | registerWrite (port : Port) (dpa : BitVec 48) (w : Word)
  /-- COMMIT (R112): PAGE_COMMIT.COMMIT checks the page's shadow values and sets PENDING or rejects the commit. -/
  | pageCommit (port : Port) (p : Page)
  /-- COMMIT_TAKES_EFFECT (R112): At the block's next decision boundary all shadow values of a pending commit become live together. -/
  | commitTakesEffect (p : Page)
  /-- DISCARD (R113): PAGE_COMMIT.DISCARD copies live values back into the shadows and cancels any pending commit. -/
  | pageDiscard (port : Port) (p : Page)
  /-- HALT (R114): PAGE_CTRL.HALT = 1 sets RUN to HALTING and the block stops taking new work at its halt point. -/
  | pageHalt (p : Page)
  /-- HALT_COMPLETE (R114): Once the block has dealt with its work in flight, RUN becomes HALTED. -/
  | haltComplete (p : Page)
  /-- HALT_RELEASE (R114): PAGE_CTRL.HALT = 0 returns the block to RUNNING from HALTED or HALTING. -/
  | haltRelease (p : Page)
  /-- SOFT_RESET (R715): PAGE_CTRL.SOFT_RESET = 1 on an ENG, FMN, HC or MIX page starts a block soft reset. -/
  | softReset (p : Page)
  /-- SOFT_RESET_DONE (R715): A block soft reset ends, leaving RUN as RUNNING or HALTED. -/
  | softResetDone (p : Page) (pass : BitVec 8)
  /-- ERR_INJECT (R738): A write of ERR_INJECT makes the block act once through the report path of the event named. -/
  | errInject (p : Page) (w : Word)
  /-- STAIR_MESSAGE_FORWARD (R24): A stair message moves into the buffer ahead when space frees, and is delivered or forwarded. -/
  | stairMessageForward (g : Fin 8) (k : Fin 3) (lane : Fin 2) (rsp : Bool) (cls : Fin 8) (bad : Bool)
  /-- ARBITER_DRAW (R182): An arbiter draws by lottery among its waiting requesters and grants the winner in the next turn. -/
  | arbiterDraw (id : BitVec 16) (reqs : List Req)
  /-- WITHDRAWAL (R187): A drawn requester cancelled before its grant leaves a dead turn in which the arbiter draws again. -/
  | arbWithdrawal (id : BitVec 16) (reqs : List Req)
  /-- EMERGENCY_BEAT (R188): An emergency requester is granted at the next beat boundary and cuts the transfer in progress. -/
  | emergencyBeat (id : BitVec 16) (cut : Bool)
  /-- RESEED (R217): ARB_CTRL.RESEED reseeds each arbiter of the gallery at its next draw. -/
  | arbReseed (g : Fin 8)
  /-- URG_CHANGE (R191): A change on the URG_m inputs is synchronised into module m's domain. -/
  | urgChange (m : Fin 16) (v : Fin 4)
  /-- URG_ADOPT (R191): A URG level stable for 4 logic-clock periods is adopted for new requests. -/
  | urgAdopt (m : Fin 16)
  /-- URG_CRIT (R220): URG_m at level 3 for CRIT_WARN ticks sets URG_CRIT. -/
  | urgCrit (m : Fin 16)
  /-- REG_WINDOW_END (R198): At the end of each regulation window the line counts are copied and WIN_SEQ increments. -/
  | regWindowEnd (g : Fin 8)
  /-- SATURATED (R209): A class held for SAT_AFTER consecutive ticks is marked SATURATED. -/
  | classSaturated (g k : Fin 8)
  /-- SATURATED_CLEAR (R209): A SATURATED mark clears after SAT_CLEAR ticks in which the class was not held. -/
  | saturatedClear (g k : Fin 8)
  /-- PURSER_COMPUTATION (R664): At tick 4n + 2 the purser divides the budget, sets line rates and allowances, forms PACE values and the next VCORE request. -/
  | purserComputation (a : AvsRead)
  /-- PACE_INTERVAL_START (R204): At tick 4n + 4 new PACE values and allowances take effect and the previous interval is judged for shortfall. -/
  | paceIntervalStart
  /-- CAL_UPDATE (R666): Every 100 µs CAL moves one unit towards the ratio of measured to estimated VCORE power. -/
  | calUpdate (est : Nat)
  /-- SENSOR_SAMPLE (R677): Every 10 ticks each of the 17 sensors is sampled and its thermal state rules applied. -/
  | sensorSample (temps : BitVec 204) (fails : BitVec 17)
  /-- LEND_START (R482): An engine whose active descriptors have all waited LEND_AFTER ticks lends its budget share. -/
  | lendStart (e : Fin 16)
  /-- FLIT_RECEIVE (R234): A received flit is checked by CRC and SEQ, its ACK, NAK and credit returns applied, and a PAYLOAD flit accepted. -/
  | flitReceive (m : Fin 16) (raw : BitVec 2048)
  /-- NAK_RESEND (R234): When the expected SEQ has not arrived after REPLAY_TIMER the receiver sends the NAK again. -/
  | nakResend (m : Fin 16)
  /-- REPLAY_TIMER (R237): An unacknowledged flit with no ACK progress for REPLAY_TIMER is replayed; four such replays ask for a retrain. -/
  | replayTimer (m : Fin 16)
  /-- LINK_DOWN (R276): A link that goes down sets LINK_DOWN and starts a module reset. -/
  | linkDown (m : Fin 16)
  /-- LINK_UP (R277): A module finishes training and exchanges CRED_INIT, reaching UP. -/
  | linkUp (m : Fin 16) (rate : Fin 3) (lanes : BitVec 8) (formed : Bool)
  /-- CRED_INIT (R242): A received CRED_INIT sets the credits a side may use on one VC. -/
  | credInit (m : Fin 16) (h : BitVec 128)
  /-- NOP (R230): A NOP header fills an unused slot and is ignored. -/
  | nopMsg (m : Fin 16) (h : BitVec 128)
  /-- RD (R250): A fabric RD is checked, translated and served from one or two lines, answered by RD_RSP. -/
  | vtlRd (m : Fin 16) (h : BitVec 128) (data : List Byte)
  /-- WR (R251): A fabric WR is checked, translated, possibly merged by the combiner, written and answered by WR_RSP. -/
  | vtlWr (m : Fin 16) (h : BitVec 128) (data : List Byte)
  /-- REG_RD (R118): A fabric REG_RD reads a tenant page of an authorised context, answered by REG_RSP. -/
  | vtlRegRd (m : Fin 16) (h : BitVec 128) (data : List Byte)
  /-- REG_WR (R118): A fabric REG_WR writes a tenant page of an authorised context, answered by REG_RSP. -/
  | vtlRegWr (m : Fin 16) (h : BitVec 128) (data : List Byte)
  /-- SRD_RSP (R254): A fabric SRD_RSP delivers the bytes of an outstanding SRD, or is discarded for a quarantined tag. -/
  | srdRsp (m : Fin 16) (h : BitVec 128) (data : List Byte)
  /-- EVT (R556): An incoming EVT for the event context is placed in the crier's intake, or refused. -/
  | vtlEvt (m : Fin 16) (h : BitVec 128) (data : List Byte)
  /-- STALL_WARN (R273): A VC stalled for STALL_WARN ticks sets WARNED and PORT_STALL. -/
  | stallWarn (m : Fin 16) (vc : Fin 8)
  /-- ABANDON (R274): A VC stalled for ABANDON ticks aborts every stream descriptor waiting on it. -/
  | vcAbandon (m : Fin 16) (vc : Fin 8)
  /-- RSP_TIMEOUT (R275): An SRD unanswered after RSP_TIMEOUT ticks completes as ERROR and its tag is quarantined. -/
  | rspTimeout (m : Fin 16) (tag : BitVec 9)
  /-- MODULE_RESET (R279): MOD_CTRL.RESET starts a module reset that discards waiting requests and aborts the module's streams. -/
  | moduleReset (m : Fin 16)
  /-- ENABLE (R279): MOD_CTRL.ENABLE = 0 resets the module and keeps it DOWN; 1 lets it train. -/
  | modEnable (m : Fin 16) (on : Bool)
  /-- MODULE_RESET_DONE (R279): When every request of the reset module has completed, it trains again if enabled. -/
  | moduleResetDone (m : Fin 16)
  /-- XLT_WALK_DONE (R102): A translation walk completes its table reads and enters a leaf or raises a translation fault. -/
  | xltWalkDone (g : Fin 8) (k : Nat)
  /-- RANGE (R104): XLT_INVAL_CTRL with SCOPE RANGE invalidates the 64 KiB pages of a context from the base. -/
  | invalRange (c : Fin 16)
  /-- CONTEXT (R104): XLT_INVAL_CTRL with SCOPE CONTEXT invalidates every cache entry of the context. -/
  | invalContext (c : Fin 16)
  /-- ALL (R104): XLT_INVAL_CTRL with SCOPE ALL invalidates every cache entry. -/
  | invalAll (c : Fin 16)
  /-- XLT_INVAL_DONE (R105): An invalidation completes when no matching entry, walk or translated access remains; BUSY clears and DONE is set. -/
  | xltInvalDone
  /-- BANK_READ (R134): A bank read checks all eight granules of a line by syndrome and returns data, status and poison mask. -/
  | bankRead (b : Fin 512) (l : Fin 3072)
  /-- BANK_WRITE (R132): A bank write of whole granules stores them with fresh check bits, clearing their poison. -/
  | bankWrite (b : Fin 512) (l : Fin 3072) (en pois : BitVec 8) (data : BitVec 512)
  /-- READ_MODIFY_WRITE (R141): A partial-granule write reads, checks, merges and rewrites the granule over two turns. -/
  | readModifyWrite (b : Fin 512) (l : Fin 3072) (en : BitVec 64) (pois : BitVec 8) (data : BitVec 512)
  /-- ECC_INJECT (R173): A write of ECC_INJECT arms an error that the bank's next write to the granule applies. -/
  | eccInject (g : Fin 8) (w : Word)
  /-- ADD (R462): ADD N raises a tally's value, saturating at the maximum, and evaluates its waiters. -/
  | tallyAdd (m : Fin 16) (h : BitVec 128) (data : List Byte)
  /-- SUB (R463): SUB N lowers a tally's value, or returns UNDERFLOW when N exceeds it. -/
  | tallySub (m : Fin 16) (h : BitVec 128) (data : List Byte)
  /-- WAIT_GE (R464): WAIT_GE N is granted when the value reaches N, otherwise a waiter record is made. -/
  | tallyWaitGe (m : Fin 16) (h : BitVec 128) (data : List Byte)
  /-- WAIT_TAKE (R464): WAIT_TAKE N is granted in take order when the value reaches N and subtracts N. -/
  | tallyWaitTake (m : Fin 16) (h : BitVec 128) (data : List Byte)
  /-- READ (R461): READ returns a tally's value and flags. -/
  | tallyRead (m : Fin 16) (h : BitVec 128) (data : List Byte)
  /-- SET (R488): The steward's SET writes a tally's value and evaluates its waiters. -/
  | tallySet (p : Fin 8192) (n : BitVec 24)
  /-- ARRIVE (R469): ARRIVE counts an arrival at a barrier and releases the generation when the count reaches PART. -/
  | tallyArrive (m : Fin 16) (h : BitVec 128) (data : List Byte)
  /-- CLEAR_ORPHAN (R478): CLEAR_ORPHAN clears a tally's ORPHANED flag. -/
  | clearOrphan (m : Fin 16) (h : BitVec 128) (data : List Byte)
  /-- WAIT_TIMEOUT (R466): A wait not granted by its deadline returns TIMEOUT and writes a timeout record. -/
  | waitTimeout (k : Fin 2048)
  /-- REALIGN (R472): An enabled link is realigned by subtracting the lower value from both tallies. -/
  | tallyRealign (c : Fin 16)
  /-- DEADLOCK (R480): A context whose waiters have all waited DL_WINDOW with no progress is reported as deadlocked. -/
  | tallyDeadlock (c : Fin 16)
  /-- LINK_WRITE (R473): A write of LINK_k enables or disables a link when its conditions hold. -/
  | linkWrite (port : Port) (c k : Fin 16) (w : Word)
  /-- LOCK_WRITE (R479): A write of TTV_ATTR.LOCK starts or stops recording holders of a tally. -/
  | lockWrite (port : Port) (c : Fin 16) (on : Bool)
  /-- CLEAR_SAT (R458): TTV_CMD.CLEAR_SAT clears SAT of the selected tally. -/
  | clearSat (port : Port) (c : Fin 16)
  /-- ATOMIC_ADD (R149): A bank ADD adds an operand to each enabled lane, rounded by RND and SAT. -/
  | atomAdd (m : Fin 16) (h : BitVec 128) (data : List Byte)
  /-- SWAP (R147): A bank SWAP replaces each enabled lane and returns the old values. -/
  | atomSwap (m : Fin 16) (h : BitVec 128) (data : List Byte)
  /-- CSWAP (R151): A bank CSWAP replaces each enabled lane that equals its compare value bit for bit. -/
  | atomCswap (m : Fin 16) (h : BitVec 128) (data : List Byte)
  /-- TINKER_REGION_START (R161): Each TNK_INTERVAL a tinker region test runs SAVE, MARCH, RETEST, RESTORE and RELEASE. -/
  | tinkerRegionStart (g : Fin 8) (faults : List LineTest)
  /-- TNK_TARGET (R161): A write of TNK_TARGET queues a region test ahead of the sweep. -/
  | tnkTarget (g : Fin 8) (b r : BitVec 6)
  /-- CE_TRIGGER (R162): A bank reaching CE_TRIGGER corrections in a 1 ms window queues its region for test. -/
  | ceTrigger (b : Fin 512)
  /-- SPARE_ENTRY (R178): A write of SPARE_ENTRY while the TNK page is HALTED maps or unmaps a spare slot. -/
  | spareEntry (g : Fin 8) (w : Word)
  /-- STACK_BURST (R286): A channel scheduler draws among classes and issues a row and column burst for the chosen request. -/
  | stackBurst (g : Fin 8) (ch : Fin 32) (busy : BitVec 2)
  /-- STACK_READ_DONE (R291): A line read from the stack is checked, combined with the stack's severity report, and answered. -/
  | stackReadDone (g : Fin 8) (line : Fin (2 ^ 30)) (sev : Fin 3)
  /-- PATROL_READ (R294): At HC_PATROL.RATE the controller reads the next stack line and treats it as a checked read. -/
  | patrolRead (g : Fin 8) (sev : Fin 3)
  /-- REFRESH_DUE (R295): A per-bank refresh falls due and cuts in at the next column-burst boundary. -/
  | refreshDue (g : Fin 8) (ch : Fin 32) (pc : Fin 2) (bank : Fin 64)
  /-- RFM_DUE (R296): A bank's activation count reaches the stack's threshold and a refresh-management command is issued. -/
  | rfmDue (g : Fin 8) (ch : Fin 32) (pc : Fin 2) (bank : Fin 64)
  /-- HBM_TEMP_READ (R297): Every 1 ms the stack's temperature and refresh-rate indication are read and applied. -/
  | hbmTempRead (g : Fin 8) (r : Option (BitVec 8 × Fin 3))
  /-- ROW_CLOSE (R287): A row with no queued hit is closed after ROW_IDLE PHY periods. -/
  | rowClose (g : Fin 8) (ch : Fin 32) (pc : Fin 2) (bank : Fin 64)
  /-- POWER_DOWN (R298): A channel idle for PD_IDLE periods enters power-down. -/
  | powerDown (g : Fin 8) (ch : Fin 32)
  /-- CA_PARITY (R309): A command and address parity report closes the channel's banks and reissues the commands. -/
  | caParity (g : Fin 8) (ch : Fin 32)
  /-- WR_PARITY (R309): A write data parity report makes the controller write the line again from its slot. -/
  | wrParity (g : Fin 8) (ch : Fin 32)
  /-- CHAN_RETRAIN_DONE (R310): A channel retrain completes, or fails and makes the stack FAILED. -/
  | chanRetrainDone (g : Fin 8) (ch : Fin 32) (ok : Bool)
  /-- STACK_FAILED (R311): A PHY lock loss or the stack's own thermal shutdown makes the stack FAILED. -/
  | stackFailed (g : Fin 8)
  /-- CLEAR (R316): HC_CTRL.CLEAR = 1 holds new requests and writes every stack line with zeros. -/
  | stackClear (g : Fin 8)
  /-- STACK_CLEAR_DONE (R316): The clear completes and the held requests are released. -/
  | stackClearDone (g : Fin 8)
  /-- RETRAIN (R310): HC_CTRL.RETRAIN retrains every channel while the HC page is HALTED. -/
  | hcRetrain (g : Fin 8)
  /-- DESCRIPTOR_ACTIVATE (R367): The grant of a descriptor read allocates an active slot to the queue's next descriptor. -/
  | descriptorActivate (q : Fin 128)
  /-- DESCRIPTOR_READ_DONE (R323): The 128-byte descriptor arrives and is checked against every acceptance rule. -/
  | descriptorReadDone (q : Fin 128)
  /-- TILE_TAKE (R345): The queue makes its WAIT_TAKE before a tile when the link mode is TAKE. -/
  | tileTake (q : Fin 128) (k : Fin 4)
  /-- TOKEN_HANDOFF (R370): A token is handed to the execute unit once all its lines are written to staging. -/
  | tokenHandoff (q : Fin 128)
  /-- ELEMENT_CONVERT (R335): The execute unit converts a staged token's elements and writes the destination. -/
  | elementConvert (q : Fin 128) (k : Fin 4)
  /-- TILE_POST (R347): When every element of tiles 0 to k is complete the queue adds TILE_N to TILE_TALLY. -/
  | tilePost (q : Fin 128)
  /-- DONE_POST (R348): After the last element and tile post the queue adds DONE_N to DONE_TALLY. -/
  | donePost (q : Fin 128)
  /-- DESCRIPTOR_END (R384): A descriptor ends, its status recorded in QEND_q and reported to the foreman. -/
  | descriptorEnd (q : Fin 128)
  /-- RESUME (R381): QUEUE_CMD.RESUME restarts a FAULTED queue's descriptor at the faulting element. -/
  | queueResume (port : Port) (c : Fin 16) (q : Fin 128)
  /-- ABORT (R382): QUEUE_CMD.ABORT ends every active descriptor of the queue with ABORTED. -/
  | queueAbort (port : Port) (c : Fin 16) (q : Fin 128)
  /-- FLUSH (R382): QUEUE_CMD.FLUSH with ABORT also ends every accepted descriptor not yet started. -/
  | queueFlush (port : Port) (c : Fin 16) (q : Fin 128)
  /-- MIXER_BLOCK_DONE (R516): A mixer delivers a block after its latency, or fails its check and the request goes to another mixer. -/
  | mixerBlockDone (g k : Fin 8) (quick fail : Bool)
  /-- COMBINER_WINDOW_EXPIRY (R389): A combiner entry's 16-turn window closes and its write-out takes an errand entry. -/
  | combinerWindowExpiry (g : Fin 8) (e : Fin 16)
  /-- DOORBELL (R412): A write of DOORBELL_r moves a ring's TAIL when the value is acceptable. -/
  | doorbell (port : Port) (r : Fin 64) (v : BitVec 16)
  /-- RING_FETCH (R423): A ring's fetch is granted and one command is read from ring memory. -/
  | ringFetch (r : Fin 64)
  /-- COMMAND_DISPATCH (R426): A fetched command is dispatched once every dispatch condition holds. -/
  | commandDispatch (r : Fin 64)
  /-- STREAM (R417): A STREAM command sends its descriptor to a queue. -/
  | cmdStream (r : Fin 64)
  /-- TALLY_OP (R418): A TALLY_OP command sends an ADD, SUB, READ or CLEAR_ORPHAN to the hall. -/
  | cmdTallyOp (r : Fin 64)
  /-- WAIT (R416): A WAIT command sends WAIT_GE or WAIT_TAKE and holds the ring until it returns. -/
  | cmdWait (r : Fin 64)
  /-- BARRIER (R416): A BARRIER command arrives at a barrier tally and holds the ring until the release or acknowledgement. -/
  | cmdBarrier (r : Fin 64)
  /-- EVENT_STEP (R420): An EVENT_STEP command arrives at the context's step barrier as an external contributor. -/
  | cmdEventStep (r : Fin 64)
  /-- FENCE (R416): A FENCE command holds the ring until every earlier command completes. -/
  | cmdFence (r : Fin 64)
  /-- NOTE (R421): A NOTE command sends an INT, writes a value, or both. -/
  | cmdNote (r : Fin 64)
  /-- JUMP (R422): A JUMP command moves fetching to a list of commands before continuing in the ring. -/
  | cmdJump (r : Fin 64)
  /-- COMMAND_COMPLETE (R414): A dispatched command completes, advancing COMPLETE in order and freeing scoreboard entries. -/
  | commandComplete (r : Fin 64) (k : Nat)
  /-- RESTART (R433): RING_CMD.RESTART resumes a STOPPED or FAULTED ring. -/
  | ringRestart (port : Port) (r : Fin 64)
  /-- RING_CLEAR (R433): RING_CMD.CLEAR clears DB_IGNORED. -/
  | ringClear (port : Port) (r : Fin 64)
  /-- RING_SLOT_EN (R410): A write of RING_SLOT_s.EN starts or stops service of a ring, refused for a ring already served. -/
  | ringSlotEn (g k : Fin 8) (on : Bool)
  /-- KEY_APPLY (R507): KEY_APPLY copies KEY_NEXT into the context key in one turn. -/
  | keyApply (port : Port) (c : Fin 16)
  /-- START (R519): CHK_CTRL.START samples the check inputs and starts a block computation in the check unit. -/
  | chkStart (g : Fin 8)
  /-- CHECK_DONE (R519): The check unit writes the block and variates, clears BUSY and sets DONE. -/
  | checkDone (g : Fin 8)
  /-- RETURN (R528): MIX_CTRL.RETURN_k compares mixer k with the check unit to return it to service. -/
  | mixReturn (g : Fin 8) (mask : BitVec 8)
  /-- STEP_DUE (R553): In REAL mode the due tick of the next step arrives. -/
  | stepDue
  /-- STEP_OPEN (R550): A step opens: pending swaps and commits apply, the key is read, encoders and intake events route, and DELIVER applies its bucket. -/
  | stepOpen
  /-- EVALUATE (R537): Once every DELIVER atomic is complete the crier evaluates its neuron records and routes fired keys. -/
  | crierEvaluate (g : Fin 8)
  /-- DRAIN (R550): Once every event of the step has landed or been sent the crier writes decoder outputs and its step record part. -/
  | crierDrain (g : Fin 8)
  /-- STEP_ARRIVE (R551): After DRAIN the crier arrives at the step barrier; the step closes at the release. -/
  | stepArrive (g : Fin 8)
  /-- EVENT_DELIVERY (R542): An event arrives at a destination crier and is landed, counted in a decoder or sent to a module. -/
  | eventDelivery (g : Fin 8)
  /-- RUN (R555): STEP_CTRL.RUN = 1 starts the step engine; RUN = 0 lets the open step close and stops it. -/
  | stepRun (port : Port) (c : Fin 16) (on : Bool)
  /-- COPY_LIVE (R566): TEV_CMD.COPY_LIVE copies every live table into its shadow. -/
  | copyLive (port : Port) (c : Fin 16)
  /-- COPY_LIVE_DONE (R566): The live-to-shadow copy completes and COPY_BUSY clears. -/
  | copyLiveDone
  /-- SWAP_CANCEL (R566): TEV_CMD.CANCEL clears a pending swap. -/
  | swapCancel (port : Port) (c : Fin 16)
  /-- EVM_CTRL (R795): A write of EVM_CTRL enables or disables event mode or changes the event context, clearing state first. -/
  | evmCtrl (w : Word)
  /-- M_APPLY (R592): A received M_APPLY is applied in MSEQ order and answered with M_ACK. -/
  | mApply (h : BitVec 128) (data : List Byte)
  /-- M_FWD (R593): A received M_FWD is applied by the sequencer in its own order and returned as M_APPLY or M_REFUSE. -/
  | mFwd (h : BitVec 128) (data : List Byte)
  /-- M_COPY (R626): A received M_COPY writes copied state on the RESILVER target and is acknowledged. -/
  | mCopy (h : BitVec 128) (data : List Byte)
  /-- M_ACK (R593): A received M_ACK completes a mirrored operation at the sequencer. -/
  | mAck (h : BitVec 128)
  /-- M_REFUSE (R598): A received M_REFUSE leaves a TAKE_COMMIT waiting at the head of its take order. -/
  | mRefuse (h : BitVec 128)
  /-- M_BEAT (R617): A received M_BEAT shows the peer alive and reports its last applied MSEQ. -/
  | mBeat (h : BitVec 128)
  /-- M_JOIN (R623): Received M_JOIN messages decide pairing, RESILVER or a clash by Table 14-7. -/
  | mJoin (h : BitVec 128)
  /-- M_LEAVE (R617): A received M_LEAVE is a peer loss with the cause it carries. -/
  | mLeave (h : BitVec 128)
  /-- BEAT_TIMEOUT (R617): No good flit from the peer for BEAT_TIMEOUT is a peer loss. -/
  | beatTimeout
  /-- TWIN_RETRAIN (R618): While UNPAIRED or SOLO, M15 retrains every 10 ms. -/
  | twinRetrain
  /-- REJOIN (R624): TWN_CMD.REJOIN starts a twin rejoin reset that clears mirrored state and joins without state. -/
  | twinRejoin
  /-- TAKE_OVER (R619): TWN_CMD.TAKE_OVER moves a FENCED die to SOLO. -/
  | takeOver
  /-- RESILVER_COPY (R625): The RESILVER source sends the next copy of configuration, a tally or a line at the permitted rate. -/
  | resilverCopy
  /-- RESILVER_DONE (R627): RESILVER completes and both dies read PAIRED with SYNCED set. -/
  | resilverDone
  /-- REGION_ENABLE (R604): A write of MIR_SIZE_k.EN enables a mirrored region and starts its copy, or disables it. -/
  | regionEnable (k : Fin 16) (w : Word)
  /-- PING (R634): A steward PING returns DEVICE_ID, the boot phase and status. -/
  | stwPing (frame : List Byte)
  /-- REG_READ (R633): A steward REG_READ reads a register or tally window word by DPA. -/
  | stwRegRead (frame : List Byte) (slow : Bool)
  /-- REG_WRITE (R633): A steward REG_WRITE writes a register or tally window word by DPA. -/
  | stwRegWrite (frame : List Byte) (slow : Bool)
  /-- MEM_READ (R633): A steward MEM_READ reads 1 to 64 bytes of SRAM or HBM. -/
  | stwMemRead (frame : List Byte) (slow : Bool)
  /-- MEM_WRITE (R633): A steward MEM_WRITE writes 1 to 64 bytes of SRAM or HBM with a poison mask. -/
  | stwMemWrite (frame : List Byte) (slow : Bool)
  /-- MEM_ATOM (R633): A steward MEM_ATOM performs a bank atomic with a context's key for STOCH. -/
  | stwMemAtom (frame : List Byte) (slow : Bool)
  /-- REPLAY (R635): A steward REPLAY returns the last response frame and performs nothing. -/
  | stwReplay (frame : List Byte)
  /-- FETCH (R635): A steward FETCH returns the result of the next completed queued operation. -/
  | stwFetch (frame : List Byte)
  /-- STEWARD_OP_DONE (R635): A QUEUED steward operation completes and its result is kept for FETCH. -/
  | stewardOpDone (h : Fin 16)
  /-- ASSIGN (R639): CTX_CMD ASSIGN clears a context and makes it ASSIGNED. -/
  | ctxAssign (c : Fin 16)
  /-- RETIRE (R639): CTX_CMD RETIRE clears a context and makes it UNASSIGNED. -/
  | ctxRetire (c : Fin 16)
  /-- CONTEXT_CLEAR_DONE (R640): Every part of a context switch is done; the entry becomes ASSIGNED or UNASSIGNED and BUSY clears. -/
  | contextClearDone (c : Fin 16)
  /-- ELOG_WRITE (R642): The oldest buffered error log record is written into the ring when it has room. -/
  | elogWrite
  /-- ELOG_TAIL (R642): A write of ELOG_TAIL consumes ring records, refused if it would pass ELOG_HEAD. -/
  | elogTail (w : Word)
  /-- UNLOCK (R645): DBG_CTRL.UNLOCK with the right key unlocks debug until the next reset. -/
  | dbgUnlock (key : BitVec 8)
  /-- BYPASS (R647): The TAP BYPASS instruction selects the 1-bit bypass register. -/
  | tapBypass (code : BitVec 8)
  /-- IDCODE (R647): The TAP IDCODE instruction selects the 32-bit identity register. -/
  | tapIdcode
  /-- SAMPLE_PRELOAD (R647): The TAP SAMPLE/PRELOAD instruction selects the boundary scan register. -/
  | tapSample (pins scan : Nat)
  /-- EXTEST (R647): The TAP EXTEST instruction drives the scanned bumps from the boundary scan register. -/
  | tapExtest (pins scan : Nat)
  /-- CLAMP (R647): The TAP CLAMP instruction holds the scanned outputs and selects bypass. -/
  | tapClamp
  /-- HIGHZ (R647): The TAP HIGHZ instruction releases the scanned outputs. -/
  | tapHighz
  /-- DBG_ACCESS (R648): Update-DR under DBG_ACCESS starts a debug read of a register word or line by DPA. -/
  | dbgAccess (dpa : BitVec 48) (line : Bool)
  /-- TRACE_READ (R649): TRACE_READ captures the trace entry at the TAP's index and increments it. -/
  | traceRead
  /-- IJTAG (R650): The IJTAG instruction reaches the read-only IEEE 1687 instrument network. -/
  | tapIjtag (seg : Fin 9) (k : Nat)
  /-- TAP_RESET (R778): TRST_N low for 100 ns resets the TAP to test-logic reset. -/
  | tapReset
  /-- FAULT_RECORD_WRITE (R733): The oldest buffered fault record is written into the context's fault ring when it has room. -/
  | faultRecordWrite (c : Fin 16)
  /-- FQ_ENABLE (R734): A write of FQ_CTRL.EN = 1 translates FQ_BASE and keeps its DPA for the ring. -/
  | fqEnable (port : Port) (c : Fin 16)
  /-- FQ_TAIL (R737): A write of FQ_TAIL consumes fault records and clears INT_PENDING. -/
  | fqTail (port : Port) (c : Fin 16) (w : Word)
  /-- TEV_CMD_SWAP (R566): A write of TEV_CMD.SWAP checks every shadow table against Table 13-9 and sets SWAP_PENDING, or rejects with a code, and applies at once while STOPPED or OFF. -/
  | tevCmdSwap (port : Port) (c : Fin 16)
  /-- LINK_RETRAIN_DONE (R237): A UCIe retrain of a module completes with VTL state kept, lanes repaired are counted, and the sender replays from the oldest unacknowledged flit. -/
  | linkRetrainDone (m : Fin 16) (lanes : BitVec 8) (ok : Bool)
  /-- STACK_TRAINED (R314): One stack controller finishes training, sets HBM_CAP_g and HC_STATUS.STATE to UP, and enables refresh and patrol. -/
  | stackTrained (g : Fin 8) (sids : Fin 4) (rate : Fin 3) (lanes : BitVec 8)
  /-- MIXER_COMPARE_DONE (R528): The comparison started by MIX_CTRL.RETURN_k completes, returning the mixer to service or leaving it out, and a waiting START may begin. -/
  | mixerCompareDone (g : Fin 8) (agree : BitVec 8)
  /-- DBG_READ_DONE (R648): A debug access path read started by Update-DR completes, so its DONE, STATUS, poison and data become available to Capture-DR and later Update-DR is accepted again. -/
  | dbgReadDone
  /-- STW_FRM_LOW (R659): STW_FRM held low by the host for 2 periods resynchronises the steward port, ending an overlong frame with BAD_FRAME. -/
  | stwFrmLow
  /-- PARITY_ERROR (R127): A parity error arises of itself in register, table, counter or control state and is reported, fatally or not, as the owning rule states. -/
  | parityError (x : ParityAt)
  /-- SWITCH_FAULT (R40): A fault inside the gallery switch, an arbiter's grant logic, a stair node or the central block is detected and is fatal to the whole device. -/
  | switchFault (u : UnitAt)
  deriving DecidableEq, Repr

end Sys2Proof
end

