-- ==== Sys2Proof/Decode.lean ====
section
/-! DEFINITION. The commands of this block have no bits: no row of the opcode table gives any, so no word spells one. -/

namespace Sys2Proof

/-- The command that a word spells: none, since no row of the table has fields. (DESIGN CHOICE, log entry 6) -/
def decodeTableWord (_nbits _w : Nat) : Option Instr := none

end Sys2Proof
end

