-- ==== Sys2Proof/Config.lean ====
section
/-! DEFINITION. What the spec leaves open: free values with no body (assumption log entry 2). Nothing in Lean can
evaluate one, so a statement about one holds for every value. -/

namespace Sys2Proof.Config

/-- What a byte of a stack reads as before it is written (R315). The first argument counts the losses of contents,
the second is the byte's key in `Machine.State.hbm`. -/
opaque hbmInit : Nat → Nat → Byte

/-- A fresh free value of the spec's undefined results: `freeValue k` is the value at the k-th use (State.freeCtr). (DESIGN CHOICE, log entry 2) -/
opaque freeValue : Nat → Nat

/-- The static power of a gallery in milliwatts at a core voltage and a temperature (R665): a characterised figure
that the spec does not tabulate. Arguments: gallery, millivolts, quarter degrees (offset by 256 °C). -/
opaque leakPower : Nat → Nat → Nat → Nat

/-- The power of the edge domains and of the central block in milliwatts in the window that ends at a tick (R665): static
figures and counts whose weights the spec does not tabulate. -/
opaque edgePower : Nat → Nat

/-- The byte that a UNIFORM or NORMAL fill writes to a RAW8 destination, for which no conversion is stated (R334, R343):
a function of the descriptor and the element's position. (DESIGN CHOICE, log entry 87) -/
opaque rawFill : Nat → Nat → Nat

end Sys2Proof.Config
end

