-- ==== Sys2Proof/Machine/Bits.lean ====
section
/-! DEFINITION. Bit fields, byte order (R8), signed readings and sparse tables: the helpers every family uses. -/

namespace Sys2Proof.Machine

/-- Bits `[lo + w - 1 : lo]` of a number. -/
def bits (n lo w : Nat) : Nat := (n >>> lo) % 2 ^ w

/-- One bit of a number. -/
def bit (n i : Nat) : Bool := n.testBit i

/-- 1 or 0. -/
def b2n (b : Bool) : Nat := if b then 1 else 0

/-- A number with bits `[lo + w - 1 : lo]` replaced by the low bits of `v`. -/
def putBits (n lo w v : Nat) : Nat := n - (bits n lo w) * 2 ^ lo + (v % 2 ^ w) * 2 ^ lo

/-- Bits of a register word, as a number. -/
def wbits (x : Word) (lo w : Nat) : Nat := bits x.toNat lo w

/-- The word whose ones are bits `[lo + w - 1 : lo]`. -/
def wmask (lo w : Nat) : Word := BitVec.ofNat 32 ((2 ^ w - 1) * 2 ^ lo)

/-- A register word with one field replaced. -/
def wput (x : Word) (lo w v : Nat) : Word :=
  (x &&& ~~~ (wmask lo w)) ||| (BitVec.ofNat 32 ((v % 2 ^ w) * 2 ^ lo))

/-- `n` bytes of a number, least significant first (R8). -/
def leBytes : Nat → Nat → List Byte
  | 0, _ => []
  | n + 1, v => BitVec.ofNat 8 v :: leBytes n (v / 256)

/-- The number of a little-endian byte string (R8). -/
def leNat : List Byte → Nat
  | [] => 0
  | b :: bs => b.toNat + 256 * leNat bs

/-- Byte `i` of a string, zero past its end. -/
def byteAt (bs : List Byte) (i : Nat) : Nat := (bs.getD i 0).toNat

/-- The number in `n` bytes of a string from byte `i` on. -/
def leAt (bs : List Byte) (i n : Nat) : Nat := leNat ((bs.drop i).take n)

/-- Exactly `n` bytes: cut, or filled with zeros. -/
def padTo (n : Nat) (bs : List Byte) : List Byte := (bs ++ List.replicate n 0).take n

/-- Exclusive-or of the bits of a number. -/
def parityN : Nat → Nat → Bool
  | 0, _ => false
  | k + 1, n => (n % 2 == 1) != parityN k (n / 2)

/-- The number of ones among the low `k` bits. -/
def popCount : Nat → Nat → Nat
  | 0, _ => 0
  | k + 1, n => n % 2 + popCount k (n / 2)

/-- The two's-complement reading of the low `w` bits. -/
def toSigned (w n : Nat) : Int :=
  let m := n % 2 ^ w
  if m < 2 ^ (w - 1) then (m : Int) else (m : Int) - (2 ^ w : Nat)

/-- The low `w` bits of an integer in two's complement. -/
def ofSigned (w : Nat) (i : Int) : Nat := (i % ((2 ^ w : Nat) : Int)).toNat

/-- The lowest index below `k` whose bit is clear, if any. -/
def lowestClear : Nat → Nat → Option Nat
  | 0, _ => none
  | k + 1, n => match lowestClear k n with
    | some i => some i
    | none => if n.testBit k then none else some k

/-- A number rounded down to a multiple. -/
def alignDown (a n : Nat) : Nat := a - a % n

/-! ### Sparse tables: lists of key and value with keys strictly rising -/

/-- The value of a key, if listed. -/
def find {α : Type} : List (Nat × α) → Nat → Option α
  | [], _ => none
  | (k, v) :: rest, key => if k = key then some v else find rest key

/-- The list with a key set, kept in rising order of keys. -/
def put {α : Type} : List (Nat × α) → Nat → α → List (Nat × α)
  | [], key, v => [(key, v)]
  | (k, u) :: rest, key, v =>
    if key < k then (key, v) :: (k, u) :: rest
    else if key = k then (key, v) :: rest
    else (k, u) :: put rest key v

/-- The list without a key. -/
def del {α : Type} (m : List (Nat × α)) (key : Nat) : List (Nat × α) := m.filter fun e => e.1 ≠ key

/-- The list without the keys from `lo` to `hi - 1`. -/
def delRange {α : Type} (m : List (Nat × α)) (lo hi : Nat) : List (Nat × α) :=
  m.filter fun e => ¬ (lo ≤ e.1 ∧ e.1 < hi)

/-- The keys of a list rise strictly. -/
def rising {α : Type} : List (Nat × α) → Bool
  | [] => true
  | [_] => true
  | (k, _) :: (k', v') :: rest => decide (k < k') && rising ((k', v') :: rest)

/-- The first element that satisfies a test, with the list without it. -/
def takeFirst {α : Type} (p : α → Bool) : List α → Option (α × List α)
  | [] => none
  | x :: xs => if p x then some (x, xs) else (takeFirst p xs).map fun r => (r.1, x :: r.2)

/-- The list with element `i` changed, unchanged past its end. -/
def modAt {α : Type} (f : α → α) : Nat → List α → List α
  | _, [] => []
  | 0, x :: xs => f x :: xs
  | i + 1, x :: xs => x :: modAt f i xs

/-- Fold a state change over a list, left to right. -/
def foldS {σ α : Type} (f : α → σ → σ) : List α → σ → σ
  | [], s => s
  | x :: xs, s => foldS f xs (f x s)

end Sys2Proof.Machine
end

