-- ==== Sys2Proof/Machine/RegMap.lean ====
section
/-! DEFINITION. The register map of chapter 19 (R750, R757): every register of every page with its fields, their
attribute classes (Table 3-11) and reset values, and a named descriptor of each field. -/

namespace Sys2Proof.Machine

/-- A field's place on its page: the offset of its register, the stride to the next instance of an indexed register,
its lowest bit and its width. -/
structure Fld where
  off : Nat
  stride : Nat
  lo : Nat
  w : Nat
  deriving DecidableEq, Repr

/-- The attribute classes of Table 3-11. -/
inductive Attr where
  | ro | rwL | rwS | rwH | w1c | wo | cntW | cntS
  deriving DecidableEq, Repr

/-- One field of a register: lowest bit, width, class, reset value. -/
structure FieldDef where
  lo : Nat
  w : Nat
  attr : Attr
  reset : Nat
  deriving DecidableEq, Repr

/-- One register, or an indexed group of registers. A `wide` register is a CNT-W pair: LO at `off`, HI at `off + 4`. -/
structure RegDef where
  off : Nat
  stride : Nat
  count : Nat
  wide : Bool
  fields : List FieldDef
  deriving DecidableEq, Repr

/-- The descriptor of instance `i` of an indexed field. -/
def Fld.at (f : Fld) (i : Nat) : Fld := { f with off := f.off + f.stride * i }

namespace F

/-- COM PAGE_ID.ID (03 R108, 19 R751). -/
def PAGE_ID_ID : Fld := ⟨0x0, 0x0, 0, 32⟩
/-- COM PAGE_CAPS.CAPS (03 Table 3-6, 19 R751). -/
def PAGE_CAPS_CAPS : Fld := ⟨0x4, 0x0, 0, 6⟩
/-- COM PAGE_CTRL.HALT (03 Table 3-7, R114). -/
def PAGE_CTRL_HALT : Fld := ⟨0x8, 0x0, 0, 1⟩
/-- COM PAGE_CTRL.SOFT_RESET (03 Table 3-7, R114). -/
def PAGE_CTRL_SOFT_RESET : Fld := ⟨0x8, 0x0, 1, 1⟩
/-- COM PAGE_CTRL.READ_LIVE (03 Table 3-7, R114). -/
def PAGE_CTRL_READ_LIVE : Fld := ⟨0x8, 0x0, 2, 1⟩
/-- COM PAGE_STATE.RUN (03 Table 3-8). -/
def PAGE_STATE_RUN : Fld := ⟨0xC, 0x0, 0, 2⟩
/-- COM PAGE_STATE.COMMIT_PENDING (03 Table 3-8). -/
def PAGE_STATE_COMMIT_PENDING : Fld := ⟨0xC, 0x0, 2, 1⟩
/-- COM PAGE_STATE.FATAL (03 Table 3-8). -/
def PAGE_STATE_FATAL : Fld := ⟨0xC, 0x0, 3, 1⟩
/-- COM PAGE_COMMIT.COMMIT (03 R112, R113). -/
def PAGE_COMMIT_COMMIT : Fld := ⟨0x10, 0x0, 0, 1⟩
/-- COM PAGE_COMMIT.DISCARD (03 R112, R113). -/
def PAGE_COMMIT_DISCARD : Fld := ⟨0x10, 0x0, 1, 1⟩
/-- COM PAGE_COMMIT_STATUS.PENDING (03 Table 3-9). -/
def PAGE_COMMIT_STATUS_PENDING : Fld := ⟨0x14, 0x0, 0, 1⟩
/-- COM PAGE_COMMIT_STATUS.DONE (03 Table 3-9). -/
def PAGE_COMMIT_STATUS_DONE : Fld := ⟨0x14, 0x0, 1, 1⟩
/-- COM PAGE_COMMIT_STATUS.REJECTED (03 Table 3-9). -/
def PAGE_COMMIT_STATUS_REJECTED : Fld := ⟨0x14, 0x0, 2, 1⟩
/-- COM PAGE_COMMIT_STATUS.SEQ (03 Table 3-9). -/
def PAGE_COMMIT_STATUS_SEQ : Fld := ⟨0x14, 0x0, 16, 16⟩
/-- COM ERR_STATUS.BITS (03 Table 3-10). -/
def ERR_STATUS : Fld := ⟨0x20, 0x0, 0, 32⟩
/-- COM ERR_ENABLE.BITS (03 Table 3-5). -/
def ERR_ENABLE : Fld := ⟨0x24, 0x0, 0, 32⟩
/-- COM ERR_FIRST.INDEX (03 Table 3-5). -/
def ERR_FIRST_INDEX : Fld := ⟨0x28, 0x0, 0, 5⟩
/-- COM ERR_FIRST.VALID (03 Table 3-5). -/
def ERR_FIRST_VALID : Fld := ⟨0x28, 0x0, 31, 1⟩
/-- COM ERR_COUNT.N (03 Table 3-5). -/
def ERR_COUNT : Fld := ⟨0x2C, 0x0, 0, 16⟩
/-- COM ERR_INJECT.BITS (03 Table 3-5, 18 R738). -/
def ERR_INJECT : Fld := ⟨0x30, 0x0, 0, 32⟩
/-- COM ALERT_STATUS.BITS (03 Table 3-5). -/
def ALERT_STATUS : Fld := ⟨0x40, 0x0, 0, 32⟩
/-- COM ALERT_ENABLE.BITS (03 Table 3-5). -/
def ALERT_ENABLE : Fld := ⟨0x44, 0x0, 0, 32⟩
/-- GSW GSW_INFO.GALLERY (01 Table 1-11). -/
def GSW_GSW_INFO_GALLERY : Fld := ⟨0x100, 0x0, 0, 3⟩
/-- GSW GSW_INFO.HALLS (01 Table 1-11). -/
def GSW_GSW_INFO_HALLS : Fld := ⟨0x100, 0x0, 8, 4⟩
/-- GSW GSW_INFO.BANKS_PER_HALL (01 Table 1-11). -/
def GSW_GSW_INFO_BANKS_PER_HALL : Fld := ⟨0x100, 0x0, 12, 5⟩
/-- GSW GSW_INFO.SPARES_PER_BANK (01 Table 1-11). -/
def GSW_GSW_INFO_SPARES_PER_BANK : Fld := ⟨0x100, 0x0, 17, 7⟩
/-- GSW STAIR_LINK_STATUS.UP_NEXT (01 Table 1-12). -/
def GSW_STAIR_LINK_STATUS_UP_NEXT : Fld := ⟨0x104, 0x0, 0, 1⟩
/-- GSW STAIR_LINK_STATUS.UP_PREV (01 Table 1-12). -/
def GSW_STAIR_LINK_STATUS_UP_PREV : Fld := ⟨0x104, 0x0, 1, 1⟩
/-- GSW STAIR_LINK_STATUS.UP_OPP (01 Table 1-12). -/
def GSW_STAIR_LINK_STATUS_UP_OPP : Fld := ⟨0x104, 0x0, 2, 1⟩
/-- GSW STAIR_LINK_STATUS.UP_SPOKE (01 Table 1-12). -/
def GSW_STAIR_LINK_STATUS_UP_SPOKE : Fld := ⟨0x104, 0x0, 3, 1⟩
/-- GSW LINES_LOCAL.LO (01 R44, Table 1-13). -/
def GSW_LINES_LOCAL : Fld := ⟨0x110, 0x0, 0, 32⟩
/-- GSW LINES_REMOTE.LO (01 R44, Table 1-13). -/
def GSW_LINES_REMOTE : Fld := ⟨0x118, 0x0, 0, 32⟩
/-- GSW STAIR_OUT.LO (01 R44, Table 1-13). -/
def GSW_STAIR_OUT : Fld := ⟨0x120, 0x8, 0, 32⟩
/-- GSW STAIR_HELD.N (01 Table 1-13). -/
def GSW_STAIR_HELD : Fld := ⟨0x140, 0x4, 0, 32⟩
/-- TBS REF_CTRL.REVERT (02 Table 2-9). -/
def TBS_REF_CTRL_REVERT : Fld := ⟨0x100, 0x0, 0, 1⟩
/-- TBS REF_CTRL.FORCE (02 Table 2-9). -/
def TBS_REF_CTRL_FORCE : Fld := ⟨0x100, 0x0, 1, 2⟩
/-- TBS REF_CTRL.WARN_PPM (02 Table 2-9). -/
def TBS_REF_CTRL_WARN_PPM : Fld := ⟨0x100, 0x0, 8, 8⟩
/-- TBS REF_CTRL.OUT_PPM (02 Table 2-9). -/
def TBS_REF_CTRL_OUT_PPM : Fld := ⟨0x100, 0x0, 16, 10⟩
/-- TBS REF_STATUS.SEL (02 Table 2-10). -/
def TBS_REF_STATUS_SEL : Fld := ⟨0x104, 0x0, 0, 1⟩
/-- TBS REF_STATUS.PRI (02 Table 2-10). -/
def TBS_REF_STATUS_PRI : Fld := ⟨0x104, 0x0, 1, 1⟩
/-- TBS REF_STATUS.GRADE_A (02 Table 2-10). -/
def TBS_REF_STATUS_GRADE_A : Fld := ⟨0x104, 0x0, 2, 2⟩
/-- TBS REF_STATUS.GRADE_B (02 Table 2-10). -/
def TBS_REF_STATUS_GRADE_B : Fld := ⟨0x104, 0x0, 4, 2⟩
/-- TBS REF_STATUS.TB_MODE (02 Table 2-10). -/
def TBS_REF_STATUS_TB_MODE : Fld := ⟨0x104, 0x0, 6, 2⟩
/-- TBS REF_STATUS.OSC_SUSPECT (02 Table 2-10). -/
def TBS_REF_STATUS_OSC_SUSPECT : Fld := ⟨0x104, 0x0, 8, 1⟩
/-- TBS REF_STATUS.FORCE_OVERRIDDEN (02 Table 2-10). -/
def TBS_REF_STATUS_FORCE_OVERRIDDEN : Fld := ⟨0x104, 0x0, 9, 1⟩
/-- TBS DEV_AB.PPM (02 R58, Table 2-11). -/
def TBS_DEV_AB_PPM : Fld := ⟨0x108, 0x0, 0, 16⟩
/-- TBS DEV_AO.PPM (02 R58, Table 2-11). -/
def TBS_DEV_AO_PPM : Fld := ⟨0x10C, 0x0, 0, 16⟩
/-- TBS DEV_BO.PPM (02 R58, Table 2-11). -/
def TBS_DEV_BO_PPM : Fld := ⟨0x110, 0x0, 0, 16⟩
/-- TBS REF_SWITCH_COUNT.N (02 Table 2-11). -/
def TBS_REF_SWITCH_COUNT : Fld := ⟨0x114, 0x0, 0, 16⟩
/-- TBS HOLDOVER_SEC.N (02 Table 2-11). -/
def TBS_HOLDOVER_SEC : Fld := ⟨0x118, 0x0, 0, 32⟩
/-- TBS TIME_NS.NS (02 R68). -/
def TBS_TIME_NS_NS : Fld := ⟨0x120, 0x0, 0, 32⟩
/-- TBS TIME_SEC_LO.SEC (02 R68). -/
def TBS_TIME_SEC_LO_SEC : Fld := ⟨0x124, 0x0, 0, 32⟩
/-- TBS TIME_SEC_HI.SEC (02 R68). -/
def TBS_TIME_SEC_HI_SEC : Fld := ⟨0x128, 0x0, 0, 16⟩
/-- TBS TIME_SET_NS.NS (02 R70). -/
def TBS_TIME_SET_NS_NS : Fld := ⟨0x130, 0x0, 0, 32⟩
/-- TBS TIME_SET_SEC_LO.SEC (02 R70). -/
def TBS_TIME_SET_SEC_LO_SEC : Fld := ⟨0x134, 0x0, 0, 32⟩
/-- TBS TIME_SET_SEC_HI.SEC (02 R70). -/
def TBS_TIME_SET_SEC_HI_SEC : Fld := ⟨0x138, 0x0, 0, 16⟩
/-- TBS TIME_APPLY.MODE (02 R70-R72). -/
def TBS_TIME_APPLY_MODE : Fld := ⟨0x13C, 0x0, 0, 2⟩
/-- TBS TIME_STATUS.PENDING (02 Table 2-12). -/
def TBS_TIME_STATUS_PENDING : Fld := ⟨0x140, 0x0, 0, 1⟩
/-- TBS TIME_STATUS.APPLIED (02 Table 2-12). -/
def TBS_TIME_STATUS_APPLIED : Fld := ⟨0x140, 0x0, 1, 1⟩
/-- TBS TIME_STATUS.APPLY_REJECT (02 Table 2-12). -/
def TBS_TIME_STATUS_APPLY_REJECT : Fld := ⟨0x140, 0x0, 2, 1⟩
/-- TBS TIME_STATUS.SET_IGNORED (02 Table 2-12). -/
def TBS_TIME_STATUS_SET_IGNORED : Fld := ⟨0x140, 0x0, 3, 1⟩
/-- TBS TIME_STATUS.UNSET (02 Table 2-12). -/
def TBS_TIME_STATUS_UNSET : Fld := ⟨0x140, 0x0, 4, 1⟩
/-- TBS TIME_STATUS.SEC_WRAPPED (02 Table 2-12). -/
def TBS_TIME_STATUS_SEC_WRAPPED : Fld := ⟨0x140, 0x0, 5, 1⟩
/-- TBS TIME_FREQ_ADJ.PPB (02 R67). -/
def TBS_TIME_FREQ_ADJ_PPB : Fld := ⟨0x144, 0x0, 0, 32⟩
/-- TBS TICK_COUNT.LO (02 R66). -/
def TBS_TICK_COUNT : Fld := ⟨0x148, 0x0, 0, 32⟩
/-- TBS TURN_PERIOD.PERIOD (02 R49, Table 2-13). -/
def TBS_TURN_PERIOD_PERIOD : Fld := ⟨0x160, 0x4, 0, 16⟩
/-- TBS TURN_PERIOD.VALID (02 R49, Table 2-13). -/
def TBS_TURN_PERIOD_VALID : Fld := ⟨0x160, 0x4, 31, 1⟩
/-- TBS TURN_MAX.PERIOD (02 Table 2-13). -/
def TBS_TURN_MAX_PERIOD : Fld := ⟨0x180, 0x4, 0, 16⟩
/-- TBS TURN_PERIOD_DEV.PERIOD (02 Table 2-13). -/
def TBS_TURN_PERIOD_DEV_PERIOD : Fld := ⟨0x1A0, 0x0, 0, 16⟩
/-- TBS TURN_PERIOD_DEV.VALID (02 Table 2-13). -/
def TBS_TURN_PERIOD_DEV_VALID : Fld := ⟨0x1A0, 0x0, 31, 1⟩
/-- TBS TURN_ALERT_LIMIT.LIMIT (02 R80). -/
def TBS_TURN_ALERT_LIMIT_LIMIT : Fld := ⟨0x1A4, 0x0, 0, 16⟩
/-- TBS TURN_CTRL.CLEAR_MAX (02 Table 2-13). -/
def TBS_TURN_CTRL_CLEAR_MAX : Fld := ⟨0x1A8, 0x0, 0, 1⟩
/-- MMAP SRAM_MAP.MODE (03 R91, Table 3-15). -/
def MMAP_SRAM_MAP_MODE : Fld := ⟨0x100, 0x0, 0, 1⟩
/-- MMAP SPREAD_HASH_0.MASK (03 Table 3-15). -/
def MMAP_SPREAD_HASH_0_MASK : Fld := ⟨0x104, 0x0, 0, 18⟩
/-- MMAP SPREAD_HASH_1.MASK (03 Table 3-15). -/
def MMAP_SPREAD_HASH_1_MASK : Fld := ⟨0x108, 0x0, 0, 18⟩
/-- MMAP SPREAD_HASH_2.MASK (03 Table 3-15). -/
def MMAP_SPREAD_HASH_2_MASK : Fld := ⟨0x10C, 0x0, 0, 18⟩
/-- MMAP HBM_CAP.GIB (03 Table 3-15). -/
def MMAP_HBM_CAP_GIB : Fld := ⟨0x110, 0x4, 0, 8⟩
/-- MMAP HBM_CAP.TRAINED (03 Table 3-15). -/
def MMAP_HBM_CAP_TRAINED : Fld := ⟨0x110, 0x4, 8, 1⟩
/-- MMAP HBM_ALIAS_SIZE.GIB (03 R93). -/
def MMAP_HBM_ALIAS_SIZE_GIB : Fld := ⟨0x130, 0x0, 0, 10⟩
/-- MMAP XLT_ROOT_LO.ROOT (03 Table 3-15). -/
def MMAP_XLT_ROOT_LO_ROOT : Fld := ⟨0x140, 0x8, 12, 20⟩
/-- MMAP XLT_ROOT_HI.ROOT (03 Table 3-15). -/
def MMAP_XLT_ROOT_HI_ROOT : Fld := ⟨0x144, 0x8, 0, 16⟩
/-- MMAP XLT_INVAL_CTRL.CONTEXT (03 R104-R106). -/
def MMAP_XLT_INVAL_CTRL_CONTEXT : Fld := ⟨0x1C0, 0x0, 0, 4⟩
/-- MMAP XLT_INVAL_CTRL.SCOPE (03 R104-R106). -/
def MMAP_XLT_INVAL_CTRL_SCOPE : Fld := ⟨0x1C0, 0x0, 4, 2⟩
/-- MMAP XLT_INVAL_BASE_LO.TVA (03 Table 3-15). -/
def MMAP_XLT_INVAL_BASE_LO_TVA : Fld := ⟨0x1C4, 0x0, 16, 16⟩
/-- MMAP XLT_INVAL_BASE_HI.TVA (03 Table 3-15). -/
def MMAP_XLT_INVAL_BASE_HI_TVA : Fld := ⟨0x1C8, 0x0, 0, 16⟩
/-- MMAP XLT_INVAL_COUNT.PAGES (03 Table 3-15). -/
def MMAP_XLT_INVAL_COUNT_PAGES : Fld := ⟨0x1CC, 0x0, 0, 32⟩
/-- MMAP XLT_INVAL_STATUS.BUSY (03 R105). -/
def MMAP_XLT_INVAL_STATUS_BUSY : Fld := ⟨0x1D0, 0x0, 0, 1⟩
/-- MMAP XLT_INVAL_STATUS.DONE (03 R105). -/
def MMAP_XLT_INVAL_STATUS_DONE : Fld := ⟨0x1D0, 0x0, 1, 1⟩
/-- MMAP XLT_HIT.N (03 Table 3-15). -/
def MMAP_XLT_HIT : Fld := ⟨0x200, 0x4, 0, 32⟩
/-- MMAP XLT_MISS.N (03 Table 3-15). -/
def MMAP_XLT_MISS : Fld := ⟨0x220, 0x4, 0, 32⟩
/-- MMAP XLT_FAULT.N (03 Table 3-15). -/
def MMAP_XLT_FAULT : Fld := ⟨0x240, 0x4, 0, 32⟩
/-- MMAP XLT_WALK_WAIT.N (03 R101, Table 3-15). -/
def MMAP_XLT_WALK_WAIT : Fld := ⟨0x260, 0x4, 0, 32⟩
/-- BNK BNK_CTRL.SCRUB_ON_READ (04 Table 4-8). -/
def BNK_BNK_CTRL_SCRUB_ON_READ : Fld := ⟨0x100, 0x0, 0, 1⟩
/-- BNK BNK_CTRL.CE_TRIGGER (04 Table 4-8). -/
def BNK_BNK_CTRL_CE_TRIGGER : Fld := ⟨0x100, 0x0, 16, 16⟩
/-- BNK ECC_LAST_LOC.BANK (04 Table 4-9). -/
def BNK_ECC_LAST_LOC_BANK : Fld := ⟨0x110, 0x0, 0, 6⟩
/-- BNK ECC_LAST_LOC.LINE (04 Table 4-9). -/
def BNK_ECC_LAST_LOC_LINE : Fld := ⟨0x110, 0x0, 6, 12⟩
/-- BNK ECC_LAST_LOC.GRANULE (04 Table 4-9). -/
def BNK_ECC_LAST_LOC_GRANULE : Fld := ⟨0x110, 0x0, 18, 3⟩
/-- BNK ECC_LAST_LOC.VALID (04 Table 4-9). -/
def BNK_ECC_LAST_LOC_VALID : Fld := ⟨0x110, 0x0, 31, 1⟩
/-- BNK ECC_LAST_SYND.SYND (04 Table 4-9). -/
def BNK_ECC_LAST_SYND_SYND : Fld := ⟨0x114, 0x0, 0, 8⟩
/-- BNK ECC_INJECT.BANK (04 Table 4-9, R173). -/
def BNK_ECC_INJECT_BANK : Fld := ⟨0x118, 0x0, 0, 6⟩
/-- BNK ECC_INJECT.GRANULE (04 Table 4-9, R173). -/
def BNK_ECC_INJECT_GRANULE : Fld := ⟨0x118, 0x0, 6, 3⟩
/-- BNK ECC_INJECT.BIT1 (04 Table 4-9, R173). -/
def BNK_ECC_INJECT_BIT1 : Fld := ⟨0x118, 0x0, 9, 7⟩
/-- BNK ECC_INJECT.BIT2 (04 Table 4-9, R173). -/
def BNK_ECC_INJECT_BIT2 : Fld := ⟨0x118, 0x0, 16, 7⟩
/-- BNK ECC_INJECT.POISON (04 Table 4-9, R173). -/
def BNK_ECC_INJECT_POISON : Fld := ⟨0x118, 0x0, 23, 1⟩
/-- BNK ECC_INJECT.ARM (04 Table 4-9, R173). -/
def BNK_ECC_INJECT_ARM : Fld := ⟨0x118, 0x0, 31, 1⟩
/-- BNK POISON_READ_COUNT.N (04 Table 4-9). -/
def BNK_POISON_READ_COUNT : Fld := ⟨0x11C, 0x0, 0, 32⟩
/-- BNK POISON_WRITE_COUNT.N (04 Table 4-9). -/
def BNK_POISON_WRITE_COUNT : Fld := ⟨0x120, 0x0, 0, 32⟩
/-- BNK ATOMIC_COUNT.N (04 Table 4-9). -/
def BNK_ATOMIC_COUNT : Fld := ⟨0x124, 0x0, 0, 32⟩
/-- BNK CE_COUNT.N (04 Table 4-9). -/
def BNK_CE_COUNT : Fld := ⟨0x200, 0x4, 0, 32⟩
/-- BNK UE_COUNT.N (04 Table 4-9). -/
def BNK_UE_COUNT : Fld := ⟨0x300, 0x4, 0, 16⟩
/-- TNK TNK_CTRL.EN (04 Table 4-11). -/
def TNK_TNK_CTRL_EN : Fld := ⟨0x100, 0x0, 0, 1⟩
/-- TNK TNK_CTRL.AUTO_REPAIR (04 Table 4-11). -/
def TNK_TNK_CTRL_AUTO_REPAIR : Fld := ⟨0x100, 0x0, 1, 1⟩
/-- TNK TNK_CTRL.CLASS (04 Table 4-11). -/
def TNK_TNK_CTRL_CLASS : Fld := ⟨0x100, 0x0, 4, 3⟩
/-- TNK TNK_INTERVAL.US (04 Table 4-12). -/
def TNK_TNK_INTERVAL_US : Fld := ⟨0x104, 0x0, 0, 16⟩
/-- TNK TNK_TARGET.BANK (04 R161, R163). -/
def TNK_TNK_TARGET_BANK : Fld := ⟨0x108, 0x0, 0, 6⟩
/-- TNK TNK_TARGET.REGION (04 R161, R163). -/
def TNK_TNK_TARGET_REGION : Fld := ⟨0x108, 0x0, 6, 6⟩
/-- TNK TNK_STATUS.PHASE (04 Table 4-12). -/
def TNK_TNK_STATUS_PHASE : Fld := ⟨0x10C, 0x0, 0, 3⟩
/-- TNK TNK_STATUS.BANK (04 Table 4-12). -/
def TNK_TNK_STATUS_BANK : Fld := ⟨0x10C, 0x0, 3, 6⟩
/-- TNK TNK_STATUS.REGION (04 Table 4-12). -/
def TNK_TNK_STATUS_REGION : Fld := ⟨0x10C, 0x0, 9, 6⟩
/-- TNK TNK_STATUS.DEPTH (04 Table 4-12). -/
def TNK_TNK_STATUS_DEPTH : Fld := ⟨0x10C, 0x0, 15, 3⟩
/-- TNK TNK_STATUS.BG55 (04 Table 4-12). -/
def TNK_TNK_STATUS_BG55 : Fld := ⟨0x10C, 0x0, 18, 1⟩
/-- TNK SWEEP_COUNT.N (04 Table 4-12). -/
def TNK_SWEEP_COUNT : Fld := ⟨0x110, 0x0, 0, 32⟩
/-- TNK REPAIR_COUNT.N (04 Table 4-12). -/
def TNK_REPAIR_COUNT : Fld := ⟨0x114, 0x0, 0, 16⟩
/-- TNK MARCH_TRANSIENT.N (04 Table 4-12). -/
def TNK_MARCH_TRANSIENT : Fld := ⟨0x118, 0x0, 0, 16⟩
/-- TNK TNK_REPAIR_LAST.BANK (04 Table 4-12). -/
def TNK_TNK_REPAIR_LAST_BANK : Fld := ⟨0x11C, 0x0, 0, 6⟩
/-- TNK TNK_REPAIR_LAST.LINE (04 Table 4-12). -/
def TNK_TNK_REPAIR_LAST_LINE : Fld := ⟨0x11C, 0x0, 6, 12⟩
/-- TNK TNK_REPAIR_LAST.SLOT (04 Table 4-12). -/
def TNK_TNK_REPAIR_LAST_SLOT : Fld := ⟨0x11C, 0x0, 18, 5⟩
/-- TNK TNK_REPAIR_LAST.REPAIRED (04 Table 4-12). -/
def TNK_TNK_REPAIR_LAST_REPAIRED : Fld := ⟨0x11C, 0x0, 23, 1⟩
/-- TNK TNK_REPAIR_LAST.VALID (04 Table 4-12). -/
def TNK_TNK_REPAIR_LAST_VALID : Fld := ⟨0x11C, 0x0, 31, 1⟩
/-- TNK SPARE_INDEX.BANK (04 Table 4-12). -/
def TNK_SPARE_INDEX_BANK : Fld := ⟨0x120, 0x0, 0, 6⟩
/-- TNK SPARE_INDEX.SLOT (04 Table 4-12). -/
def TNK_SPARE_INDEX_SLOT : Fld := ⟨0x120, 0x0, 6, 5⟩
/-- TNK SPARE_ENTRY.LINE (04 R178, Table 4-12). -/
def TNK_SPARE_ENTRY_LINE : Fld := ⟨0x124, 0x0, 0, 12⟩
/-- TNK SPARE_ENTRY.VALID (04 R178, Table 4-12). -/
def TNK_SPARE_ENTRY_VALID : Fld := ⟨0x124, 0x0, 12, 1⟩
/-- TNK SPARE_ENTRY.FACTORY (04 R178, Table 4-12). -/
def TNK_SPARE_ENTRY_FACTORY : Fld := ⟨0x124, 0x0, 13, 1⟩
/-- TNK SPARE_ENTRY.FAILED (04 R178, Table 4-12). -/
def TNK_SPARE_ENTRY_FAILED : Fld := ⟨0x124, 0x0, 14, 1⟩
/-- ARB ARB_CTRL.ADAPT (05 R200, R217). -/
def ARB_ARB_CTRL_ADAPT : Fld := ⟨0x100, 0x0, 0, 1⟩
/-- ARB ARB_CTRL.RESEED (05 R200, R217). -/
def ARB_ARB_CTRL_RESEED : Fld := ⟨0x100, 0x0, 1, 1⟩
/-- ARB REG_WINDOW.US (05 Table 5-8). -/
def ARB_REG_WINDOW_US : Fld := ⟨0x104, 0x0, 0, 16⟩
/-- ARB ADAPT_CFG.STEP (05 Table 5-8). -/
def ARB_ADAPT_CFG_STEP : Fld := ⟨0x108, 0x0, 0, 4⟩
/-- ARB ADAPT_CFG.RELAX (05 Table 5-8). -/
def ARB_ADAPT_CFG_RELAX : Fld := ⟨0x108, 0x0, 8, 4⟩
/-- ARB SEED_POS.POS (05 R185). -/
def ARB_SEED_POS_POS : Fld := ⟨0x10C, 0x0, 0, 32⟩
/-- ARB SAT_CTRL.SAT_AFTER (05 R209). -/
def ARB_SAT_CTRL_SAT_AFTER : Fld := ⟨0x110, 0x0, 0, 16⟩
/-- ARB SAT_CTRL.SAT_CLEAR (05 R209). -/
def ARB_SAT_CTRL_SAT_CLEAR : Fld := ⟨0x110, 0x0, 16, 16⟩
/-- ARB URG_CTRL.CRIT_WARN (05 R220). -/
def ARB_URG_CTRL_CRIT_WARN : Fld := ⟨0x114, 0x0, 0, 16⟩
/-- ARB URG_CTRL.MASK (05 R220). -/
def ARB_URG_CTRL_MASK : Fld := ⟨0x114, 0x0, 16, 2⟩
/-- ARB URG_STATE.LEVEL (05 R191). -/
def ARB_URG_STATE_LEVEL : Fld := ⟨0x118, 0x0, 0, 4⟩
/-- ARB CLASS_SHARE.MIN (05 R193). -/
def ARB_CLASS_SHARE_MIN : Fld := ⟨0x120, 0x4, 0, 7⟩
/-- ARB CLASS_SHARE.CEIL (05 R193). -/
def ARB_CLASS_SHARE_CEIL : Fld := ⟨0x120, 0x4, 8, 7⟩
/-- ARB TICKETS_LOCAL.BASE (05 R225). -/
def ARB_TICKETS_LOCAL_BASE : Fld := ⟨0x140, 0x4, 0, 6⟩
/-- ARB TICKETS_LOCAL.TMIN (05 R225). -/
def ARB_TICKETS_LOCAL_TMIN : Fld := ⟨0x140, 0x4, 8, 6⟩
/-- ARB TICKETS_LOCAL.TMAX (05 R225). -/
def ARB_TICKETS_LOCAL_TMAX : Fld := ⟨0x140, 0x4, 16, 6⟩
/-- ARB TICKETS_LOCAL.LIVE (05 R225). -/
def ARB_TICKETS_LOCAL_LIVE : Fld := ⟨0x140, 0x4, 24, 6⟩
/-- ARB TICKETS_STAIR.BASE (05 R225). -/
def ARB_TICKETS_STAIR_BASE : Fld := ⟨0x160, 0x4, 0, 6⟩
/-- ARB TICKETS_STAIR.TMIN (05 R225). -/
def ARB_TICKETS_STAIR_TMIN : Fld := ⟨0x160, 0x4, 8, 6⟩
/-- ARB TICKETS_STAIR.TMAX (05 R225). -/
def ARB_TICKETS_STAIR_TMAX : Fld := ⟨0x160, 0x4, 16, 6⟩
/-- ARB TICKETS_STAIR.LIVE (05 R225). -/
def ARB_TICKETS_STAIR_LIVE : Fld := ⟨0x160, 0x4, 24, 6⟩
/-- ARB TICKETS_STACK.BASE (05 R225). -/
def ARB_TICKETS_STACK_BASE : Fld := ⟨0x180, 0x4, 0, 6⟩
/-- ARB TICKETS_STACK.TMIN (05 R225). -/
def ARB_TICKETS_STACK_TMIN : Fld := ⟨0x180, 0x4, 8, 6⟩
/-- ARB TICKETS_STACK.TMAX (05 R225). -/
def ARB_TICKETS_STACK_TMAX : Fld := ⟨0x180, 0x4, 16, 6⟩
/-- ARB TICKETS_STACK.LIVE (05 R225). -/
def ARB_TICKETS_STACK_LIVE : Fld := ⟨0x180, 0x4, 24, 6⟩
/-- ARB CLASS_STATE.SATURATED (05 Table 5-8). -/
def ARB_CLASS_STATE_SATURATED : Fld := ⟨0x1A0, 0x0, 0, 8⟩
/-- ARB CLASS_STATE.DEPRIVED (05 Table 5-8). -/
def ARB_CLASS_STATE_DEPRIVED : Fld := ⟨0x1A0, 0x0, 8, 8⟩
/-- ARB CLASS_STATE.HELD (05 Table 5-8). -/
def ARB_CLASS_STATE_HELD : Fld := ⟨0x1A0, 0x0, 16, 8⟩
/-- ARB PACE_CTRL.ENFORCE (05 Table 5-10). -/
def ARB_PACE_CTRL_ENFORCE : Fld := ⟨0x1B0, 0x0, 0, 1⟩
/-- ARB PACE_CTRL.FLOOR (05 Table 5-10). -/
def ARB_PACE_CTRL_FLOOR : Fld := ⟨0x1B0, 0x0, 4, 12⟩
/-- ARB PACE_CTRL.HEADROOM (05 Table 5-10). -/
def ARB_PACE_CTRL_HEADROOM : Fld := ⟨0x1B0, 0x0, 16, 8⟩
/-- ARB PACE_CTRL.BURST (05 Table 5-10). -/
def ARB_PACE_CTRL_BURST : Fld := ⟨0x1B0, 0x0, 24, 8⟩
/-- ARB PACE_LAST.RD (05 R206). -/
def ARB_PACE_LAST_RD : Fld := ⟨0x1B4, 0x4, 0, 12⟩
/-- ARB PACE_LAST.WR (05 R206). -/
def ARB_PACE_LAST_WR : Fld := ⟨0x1B4, 0x4, 16, 12⟩
/-- ARB PACE_SHORT.N (05 R206). -/
def ARB_PACE_SHORT : Fld := ⟨0x1BC, 0x4, 0, 32⟩
/-- ARB BYTES_LOCAL.LO (05 R198). -/
def ARB_BYTES_LOCAL : Fld := ⟨0x200, 0x8, 0, 32⟩
/-- ARB BYTES_STAIR.LO (05 R198). -/
def ARB_BYTES_STAIR : Fld := ⟨0x240, 0x8, 0, 32⟩
/-- ARB BYTES_STACK.LO (05 R198). -/
def ARB_BYTES_STACK : Fld := ⟨0x280, 0x8, 0, 32⟩
/-- ARB WIN_LINES_LOCAL.N (05 R198). -/
def ARB_WIN_LINES_LOCAL : Fld := ⟨0x300, 0x4, 0, 32⟩
/-- ARB WIN_LINES_STAIR.N (05 R198). -/
def ARB_WIN_LINES_STAIR : Fld := ⟨0x320, 0x4, 0, 32⟩
/-- ARB WIN_LINES_STACK.N (05 R198). -/
def ARB_WIN_LINES_STACK : Fld := ⟨0x340, 0x4, 0, 32⟩
/-- ARB WIN_SEQ.N (05 R198). -/
def ARB_WIN_SEQ : Fld := ⟨0x360, 0x0, 0, 32⟩
/-- ARB HELD.N (05 R196). -/
def ARB_HELD : Fld := ⟨0x380, 0x4, 0, 32⟩
/-- ARB DEAD_TURNS.N (05 R187). -/
def ARB_DEAD_TURNS : Fld := ⟨0x3A0, 0x0, 0, 32⟩
/-- ARB EMERG_CUTS.N (05 R188). -/
def ARB_EMERG_CUTS : Fld := ⟨0x3A4, 0x0, 0, 32⟩
/-- MOD MOD_CTRL.ENABLE (06 Table 6-14). -/
def MOD_MOD_CTRL_ENABLE : Fld := ⟨0x100, 0x0, 0, 1⟩
/-- MOD MOD_CTRL.MAX_RATE (06 Table 6-14). -/
def MOD_MOD_CTRL_MAX_RATE : Fld := ⟨0x100, 0x0, 1, 2⟩
/-- MOD MOD_CTRL.TEST (06 Table 6-14). -/
def MOD_MOD_CTRL_TEST : Fld := ⟨0x100, 0x0, 3, 1⟩
/-- MOD MOD_CTRL.RESET (06 Table 6-14). -/
def MOD_MOD_CTRL_RESET : Fld := ⟨0x100, 0x0, 4, 1⟩
/-- MOD MOD_STATUS.STATE (06 Table 6-14, 19 R761). -/
def MOD_MOD_STATUS_STATE : Fld := ⟨0x104, 0x0, 0, 3⟩
/-- MOD MOD_STATUS.RATE (06 Table 6-14, 19 R761). -/
def MOD_MOD_STATUS_RATE : Fld := ⟨0x104, 0x0, 4, 2⟩
/-- MOD MOD_STATUS.REPAIRED_LANES (06 Table 6-14, 19 R761). -/
def MOD_MOD_STATUS_REPAIRED_LANES : Fld := ⟨0x104, 0x0, 8, 4⟩
/-- MOD MOD_STATUS.TWIN (06 Table 6-14, 19 R761). -/
def MOD_MOD_STATUS_TWIN : Fld := ⟨0x104, 0x0, 12, 1⟩
/-- MOD PORT_AUTH.MASK (06 R265). -/
def MOD_PORT_AUTH_MASK : Fld := ⟨0x108, 0x0, 0, 16⟩
/-- MOD VC_MAP.MAP (06 Table 6-15). -/
def MOD_VC_MAP_MAP : Fld := ⟨0x10C, 0x0, 0, 24⟩
/-- MOD STALL_CTRL.STALL_WARN (06 R273, R274). -/
def MOD_STALL_CTRL_STALL_WARN : Fld := ⟨0x110, 0x0, 0, 16⟩
/-- MOD STALL_CTRL.ABANDON (06 R273, R274). -/
def MOD_STALL_CTRL_ABANDON : Fld := ⟨0x110, 0x0, 16, 16⟩
/-- MOD RSP_TIMEOUT.US (06 R275). -/
def MOD_RSP_TIMEOUT_US : Fld := ⟨0x114, 0x0, 0, 16⟩
/-- MOD STALL_STATE.STALLED (06 R272, R273). -/
def MOD_STALL_STATE_STALLED : Fld := ⟨0x118, 0x0, 0, 8⟩
/-- MOD STALL_STATE.WARNED (06 R272, R273). -/
def MOD_STALL_STATE_WARNED : Fld := ⟨0x118, 0x0, 8, 8⟩
/-- MOD ABANDON_LAST.QUEUE (06 R274). -/
def MOD_ABANDON_LAST_QUEUE : Fld := ⟨0x11C, 0x0, 0, 7⟩
/-- MOD ABANDON_LAST.VC (06 R274). -/
def MOD_ABANDON_LAST_VC : Fld := ⟨0x11C, 0x0, 8, 3⟩
/-- MOD ABANDON_LAST.VALID (06 R274). -/
def MOD_ABANDON_LAST_VALID : Fld := ⟨0x11C, 0x0, 31, 1⟩
/-- MOD ABANDON_BYTES_LO.N (06 R274). -/
def MOD_ABANDON_BYTES_LO : Fld := ⟨0x120, 0x0, 0, 32⟩
/-- MOD ABANDON_BYTES_HI.N (06 R274). -/
def MOD_ABANDON_BYTES_HI : Fld := ⟨0x124, 0x0, 0, 32⟩
/-- MOD PROTO_LAST.CODE (06 R271). -/
def MOD_PROTO_LAST_CODE : Fld := ⟨0x128, 0x0, 0, 4⟩
/-- MOD PROTO_LAST.OPC (06 R271). -/
def MOD_PROTO_LAST_OPC : Fld := ⟨0x128, 0x0, 8, 8⟩
/-- MOD PROTO_LAST.SLOT (06 R271). -/
def MOD_PROTO_LAST_SLOT : Fld := ⟨0x128, 0x0, 16, 4⟩
/-- MOD PROTO_LAST.SEQ (06 R271). -/
def MOD_PROTO_LAST_SEQ : Fld := ⟨0x128, 0x0, 20, 12⟩
/-- MOD TAGS.REQS (06 Table 6-15). -/
def MOD_TAGS_REQS : Fld := ⟨0x12C, 0x0, 0, 10⟩
/-- MOD TAGS.SRDS (06 Table 6-15). -/
def MOD_TAGS_SRDS : Fld := ⟨0x12C, 0x0, 16, 10⟩
/-- MOD TAGS_QUARANTINED.N (06 R275). -/
def MOD_TAGS_QUARANTINED : Fld := ⟨0x130, 0x0, 0, 10⟩
/-- MOD CRED_HDR.REQ (06 Table 6-15). -/
def MOD_CRED_HDR_REQ : Fld := ⟨0x140, 0x8, 0, 8⟩
/-- MOD CRED_HDR.RSP (06 Table 6-15). -/
def MOD_CRED_HDR_RSP : Fld := ⟨0x140, 0x8, 8, 8⟩
/-- MOD CRED_HDR.MSG (06 Table 6-15). -/
def MOD_CRED_HDR_MSG : Fld := ⟨0x140, 0x8, 16, 8⟩
/-- MOD CRED_DAT.DAT (06 Table 6-15). -/
def MOD_CRED_DAT_DAT : Fld := ⟨0x144, 0x8, 0, 12⟩
/-- MOD FLITS_TX.LO (06 Table 6-15). -/
def MOD_FLITS_TX : Fld := ⟨0x200, 0x0, 0, 32⟩
/-- MOD FLITS_RX.LO (06 Table 6-15). -/
def MOD_FLITS_RX : Fld := ⟨0x208, 0x0, 0, 32⟩
/-- MOD CRC_ERR_COUNT.N (06 R234, R236). -/
def MOD_CRC_ERR_COUNT : Fld := ⟨0x210, 0x0, 0, 32⟩
/-- MOD REPLAYS.N (06 R235). -/
def MOD_REPLAYS : Fld := ⟨0x214, 0x0, 0, 32⟩
/-- MOD RETRAINS.N (06 R237). -/
def MOD_RETRAINS : Fld := ⟨0x218, 0x0, 0, 16⟩
/-- MOD DENIED_COUNT.N (06 R260). -/
def MOD_DENIED_COUNT : Fld := ⟨0x21C, 0x0, 0, 32⟩
/-- MOD EVT_REFUSED.N (06 R259). -/
def MOD_EVT_REFUSED : Fld := ⟨0x220, 0x0, 0, 32⟩
/-- MOD LATE_RSP.N (06 R275). -/
def MOD_LATE_RSP : Fld := ⟨0x224, 0x0, 0, 16⟩
/-- VTC INT_ROUTE.PRIMARY (06 R257). -/
def VTC_INT_ROUTE_PRIMARY : Fld := ⟨0x100, 0x4, 0, 4⟩
/-- VTC INT_ROUTE.ALTERNATE (06 R257). -/
def VTC_INT_ROUTE_ALTERNATE : Fld := ⟨0x100, 0x4, 4, 4⟩
/-- VTC INT_ROUTE.EN (06 R257). -/
def VTC_INT_ROUTE_EN : Fld := ⟨0x100, 0x4, 8, 1⟩
/-- VTC INT_UNROUTED.N (06 R257). -/
def VTC_INT_UNROUTED : Fld := ⟨0x140, 0x0, 0, 32⟩
/-- HC HC_CTRL.MAX_RATE (07 Table 7-7). -/
def HC_HC_CTRL_MAX_RATE : Fld := ⟨0x100, 0x0, 0, 2⟩
/-- HC HC_CTRL.SCRUB_ON_READ (07 Table 7-7). -/
def HC_HC_CTRL_SCRUB_ON_READ : Fld := ⟨0x100, 0x0, 2, 1⟩
/-- HC HC_CTRL.PATROL_EN (07 Table 7-7). -/
def HC_HC_CTRL_PATROL_EN : Fld := ⟨0x100, 0x0, 3, 1⟩
/-- HC HC_CTRL.PD_EN (07 Table 7-7). -/
def HC_HC_CTRL_PD_EN : Fld := ⟨0x100, 0x0, 4, 1⟩
/-- HC HC_CTRL.RETRAIN (07 Table 7-7). -/
def HC_HC_CTRL_RETRAIN : Fld := ⟨0x100, 0x0, 8, 1⟩
/-- HC HC_CTRL.CLEAR (07 Table 7-7). -/
def HC_HC_CTRL_CLEAR : Fld := ⟨0x100, 0x0, 9, 1⟩
/-- HC HC_MAP.HASH (07 R283). -/
def HC_HC_MAP_HASH : Fld := ⟨0x104, 0x0, 0, 1⟩
/-- HC HC_SCHED.HIT_RUN (07 R286, R287, R298). -/
def HC_HC_SCHED_HIT_RUN : Fld := ⟨0x108, 0x0, 0, 4⟩
/-- HC HC_SCHED.ROW_IDLE (07 R286, R287, R298). -/
def HC_HC_SCHED_ROW_IDLE : Fld := ⟨0x108, 0x0, 4, 10⟩
/-- HC HC_SCHED.PD_IDLE (07 R286, R287, R298). -/
def HC_HC_SCHED_PD_IDLE : Fld := ⟨0x108, 0x0, 16, 16⟩
/-- HC HC_PATROL.RATE (07 R294). -/
def HC_HC_PATROL_RATE : Fld := ⟨0x10C, 0x0, 0, 8⟩
/-- HC HC_PATROL.CLASS (07 R294). -/
def HC_HC_PATROL_CLASS : Fld := ⟨0x10C, 0x0, 8, 3⟩
/-- HC HC_STATUS.STATE (07 Table 7-7). -/
def HC_HC_STATUS_STATE : Fld := ⟨0x110, 0x0, 0, 3⟩
/-- HC HC_STATUS.RATE (07 Table 7-7). -/
def HC_HC_STATUS_RATE : Fld := ⟨0x110, 0x0, 4, 2⟩
/-- HC HC_STATUS.SIDS (07 Table 7-7). -/
def HC_HC_STATUS_SIDS : Fld := ⟨0x110, 0x0, 6, 2⟩
/-- HC HC_STATUS.CLEARING (07 Table 7-7). -/
def HC_HC_STATUS_CLEARING : Fld := ⟨0x110, 0x0, 8, 1⟩
/-- HC HC_STATUS.REPAIRED_LANES (07 Table 7-7). -/
def HC_HC_STATUS_REPAIRED_LANES : Fld := ⟨0x110, 0x0, 16, 8⟩
/-- HC HC_TEMP.TEMP (07 R297, R312). -/
def HC_HC_TEMP_TEMP : Fld := ⟨0x114, 0x0, 0, 8⟩
/-- HC HC_TEMP.REF_MULT (07 R297, R312). -/
def HC_HC_TEMP_REF_MULT : Fld := ⟨0x114, 0x0, 8, 3⟩
/-- HC HC_TEMP.VALID (07 R297, R312). -/
def HC_HC_TEMP_VALID : Fld := ⟨0x114, 0x0, 31, 1⟩
/-- HC HC_TEMP_LIMIT.LIMIT (07 R312). -/
def HC_HC_TEMP_LIMIT_LIMIT : Fld := ⟨0x118, 0x0, 0, 8⟩
/-- HC HC_QUEUE.HELD (07 Table 7-7). -/
def HC_HC_QUEUE_HELD : Fld := ⟨0x11C, 0x0, 0, 12⟩
/-- HC HC_QUEUE.STEWARD (07 Table 7-7). -/
def HC_HC_QUEUE_STEWARD : Fld := ⟨0x11C, 0x0, 16, 3⟩
/-- HC HC_ECC_LAST_LO.A (07 Table 7-7). -/
def HC_HC_ECC_LAST_LO_A : Fld := ⟨0x120, 0x0, 0, 32⟩
/-- HC HC_ECC_LAST_HI.A (07 Table 7-7). -/
def HC_HC_ECC_LAST_HI_A : Fld := ⟨0x124, 0x0, 0, 4⟩
/-- HC HC_ECC_LAST_HI.GRANULE (07 Table 7-7). -/
def HC_HC_ECC_LAST_HI_GRANULE : Fld := ⟨0x124, 0x0, 8, 3⟩
/-- HC HC_ECC_LAST_HI.SYND (07 Table 7-7). -/
def HC_HC_ECC_LAST_HI_SYND : Fld := ⟨0x124, 0x0, 16, 8⟩
/-- HC HC_ECC_LAST_HI.SEV_UE (07 Table 7-7). -/
def HC_HC_ECC_LAST_HI_SEV_UE : Fld := ⟨0x124, 0x0, 24, 1⟩
/-- HC HC_ECC_LAST_HI.VALID (07 Table 7-7). -/
def HC_HC_ECC_LAST_HI_VALID : Fld := ⟨0x124, 0x0, 31, 1⟩
/-- HC HC_INJECT.CHANNEL (07 Table 7-7). -/
def HC_HC_INJECT_CHANNEL : Fld := ⟨0x128, 0x0, 0, 5⟩
/-- HC HC_INJECT.PC (07 Table 7-7). -/
def HC_HC_INJECT_PC : Fld := ⟨0x128, 0x0, 5, 1⟩
/-- HC HC_INJECT.GRANULE (07 Table 7-7). -/
def HC_HC_INJECT_GRANULE : Fld := ⟨0x128, 0x0, 6, 3⟩
/-- HC HC_INJECT.BIT1 (07 Table 7-7). -/
def HC_HC_INJECT_BIT1 : Fld := ⟨0x128, 0x0, 9, 7⟩
/-- HC HC_INJECT.BIT2 (07 Table 7-7). -/
def HC_HC_INJECT_BIT2 : Fld := ⟨0x128, 0x0, 16, 7⟩
/-- HC HC_INJECT.POISON (07 Table 7-7). -/
def HC_HC_INJECT_POISON : Fld := ⟨0x128, 0x0, 23, 1⟩
/-- HC HC_INJECT.ARM (07 Table 7-7). -/
def HC_HC_INJECT_ARM : Fld := ⟨0x128, 0x0, 31, 1⟩
/-- HC PATROL_POS_LO.A (07 R294). -/
def HC_PATROL_POS_LO_A : Fld := ⟨0x12C, 0x0, 0, 32⟩
/-- HC PATROL_POS_HI.A (07 R294). -/
def HC_PATROL_POS_HI_A : Fld := ⟨0x130, 0x0, 0, 32⟩
/-- HC RD_LINES.LO (07 R320). -/
def HC_RD_LINES : Fld := ⟨0x200, 0x0, 0, 32⟩
/-- HC WR_LINES.LO (07 R320). -/
def HC_WR_LINES : Fld := ⟨0x208, 0x0, 0, 32⟩
/-- HC ROW_HITS.LO (07 R320). -/
def HC_ROW_HITS : Fld := ⟨0x210, 0x0, 0, 32⟩
/-- HC REFRESHES.LO (07 R320). -/
def HC_REFRESHES : Fld := ⟨0x218, 0x0, 0, 32⟩
/-- HC CE_COUNT.N (07 R320). -/
def HC_CE_COUNT : Fld := ⟨0x220, 0x0, 0, 32⟩
/-- HC UE_COUNT.N (07 R320). -/
def HC_UE_COUNT : Fld := ⟨0x224, 0x0, 0, 16⟩
/-- HC SEV_CE.N (07 R320). -/
def HC_SEV_CE : Fld := ⟨0x228, 0x0, 0, 32⟩
/-- HC SEV_UE.N (07 R320). -/
def HC_SEV_UE : Fld := ⟨0x22C, 0x0, 0, 16⟩
/-- HC CA_PARITY_COUNT.N (07 R309). -/
def HC_CA_PARITY_COUNT : Fld := ⟨0x230, 0x0, 0, 16⟩
/-- HC WR_PARITY_COUNT.N (07 R309). -/
def HC_WR_PARITY_COUNT : Fld := ⟨0x234, 0x0, 0, 16⟩
/-- HC CHAN_RETRAINS.N (07 R310). -/
def HC_CHAN_RETRAINS : Fld := ⟨0x238, 0x0, 0, 16⟩
/-- HC RFM_COUNT.N (07 R296). -/
def HC_RFM_COUNT : Fld := ⟨0x23C, 0x0, 0, 32⟩
/-- HC RMW_COUNT.N (07 R289). -/
def HC_RMW_COUNT : Fld := ⟨0x240, 0x0, 0, 32⟩
/-- HC PATROL_SWEEPS.N (07 R294). -/
def HC_PATROL_SWEEPS : Fld := ⟨0x244, 0x0, 0, 16⟩
/-- ENG QUEUE_CFG.EN (09 Table 9-4). -/
def ENG_QUEUE_CFG_EN : Fld := ⟨0x100, 0x8, 0, 1⟩
/-- ENG QUEUE_CFG.CTX (09 Table 9-4). -/
def ENG_QUEUE_CFG_CTX : Fld := ⟨0x100, 0x8, 4, 4⟩
/-- ENG QUEUE_CFG.STAGE_BLOCKS (09 Table 9-4). -/
def ENG_QUEUE_CFG_STAGE_BLOCKS : Fld := ⟨0x100, 0x8, 8, 3⟩
/-- ENG QUEUE_CFG.SERIAL (09 Table 9-4). -/
def ENG_QUEUE_CFG_SERIAL : Fld := ⟨0x100, 0x8, 11, 1⟩
/-- ENG QUEUE_STAGE.BASE (09 R391). -/
def ENG_QUEUE_STAGE_BASE : Fld := ⟨0x104, 0x8, 12, 15⟩
/-- ENG QUEUE_LIM.DESC_LIMIT (09 Table 9-4). -/
def ENG_QUEUE_LIM_DESC_LIMIT : Fld := ⟨0x140, 0x4, 0, 4⟩
/-- ENG QUEUE_LIM.LINE_LIMIT (09 Table 9-4). -/
def ENG_QUEUE_LIM_LINE_LIMIT : Fld := ⟨0x140, 0x4, 8, 8⟩
/-- ENG ENG_STATUS.SLOTS (09 Table 9-4). -/
def ENG_ENG_STATUS_SLOTS : Fld := ⟨0x160, 0x0, 0, 4⟩
/-- ENG ENG_STATUS.TOKENS (09 Table 9-4). -/
def ENG_ENG_STATUS_TOKENS : Fld := ⟨0x160, 0x0, 4, 6⟩
/-- ENG ENG_STATUS.LINES (09 Table 9-4). -/
def ENG_ENG_STATUS_LINES : Fld := ⟨0x160, 0x0, 16, 9⟩
/-- ENG LINES_IN.LO (09 Table 9-5). -/
def ENG_LINES_IN : Fld := ⟨0x200, 0x0, 0, 32⟩
/-- ENG LINES_OUT.LO (09 Table 9-5). -/
def ENG_LINES_OUT : Fld := ⟨0x208, 0x0, 0, 32⟩
/-- ENG LINES_STAGED.LO (09 Table 9-5). -/
def ENG_LINES_STAGED : Fld := ⟨0x210, 0x0, 0, 32⟩
/-- ENG DESC_ENDED.N (09 Table 9-5). -/
def ENG_DESC_ENDED : Fld := ⟨0x218, 0x0, 0, 32⟩
/-- ENG DESC_ERRORS.N (09 Table 9-5). -/
def ENG_DESC_ERRORS : Fld := ⟨0x21C, 0x0, 0, 32⟩
/-- ENG FAULTS.N (09 Table 9-5). -/
def ENG_FAULTS : Fld := ⟨0x220, 0x0, 0, 32⟩
/-- ENG NAN_OUT.N (08 R794). -/
def ENG_NAN_OUT : Fld := ⟨0x224, 0x0, 0, 32⟩
/-- ENG OVERFLOW.N (08 R794). -/
def ENG_OVERFLOW : Fld := ⟨0x228, 0x0, 0, 32⟩
/-- ENG POISONED_ELEMS.N (09 Table 9-5). -/
def ENG_POISONED_ELEMS : Fld := ⟨0x22C, 0x0, 0, 32⟩
/-- ENG ISSUE_HELD.N (09 R374). -/
def ENG_ISSUE_HELD : Fld := ⟨0x230, 0x0, 0, 32⟩
/-- ENG MIXER_WAIT.N (09 R373). -/
def ENG_MIXER_WAIT : Fld := ⟨0x234, 0x0, 0, 32⟩
/-- ERP CMB_CTRL.EN (09 Table 9-8). -/
def ERP_CMB_CTRL_EN : Fld := ⟨0x100, 0x0, 0, 1⟩
/-- ERP CMB_CTRL.MERGE_CTX (09 Table 9-8). -/
def ERP_CMB_CTRL_MERGE_CTX : Fld := ⟨0x100, 0x0, 16, 16⟩
/-- ERP ERP_STATUS.ENTRIES (09 Table 9-8). -/
def ERP_ERP_STATUS_ENTRIES : Fld := ⟨0x104, 0x0, 0, 6⟩
/-- ERP ERP_STATUS.OPEN (09 Table 9-8). -/
def ERP_ERP_STATUS_OPEN : Fld := ⟨0x104, 0x0, 8, 5⟩
/-- ERP ERRANDS.LO (09 Table 9-8). -/
def ERP_ERRANDS : Fld := ⟨0x200, 0x0, 0, 32⟩
/-- ERP ABSORBED.N (09 Table 9-8). -/
def ERP_ABSORBED : Fld := ⟨0x208, 0x0, 0, 32⟩
/-- ERP WRITEOUTS.N (09 Table 9-8). -/
def ERP_WRITEOUTS : Fld := ⟨0x20C, 0x0, 0, 32⟩
/-- ERP FORCED_CLOSE.N (09 R390). -/
def ERP_FORCED_CLOSE : Fld := ⟨0x210, 0x0, 0, 32⟩
/-- ERP CMB_FULL.N (09 Table 9-8). -/
def ERP_CMB_FULL : Fld := ⟨0x214, 0x0, 0, 32⟩
/-- FMN RING_SLOT.RING (10 Table 10-7). -/
def FMN_RING_SLOT_RING : Fld := ⟨0x100, 0x10, 0, 6⟩
/-- FMN RING_SLOT.EN (10 Table 10-7). -/
def FMN_RING_SLOT_EN : Fld := ⟨0x100, 0x10, 6, 1⟩
/-- FMN RING_SLOT.CLASS (10 Table 10-7). -/
def FMN_RING_SLOT_CLASS : Fld := ⟨0x100, 0x10, 7, 3⟩
/-- FMN RING_SLOT.LOG2SIZE (10 Table 10-7). -/
def FMN_RING_SLOT_LOG2SIZE : Fld := ⟨0x100, 0x10, 10, 4⟩
/-- FMN RING_SLOT.ERR_STOP (10 Table 10-7). -/
def FMN_RING_SLOT_ERR_STOP : Fld := ⟨0x100, 0x10, 14, 1⟩
/-- FMN RING_BASE_LO.BASE (10 Table 10-7). -/
def FMN_RING_BASE_LO_BASE : Fld := ⟨0x104, 0x10, 12, 20⟩
/-- FMN RING_BASE_HI.BASE (10 Table 10-7). -/
def FMN_RING_BASE_HI_BASE : Fld := ⟨0x108, 0x10, 0, 16⟩
/-- FMN RING_STATUS.STATE (10 Table 10-7). -/
def FMN_RING_STATUS_STATE : Fld := ⟨0x10C, 0x10, 0, 3⟩
/-- FMN RING_STATUS.PREFETCHED (10 Table 10-7). -/
def FMN_RING_STATUS_PREFETCHED : Fld := ⟨0x10C, 0x10, 4, 5⟩
/-- FMN RING_STATUS.INFLIGHT (10 Table 10-7). -/
def FMN_RING_STATUS_INFLIGHT : Fld := ⟨0x10C, 0x10, 16, 6⟩
/-- FMN SB_STATUS.USED (10 Table 10-7). -/
def FMN_SB_STATUS_USED : Fld := ⟨0x180, 0x0, 0, 7⟩
/-- FMN CMDS.LO (10 Table 10-7). -/
def FMN_CMDS : Fld := ⟨0x200, 0x0, 0, 32⟩
/-- FMN WAITER_FULL_COUNT.N (10 R437). -/
def FMN_WAITER_FULL_COUNT : Fld := ⟨0x208, 0x0, 0, 32⟩
/-- FMN SB_FULL_COUNT.N (10 R434). -/
def FMN_SB_FULL_COUNT : Fld := ⟨0x20C, 0x0, 0, 32⟩
/-- FMN SB_HELD.N (10 Table 10-7). -/
def FMN_SB_HELD : Fld := ⟨0x210, 0x0, 0, 32⟩
/-- FMN FLAGGED.N (10 R432, R418). -/
def FMN_FLAGGED : Fld := ⟨0x214, 0x0, 0, 32⟩
/-- FMN STOPS.N (10 Table 10-7). -/
def FMN_STOPS : Fld := ⟨0x218, 0x0, 0, 32⟩
/-- MIX MIX_CTRL.RETURN (12 R528). -/
def MIX_MIX_CTRL_RETURN : Fld := ⟨0x100, 0x0, 0, 8⟩
/-- MIX MIX_STATUS.IN_SERVICE (12 R526, R530). -/
def MIX_MIX_STATUS_IN_SERVICE : Fld := ⟨0x104, 0x0, 0, 8⟩
/-- MIX MIX_STATUS.FAULTED (12 R526, R530). -/
def MIX_MIX_STATUS_FAULTED : Fld := ⟨0x104, 0x0, 8, 8⟩
/-- MIX CHK_KEY_LO.K0 (12 R519). -/
def MIX_CHK_KEY_LO_K0 : Fld := ⟨0x110, 0x0, 0, 32⟩
/-- MIX CHK_KEY_HI.K1 (12 R519). -/
def MIX_CHK_KEY_HI_K1 : Fld := ⟨0x114, 0x0, 0, 32⟩
/-- MIX CHK_STREAM.STREAM (12 R519). -/
def MIX_CHK_STREAM_STREAM : Fld := ⟨0x118, 0x0, 0, 32⟩
/-- MIX CHK_POS_LO.POS (12 R519). -/
def MIX_CHK_POS_LO_POS : Fld := ⟨0x11C, 0x0, 0, 32⟩
/-- MIX CHK_POS_HI.POS (12 R519). -/
def MIX_CHK_POS_HI_POS : Fld := ⟨0x120, 0x0, 0, 32⟩
/-- MIX CHK_CFG.PURPOSE (12 R519). -/
def MIX_CHK_CFG_PURPOSE : Fld := ⟨0x124, 0x0, 0, 8⟩
/-- MIX CHK_CFG.QUICK (12 R519). -/
def MIX_CHK_CFG_QUICK : Fld := ⟨0x124, 0x0, 8, 1⟩
/-- MIX CHK_CFG.USE_CTX (12 R519). -/
def MIX_CHK_CFG_USE_CTX : Fld := ⟨0x124, 0x0, 9, 1⟩
/-- MIX CHK_CFG.CTX (12 R519). -/
def MIX_CHK_CFG_CTX : Fld := ⟨0x124, 0x0, 10, 4⟩
/-- MIX CHK_CTRL.START (12 R519). -/
def MIX_CHK_CTRL_START : Fld := ⟨0x128, 0x0, 0, 1⟩
/-- MIX CHK_STATUS.BUSY (12 Table 12-7). -/
def MIX_CHK_STATUS_BUSY : Fld := ⟨0x12C, 0x0, 0, 1⟩
/-- MIX CHK_STATUS.DONE (12 Table 12-7). -/
def MIX_CHK_STATUS_DONE : Fld := ⟨0x12C, 0x0, 1, 1⟩
/-- MIX CHK_STATUS.SEQ (12 Table 12-7). -/
def MIX_CHK_STATUS_SEQ : Fld := ⟨0x12C, 0x0, 16, 16⟩
/-- MIX CHK_OUT.W (12 Table 12-7). -/
def MIX_CHK_OUT_W : Fld := ⟨0x130, 0x4, 0, 32⟩
/-- MIX CHK_ZT.Z (12 Table 12-7). -/
def MIX_CHK_ZT_Z : Fld := ⟨0x140, 0x4, 0, 32⟩
/-- MIX CHK_ZQ.Z (12 Table 12-7). -/
def MIX_CHK_ZQ_Z : Fld := ⟨0x150, 0x4, 0, 32⟩
/-- MIX NRM_TBL_IDX.INDEX (12 Table 12-7). -/
def MIX_NRM_TBL_IDX_INDEX : Fld := ⟨0x160, 0x0, 0, 11⟩
/-- MIX NRM_TBL_DATA.Q (12 Table 12-7). -/
def MIX_NRM_TBL_DATA_Q : Fld := ⟨0x164, 0x0, 0, 32⟩
/-- MIX BLOCKS.LO (12 Table 12-7). -/
def MIX_BLOCKS : Fld := ⟨0x200, 0x0, 0, 32⟩
/-- MIX FAULTS.N (12 R526). -/
def MIX_FAULTS : Fld := ⟨0x208, 0x0, 0, 16⟩
/-- MIX QUICK_BLOCKS.N (12 Table 12-7). -/
def MIX_QUICK_BLOCKS : Fld := ⟨0x20C, 0x0, 0, 32⟩
/-- CRY ARENA_BASE.BASE (13 Table 13-12, R583). -/
def CRY_ARENA_BASE_BASE : Fld := ⟨0x100, 0x0, 12, 15⟩
/-- CRY ARENA_SIZE.BLOCKS (13 Table 13-12, R583). -/
def CRY_ARENA_SIZE_BLOCKS : Fld := ⟨0x104, 0x0, 0, 16⟩
/-- CRY LAND_BASE.BASE (13 Table 13-12, R583). -/
def CRY_LAND_BASE_BASE : Fld := ⟨0x108, 0x0, 12, 15⟩
/-- CRY LAND_SIZE.BLOCKS (13 Table 13-12, R583). -/
def CRY_LAND_SIZE_BLOCKS : Fld := ⟨0x10C, 0x0, 0, 8⟩
/-- CRY CRY_STATUS.PHASE (13 Table 13-12). -/
def CRY_CRY_STATUS_PHASE : Fld := ⟨0x110, 0x0, 0, 3⟩
/-- CRY CRY_STATUS.LANDED (13 Table 13-12). -/
def CRY_CRY_STATUS_LANDED : Fld := ⟨0x110, 0x0, 8, 17⟩
/-- CRY EVENTS.LO (13 Table 13-12). -/
def CRY_EVENTS : Fld := ⟨0x200, 0x0, 0, 32⟩
/-- CRY UPDATES.LO (13 Table 13-12). -/
def CRY_UPDATES : Fld := ⟨0x208, 0x0, 0, 32⟩
/-- CRY DROPPED.N (13 R545, R578). -/
def CRY_DROPPED : Fld := ⟨0x210, 0x0, 0, 32⟩
/-- CRY ROUTE_OVERFLOW.N (13 R542). -/
def CRY_ROUTE_OVERFLOW : Fld := ⟨0x214, 0x0, 0, 32⟩
/-- CRY EXPAND_ERRORS.N (13 R549). -/
def CRY_EXPAND_ERRORS : Fld := ⟨0x218, 0x0, 0, 32⟩
/-- CRY EVAL_POISONED.N (13 R538). -/
def CRY_EVAL_POISONED : Fld := ⟨0x21C, 0x0, 0, 32⟩
/-- CRY DEC_MISMATCH.N (13 Table 13-12). -/
def CRY_DEC_MISMATCH : Fld := ⟨0x220, 0x0, 0, 32⟩
/-- CRY EVT_OUT.N (13 Table 13-12). -/
def CRY_EVT_OUT : Fld := ⟨0x224, 0x0, 0, 32⟩
/-- CRY EVT_DISCARDED.N (13 R580). -/
def CRY_EVT_DISCARDED : Fld := ⟨0x228, 0x0, 0, 16⟩
/-- STW DEVICE_ID.ID (00 R13). -/
def STW_DEVICE_ID_ID : Fld := ⟨0x100, 0x0, 0, 32⟩
/-- STW STW_CTRL.FATAL_WARM (15 R644). -/
def STW_STW_CTRL_FATAL_WARM : Fld := ⟨0x104, 0x0, 0, 1⟩
/-- STW ELOG_CTRL.EN (15 R642, R655). -/
def STW_ELOG_CTRL_EN : Fld := ⟨0x108, 0x0, 0, 1⟩
/-- STW ELOG_CTRL.CLASS (15 R642, R655). -/
def STW_ELOG_CTRL_CLASS : Fld := ⟨0x108, 0x0, 5, 3⟩
/-- STW ELOG_CTRL.LOG2 (15 R642, R655). -/
def STW_ELOG_CTRL_LOG2 : Fld := ⟨0x108, 0x0, 8, 5⟩
/-- STW ELOG_BASE_LO.A (15 Table 15-12). -/
def STW_ELOG_BASE_LO_A : Fld := ⟨0x10C, 0x0, 5, 27⟩
/-- STW ELOG_BASE_HI.A (15 Table 15-12). -/
def STW_ELOG_BASE_HI_A : Fld := ⟨0x110, 0x0, 0, 16⟩
/-- STW ELOG_HEAD.N (15 R642). -/
def STW_ELOG_HEAD : Fld := ⟨0x114, 0x0, 0, 32⟩
/-- STW ELOG_TAIL.N (15 R642). -/
def STW_ELOG_TAIL : Fld := ⟨0x118, 0x0, 0, 32⟩
/-- STW ELOG_STATUS.BUFFERED (15 Table 15-12). -/
def STW_ELOG_STATUS_BUFFERED : Fld := ⟨0x11C, 0x0, 0, 7⟩
/-- STW ELOG_LOST.N (15 R642). -/
def STW_ELOG_LOST : Fld := ⟨0x120, 0x0, 0, 32⟩
/-- STW PORT_ERRORS.N (15 R659). -/
def STW_PORT_ERRORS : Fld := ⟨0x124, 0x0, 0, 32⟩
/-- STW PORT_STATE.QUEUED (15 Table 15-12). -/
def STW_PORT_STATE_QUEUED : Fld := ⟨0x128, 0x0, 0, 3⟩
/-- STW ALERT_SRC.BITS (15 Table 15-12). -/
def STW_ALERT_SRC : Fld := ⟨0x130, 0x0, 0, 9⟩
/-- STW ALERT_MAP.BITS (15 Table 15-12). -/
def STW_ALERT_MAP : Fld := ⟨0x140, 0x4, 0, 32⟩
/-- CTX CTX_CMD.CONTEXT (15 R639). -/
def CTX_CTX_CMD_CONTEXT : Fld := ⟨0x100, 0x0, 0, 4⟩
/-- CTX CTX_CMD.OP (15 R639). -/
def CTX_CTX_CMD_OP : Fld := ⟨0x100, 0x0, 4, 2⟩
/-- CTX CTX_BUSY.BITS (15 R639). -/
def CTX_CTX_BUSY : Fld := ⟨0x104, 0x0, 0, 16⟩
/-- CTX CTX_STATE.STATE (15 R639). -/
def CTX_CTX_STATE_STATE : Fld := ⟨0x140, 0x4, 0, 2⟩
/-- CTX CTX_STATE.GEN (15 R639). -/
def CTX_CTX_STATE_GEN : Fld := ⟨0x140, 0x4, 16, 16⟩
/-- DBG DBG_CTRL.UNLOCK (15 R645). -/
def DBG_DBG_CTRL_UNLOCK : Fld := ⟨0x100, 0x0, 0, 1⟩
/-- DBG DBG_CTRL.SCAN_EN (15 R645). -/
def DBG_DBG_CTRL_SCAN_EN : Fld := ⟨0x100, 0x0, 1, 1⟩
/-- DBG DBG_CTRL.KEY (15 R645). -/
def DBG_DBG_CTRL_KEY : Fld := ⟨0x100, 0x0, 24, 8⟩
/-- DBG DBG_STATUS.UNLOCKED (15 R645, R647). -/
def DBG_DBG_STATUS_UNLOCKED : Fld := ⟨0x104, 0x0, 0, 1⟩
/-- DBG DBG_STATUS.TAP_REFUSED (15 R645, R647). -/
def DBG_DBG_STATUS_TAP_REFUSED : Fld := ⟨0x104, 0x0, 1, 1⟩
/-- DBG TRC_CTRL.EN (15 R651). -/
def DBG_TRC_CTRL_EN : Fld := ⟨0x110, 0x0, 0, 1⟩
/-- DBG TRC_CTRL.STOP_FULL (15 R651). -/
def DBG_TRC_CTRL_STOP_FULL : Fld := ⟨0x110, 0x0, 1, 1⟩
/-- DBG TRC_CTRL.STOP_ON_FATAL (15 R651). -/
def DBG_TRC_CTRL_STOP_ON_FATAL : Fld := ⟨0x110, 0x0, 2, 1⟩
/-- DBG TRC_FILT.SRC (15 R651). -/
def DBG_TRC_FILT_SRC : Fld := ⟨0x114, 0x4, 0, 4⟩
/-- DBG TRC_FILT.INSTANCE (15 R651). -/
def DBG_TRC_FILT_INSTANCE : Fld := ⟨0x114, 0x4, 4, 8⟩
/-- DBG TRC_FILT.CTX (15 R651). -/
def DBG_TRC_FILT_CTX : Fld := ⟨0x114, 0x4, 12, 4⟩
/-- DBG TRC_FILT.CTX_ANY (15 R651). -/
def DBG_TRC_FILT_CTX_ANY : Fld := ⟨0x114, 0x4, 16, 1⟩
/-- DBG TRC_WPTR.N (15 R651). -/
def DBG_TRC_WPTR : Fld := ⟨0x130, 0x0, 0, 12⟩
/-- DBG TRC_LOST.N (15 R651). -/
def DBG_TRC_LOST : Fld := ⟨0x134, 0x0, 0, 32⟩
/-- DBG TRC_IDX.N (15 Table 15-13). -/
def DBG_TRC_IDX : Fld := ⟨0x138, 0x0, 0, 12⟩
/-- DBG TRC_DATA.W (15 Table 15-13). -/
def DBG_TRC_DATA_W : Fld := ⟨0x140, 0x4, 0, 32⟩
/-- THL TALLY_ALLOC.BASE (11 Table 11-9). -/
def THL_TALLY_ALLOC_BASE : Fld := ⟨0x100, 0x4, 0, 7⟩
/-- THL TALLY_ALLOC.COUNT (11 Table 11-9). -/
def THL_TALLY_ALLOC_COUNT : Fld := ⟨0x100, 0x4, 8, 8⟩
/-- THL TALLY_SHARE.PHYS (11 Table 11-9). -/
def THL_TALLY_SHARE_PHYS : Fld := ⟨0x140, 0x4, 0, 13⟩
/-- THL TALLY_SHARE.EN (11 Table 11-9). -/
def THL_TALLY_SHARE_EN : Fld := ⟨0x140, 0x4, 13, 1⟩
/-- THL TALLY_SHARE.GUEST (11 Table 11-9). -/
def THL_TALLY_SHARE_GUEST : Fld := ⟨0x140, 0x4, 14, 4⟩
/-- THL TALLY_SHARE.GUEST_V (11 Table 11-9). -/
def THL_TALLY_SHARE_GUEST_V : Fld := ⟨0x140, 0x4, 19, 13⟩
/-- THL DEFAULT_TIMEOUT.US (11 R491, Table 11-9). -/
def THL_DEFAULT_TIMEOUT_US : Fld := ⟨0x240, 0x4, 0, 32⟩
/-- THL DL_WINDOW.TICKS (11 R491). -/
def THL_DL_WINDOW_TICKS : Fld := ⟨0x280, 0x0, 0, 32⟩
/-- THL LEND_AFTER.TICKS (11 R491). -/
def THL_LEND_AFTER_TICKS : Fld := ⟨0x284, 0x0, 0, 16⟩
/-- THL HALL_STATUS.OPS (11 Table 11-9). -/
def THL_HALL_STATUS_OPS : Fld := ⟨0x288, 0x0, 0, 7⟩
/-- THL HALL_STATUS.WAITERS (11 Table 11-9). -/
def THL_HALL_STATUS_WAITERS : Fld := ⟨0x288, 0x0, 8, 12⟩
/-- THL HALL_STATUS.HOLDERS (11 Table 11-9). -/
def THL_HALL_STATUS_HOLDERS : Fld := ⟨0x288, 0x0, 20, 9⟩
/-- THL CLEAR_STATUS.BUSY (11 R499). -/
def THL_CLEAR_STATUS_BUSY : Fld := ⟨0x28C, 0x0, 0, 16⟩
/-- THL OPS.LO (11 Table 11-9). -/
def THL_OPS : Fld := ⟨0x300, 0x0, 0, 32⟩
/-- THL UNDERFLOWS.N (11 Table 11-9). -/
def THL_UNDERFLOWS : Fld := ⟨0x308, 0x0, 0, 32⟩
/-- THL SATURATIONS.N (11 Table 11-9). -/
def THL_SATURATIONS : Fld := ⟨0x30C, 0x0, 0, 32⟩
/-- THL TIMEOUTS.N (11 Table 11-9). -/
def THL_TIMEOUTS : Fld := ⟨0x310, 0x0, 0, 32⟩
/-- THL DEADLOCKS.N (11 Table 11-9). -/
def THL_DEADLOCKS : Fld := ⟨0x314, 0x0, 0, 16⟩
/-- THL ORPHANS.N (11 Table 11-9). -/
def THL_ORPHANS : Fld := ⟨0x318, 0x0, 0, 16⟩
/-- THL REALIGNS.N (11 Table 11-9). -/
def THL_REALIGNS : Fld := ⟨0x31C, 0x0, 0, 32⟩
/-- THL WAITER_FULL_COUNT.N (11 R468). -/
def THL_WAITER_FULL_COUNT : Fld := ⟨0x320, 0x0, 0, 32⟩
/-- THL HOLDER_FULL_COUNT.N (11 R474). -/
def THL_HOLDER_FULL_COUNT : Fld := ⟨0x324, 0x0, 0, 32⟩
/-- THL RELEASES.N (11 Table 11-9). -/
def THL_RELEASES : Fld := ⟨0x328, 0x0, 0, 32⟩
/-- THL CE_COUNT.N (11 Table 11-9). -/
def THL_CE_COUNT : Fld := ⟨0x32C, 0x0, 0, 32⟩
/-- EVM EVM_CTRL.EN (13 Table 13-12). -/
def EVM_EVM_CTRL_EN : Fld := ⟨0x100, 0x0, 0, 1⟩
/-- EVM EVM_CTRL.CTX (13 Table 13-12). -/
def EVM_EVM_CTRL_CTX : Fld := ⟨0x100, 0x0, 1, 4⟩
/-- EVM EVM_CTRL.CLASS (13 Table 13-12). -/
def EVM_EVM_CTRL_CLASS : Fld := ⟨0x100, 0x0, 5, 3⟩
/-- TWN TWN_CTRL.SOLO_POLICY (14 Table 14-9). -/
def TWN_TWN_CTRL_SOLO_POLICY : Fld := ⟨0x100, 0x0, 0, 1⟩
/-- TWN TWN_CTRL.BEAT_TIMEOUT (14 Table 14-9). -/
def TWN_TWN_CTRL_BEAT_TIMEOUT : Fld := ⟨0x100, 0x0, 16, 16⟩
/-- TWN TWN_CMD.REJOIN (14 R624, R619). -/
def TWN_TWN_CMD_REJOIN : Fld := ⟨0x104, 0x0, 0, 1⟩
/-- TWN TWN_CMD.TAKE_OVER (14 R624, R619). -/
def TWN_TWN_CMD_TAKE_OVER : Fld := ⟨0x104, 0x0, 1, 1⟩
/-- TWN TWN_STATUS.STATE (14 Table 14-9). -/
def TWN_TWN_STATUS_STATE : Fld := ⟨0x108, 0x0, 0, 3⟩
/-- TWN TWN_STATUS.ROLE (14 Table 14-9). -/
def TWN_TWN_STATUS_ROLE : Fld := ⟨0x108, 0x0, 3, 1⟩
/-- TWN TWN_STATUS.SEQUENCER (14 Table 14-9). -/
def TWN_TWN_STATUS_SEQUENCER : Fld := ⟨0x108, 0x0, 4, 1⟩
/-- TWN TWN_STATUS.LOST_CAUSE (14 Table 14-9). -/
def TWN_TWN_STATUS_LOST_CAUSE : Fld := ⟨0x108, 0x0, 5, 3⟩
/-- TWN TWN_STATUS.PASS (14 Table 14-9). -/
def TWN_TWN_STATUS_PASS : Fld := ⟨0x108, 0x0, 8, 2⟩
/-- TWN TWN_STATUS.SYNCED (14 Table 14-9). -/
def TWN_TWN_STATUS_SYNCED : Fld := ⟨0x108, 0x0, 10, 1⟩
/-- TWN TWN_STATUS.HOLDS_STATE (14 Table 14-9). -/
def TWN_TWN_STATUS_HOLDS_STATE : Fld := ⟨0x108, 0x0, 11, 1⟩
/-- TWN RESILVER_CTRL.RATE (14 Table 14-9). -/
def TWN_RESILVER_CTRL_RATE : Fld := ⟨0x10C, 0x0, 0, 12⟩
/-- TWN RESILVER_CTRL.CLASS (14 Table 14-9). -/
def TWN_RESILVER_CTRL_CLASS : Fld := ⟨0x10C, 0x0, 12, 3⟩
/-- TWN FRONT_LO.A (14 Table 14-9). -/
def TWN_FRONT_LO_A : Fld := ⟨0x110, 0x0, 0, 32⟩
/-- TWN FRONT_HI.A (14 Table 14-9). -/
def TWN_FRONT_HI_A : Fld := ⟨0x114, 0x0, 0, 32⟩
/-- TWN MSEQ_LAST.N (14 Table 14-9). -/
def TWN_MSEQ_LAST : Fld := ⟨0x118, 0x0, 0, 32⟩
/-- TWN MIR_BASE.BASE (14 R604). -/
def TWN_MIR_BASE_BASE : Fld := ⟨0x140, 0x8, 0, 32⟩
/-- TWN MIR_SIZE.SIZE (14 R604, R605). -/
def TWN_MIR_SIZE_SIZE : Fld := ⟨0x144, 0x8, 0, 24⟩
/-- TWN MIR_SIZE.SYNCED (14 R604, R605). -/
def TWN_MIR_SIZE_SYNCED : Fld := ⟨0x144, 0x8, 30, 1⟩
/-- TWN MIR_SIZE.EN (14 R604, R605). -/
def TWN_MIR_SIZE_EN : Fld := ⟨0x144, 0x8, 31, 1⟩
/-- TWN INDOUBT_SEL.INDEX (14 Table 14-9). -/
def TWN_INDOUBT_SEL_INDEX : Fld := ⟨0x1C0, 0x0, 0, 10⟩
/-- TWN INDOUBT_MSEQ.N (14 Table 14-9). -/
def TWN_INDOUBT_MSEQ : Fld := ⟨0x1C4, 0x0, 0, 32⟩
/-- TWN INDOUBT_ORIG.MKIND (14 Table 14-9). -/
def TWN_INDOUBT_ORIG_MKIND : Fld := ⟨0x1C8, 0x0, 0, 4⟩
/-- TWN INDOUBT_ORIG.OKIND (14 Table 14-9). -/
def TWN_INDOUBT_ORIG_OKIND : Fld := ⟨0x1C8, 0x0, 4, 2⟩
/-- TWN INDOUBT_ORIG.OID (14 Table 14-9). -/
def TWN_INDOUBT_ORIG_OID : Fld := ⟨0x1C8, 0x0, 6, 7⟩
/-- TWN INDOUBT_ORIG.OTAG (14 Table 14-9). -/
def TWN_INDOUBT_ORIG_OTAG : Fld := ⟨0x1C8, 0x0, 13, 9⟩
/-- TWN INDOUBT_ORIG.STATUS (14 Table 14-9). -/
def TWN_INDOUBT_ORIG_STATUS : Fld := ⟨0x1C8, 0x0, 22, 4⟩
/-- TWN INDOUBT_ORIG.VALID (14 Table 14-9). -/
def TWN_INDOUBT_ORIG_VALID : Fld := ⟨0x1C8, 0x0, 31, 1⟩
/-- TWN MIRROR_OPS.LO (14 Table 14-9). -/
def TWN_MIRROR_OPS : Fld := ⟨0x200, 0x0, 0, 32⟩
/-- TWN MIRROR_LINES.LO (14 Table 14-9). -/
def TWN_MIRROR_LINES : Fld := ⟨0x208, 0x0, 0, 32⟩
/-- TWN REFUSALS.N (14 Table 14-9). -/
def TWN_REFUSALS : Fld := ⟨0x210, 0x0, 0, 32⟩
/-- TWN LOSSES.N (14 Table 14-9). -/
def TWN_LOSSES : Fld := ⟨0x214, 0x0, 0, 16⟩
/-- TWN RESILVERS.N (14 Table 14-9). -/
def TWN_RESILVERS : Fld := ⟨0x218, 0x0, 0, 16⟩
/-- PRS PRS_CTRL.VMODE (16 Table 16-7). -/
def PRS_PRS_CTRL_VMODE : Fld := ⟨0x100, 0x0, 0, 1⟩
/-- PRS PRS_CTRL.LIMIT_EN (16 Table 16-7). -/
def PRS_PRS_CTRL_LIMIT_EN : Fld := ⟨0x100, 0x0, 1, 1⟩
/-- PRS PRS_CTRL.LEND_EN (16 Table 16-7). -/
def PRS_PRS_CTRL_LEND_EN : Fld := ⟨0x100, 0x0, 2, 1⟩
/-- PRS PKG_BUDGET.EIGHTHS (16 R687). -/
def PRS_PKG_BUDGET_EIGHTHS : Fld := ⟨0x104, 0x0, 0, 11⟩
/-- PRS GAL_WEIGHT.WEIGHT (16 Table 16-7). -/
def PRS_GAL_WEIGHT_WEIGHT : Fld := ⟨0x108, 0x0, 0, 32⟩
/-- PRS SHARES.ENG_SHARE (16 R667, R670). -/
def PRS_SHARES_ENG_SHARE : Fld := ⟨0x10C, 0x0, 0, 6⟩
/-- PRS SHARES.MOD_SHARE (16 R667, R670). -/
def PRS_SHARES_MOD_SHARE : Fld := ⟨0x10C, 0x0, 8, 7⟩
/-- PRS E_LINE.PJ (16 Table 16-7). -/
def PRS_E_LINE_PJ : Fld := ⟨0x110, 0x0, 0, 12⟩
/-- PRS LIMIT_BURST.LINES (16 R671). -/
def PRS_LIMIT_BURST_LINES : Fld := ⟨0x114, 0x0, 0, 16⟩
/-- PRS VCORE_CFG.VMIN (16 Table 16-7). -/
def PRS_VCORE_CFG_VMIN : Fld := ⟨0x118, 0x0, 0, 10⟩
/-- PRS VCORE_CFG.VMAX (16 Table 16-7). -/
def PRS_VCORE_CFG_VMAX : Fld := ⟨0x118, 0x0, 16, 10⟩
/-- PRS VCORE_SET.MV (16 R675). -/
def PRS_VCORE_SET_MV : Fld := ⟨0x11C, 0x0, 0, 10⟩
/-- PRS VCORE_SET.VRELAX (16 R675). -/
def PRS_VCORE_SET_VRELAX : Fld := ⟨0x11C, 0x0, 24, 4⟩
/-- PRS VCORE_STATUS.REQ (16 R694). -/
def PRS_VCORE_STATUS_REQ : Fld := ⟨0x120, 0x0, 0, 10⟩
/-- PRS VCORE_STATUS.READ (16 R694). -/
def PRS_VCORE_STATUS_READ : Fld := ⟨0x120, 0x0, 16, 10⟩
/-- PRS VCORE_STATUS.AVS_OK (16 R694). -/
def PRS_VCORE_STATUS_AVS_OK : Fld := ⟨0x120, 0x0, 31, 1⟩
/-- PRS VCORE_CURRENT.I (16 Table 16-8). -/
def PRS_VCORE_CURRENT_I : Fld := ⟨0x124, 0x0, 0, 16⟩
/-- PRS CAL.CAL (16 R666). -/
def PRS_CAL_CAL : Fld := ⟨0x128, 0x0, 0, 8⟩
/-- PRS P_STATIC.MW (16 Table 16-8). -/
def PRS_P_STATIC_MW : Fld := ⟨0x12C, 0x0, 0, 18⟩
/-- PRS P_TOTAL.MW (16 Table 16-8). -/
def PRS_P_TOTAL_MW : Fld := ⟨0x130, 0x0, 0, 18⟩
/-- PRS GAL_ALLOW.MW (16 Table 16-8). -/
def PRS_GAL_ALLOW_MW : Fld := ⟨0x140, 0x4, 0, 18⟩
/-- PRS GAL_LINES.L (16 Table 16-8). -/
def PRS_GAL_LINES_L : Fld := ⟨0x160, 0x4, 0, 17⟩
/-- PRS GAL_PACE.RD (16 Table 16-8). -/
def PRS_GAL_PACE_RD : Fld := ⟨0x180, 0x4, 0, 12⟩
/-- PRS GAL_PACE.WR (16 Table 16-8). -/
def PRS_GAL_PACE_WR : Fld := ⟨0x180, 0x4, 16, 12⟩
/-- PRS LEND_STATE.BITS (16 Table 16-8). -/
def PRS_LEND_STATE : Fld := ⟨0x1A0, 0x0, 0, 16⟩
/-- PRS LEND_POOL.MW (16 Table 16-8). -/
def PRS_LEND_POOL_MW : Fld := ⟨0x1A4, 0x0, 0, 18⟩
/-- PRS THERM_THR.TWARN (16 Table 16-7). -/
def PRS_THERM_THR_TWARN : Fld := ⟨0x1C0, 0x0, 0, 8⟩
/-- PRS THERM_THR.TTHROT (16 Table 16-7). -/
def PRS_THERM_THR_TTHROT : Fld := ⟨0x1C0, 0x0, 8, 8⟩
/-- PRS THERM_THR.TCRIT (16 Table 16-7). -/
def PRS_THERM_THR_TCRIT : Fld := ⟨0x1C0, 0x0, 16, 8⟩
/-- PRS THERM_THR.HYST (16 Table 16-7). -/
def PRS_THERM_THR_HYST : Fld := ⟨0x1C0, 0x0, 24, 4⟩
/-- PRS THERM_DWELL.SAMPLES (16 Table 16-7). -/
def PRS_THERM_DWELL_SAMPLES : Fld := ⟨0x1C4, 0x0, 0, 10⟩
/-- PRS THERM_ACT.THROT_FACTOR (16 Table 16-7). -/
def PRS_THERM_ACT_THROT_FACTOR : Fld := ⟨0x1C8, 0x0, 0, 6⟩
/-- PRS THERM_ACT.CRIT_FACTOR (16 Table 16-7). -/
def PRS_THERM_ACT_CRIT_FACTOR : Fld := ⟨0x1C8, 0x0, 8, 6⟩
/-- PRS THERM_ACT.VCORE_THROT (16 Table 16-7). -/
def PRS_THERM_ACT_VCORE_THROT : Fld := ⟨0x1C8, 0x0, 16, 10⟩
/-- PRS STACK_THR.THR (16 Table 16-7). -/
def PRS_STACK_THR_THR : Fld := ⟨0x1CC, 0x0, 0, 8⟩
/-- PRS STACK_THR.STACK_FACTOR (16 Table 16-7). -/
def PRS_STACK_THR_STACK_FACTOR : Fld := ⟨0x1CC, 0x0, 8, 6⟩
/-- PRS SENSOR.TEMP (16 R693). -/
def PRS_SENSOR_TEMP : Fld := ⟨0x200, 0x4, 0, 12⟩
/-- PRS SENSOR.STATE (16 R693). -/
def PRS_SENSOR_STATE : Fld := ⟨0x200, 0x4, 12, 3⟩
/-- PRS SENSOR.VALID (16 R693). -/
def PRS_SENSOR_VALID : Fld := ⟨0x200, 0x4, 15, 1⟩
/-- PRS THERM_SUMMARY.GAL (16 R678, R681, R683). -/
def PRS_THERM_SUMMARY_GAL : Fld := ⟨0x248, 0x0, 0, 16⟩
/-- PRS THERM_SUMMARY.TRIP (16 R678, R681, R683). -/
def PRS_THERM_SUMMARY_TRIP : Fld := ⟨0x248, 0x0, 16, 1⟩
/-- PRS THERM_SUMMARY.STACK (16 R678, R681, R683). -/
def PRS_THERM_SUMMARY_STACK : Fld := ⟨0x248, 0x0, 24, 8⟩
/-- PRS LIMIT_HELD.N (16 Table 16-8). -/
def PRS_LIMIT_HELD : Fld := ⟨0x300, 0x4, 0, 32⟩
/-- PRS THROT_TICKS.N (16 Table 16-8). -/
def PRS_THROT_TICKS : Fld := ⟨0x320, 0x4, 0, 32⟩
/-- PRS TRIPS.N (16 R681). -/
def PRS_TRIPS : Fld := ⟨0x340, 0x0, 0, 16⟩
/-- PRS LEND_US.LO (16 Table 16-8). -/
def PRS_LEND_US : Fld := ⟨0x348, 0x0, 0, 32⟩
/-- PRS ENERGY.LO (16 Table 16-8). -/
def PRS_ENERGY : Fld := ⟨0x350, 0x0, 0, 32⟩
/-- PRS VCORE_STEPS.N (16 Table 16-8). -/
def PRS_VCORE_STEPS : Fld := ⟨0x358, 0x0, 0, 32⟩
/-- BOOT BOOT_STATUS.PHASE (17 R708). -/
def BOOT_BOOT_STATUS_PHASE : Fld := ⟨0x100, 0x0, 0, 3⟩
/-- BOOT BOOT_STATUS.STOPPED (17 R708). -/
def BOOT_BOOT_STATUS_STOPPED : Fld := ⟨0x100, 0x0, 3, 1⟩
/-- BOOT BOOT_STATUS.LAST_RESET (17 R708). -/
def BOOT_BOOT_STATUS_LAST_RESET : Fld := ⟨0x100, 0x0, 4, 2⟩
/-- BOOT BOOT_CMD.READY (17 R714). -/
def BOOT_BOOT_CMD_READY : Fld := ⟨0x104, 0x0, 0, 1⟩
/-- BOOT BOOT_MODULES.UP (17 Table 17-5). -/
def BOOT_BOOT_MODULES_UP : Fld := ⟨0x108, 0x0, 0, 16⟩
/-- BOOT BOOT_STACKS.UP (17 Table 17-5). -/
def BOOT_BOOT_STACKS_UP : Fld := ⟨0x10C, 0x0, 0, 8⟩
/-- BOOT BOOT_STACKS.FAILED (17 Table 17-5). -/
def BOOT_BOOT_STACKS_FAILED : Fld := ⟨0x10C, 0x0, 8, 8⟩
/-- BOOT STRAPS.TWIN_EN (17 Table 17-5, R703). -/
def BOOT_STRAPS_TWIN_EN : Fld := ⟨0x110, 0x0, 0, 1⟩
/-- BOOT STRAPS.TWIN_ROLE (17 Table 17-5, R703). -/
def BOOT_STRAPS_TWIN_ROLE : Fld := ⟨0x110, 0x0, 1, 1⟩
/-- BOOT STRAPS.REF_PRI (17 Table 17-5, R703). -/
def BOOT_STRAPS_REF_PRI : Fld := ⟨0x110, 0x0, 2, 1⟩
/-- BOOT STRAPS.TEST_MODE (17 Table 17-5, R703). -/
def BOOT_STRAPS_TEST_MODE : Fld := ⟨0x110, 0x0, 3, 1⟩
/-- BOOT PHASE_US.US (17 Table 17-5). -/
def BOOT_PHASE_US_US : Fld := ⟨0x120, 0x4, 0, 32⟩
/-- BOOT WARM_RESETS.N (17 R719). -/
def BOOT_WARM_RESETS : Fld := ⟨0x140, 0x0, 0, 32⟩
/-- BOOT READY_US.US (17 Table 17-5). -/
def BOOT_READY_US_US : Fld := ⟨0x144, 0x0, 0, 32⟩
/-- TDB DOORBELL.TAIL (10 R412). -/
def TDB_DOORBELL_TAIL : Fld := ⟨0x100, 0x10, 0, 16⟩
/-- TDB RING_PTR.HEAD (10 R413, R414). -/
def TDB_RING_PTR_HEAD : Fld := ⟨0x104, 0x10, 0, 16⟩
/-- TDB RING_PTR.COMPLETE (10 R413, R414). -/
def TDB_RING_PTR_COMPLETE : Fld := ⟨0x104, 0x10, 16, 16⟩
/-- TDB RING_STAT.STATE (10 Table 10-8). -/
def TDB_RING_STAT_STATE : Fld := ⟨0x108, 0x10, 0, 3⟩
/-- TDB RING_STAT.DB_IGNORED (10 Table 10-8). -/
def TDB_RING_STAT_DB_IGNORED : Fld := ⟨0x108, 0x10, 3, 1⟩
/-- TDB RING_STAT.STOP_STATUS (10 Table 10-8). -/
def TDB_RING_STAT_STOP_STATUS : Fld := ⟨0x108, 0x10, 4, 4⟩
/-- TDB RING_STAT.STOP_CMD (10 Table 10-8). -/
def TDB_RING_STAT_STOP_CMD : Fld := ⟨0x108, 0x10, 8, 8⟩
/-- TDB RING_STAT.STOP_INDEX (10 Table 10-8). -/
def TDB_RING_STAT_STOP_INDEX : Fld := ⟨0x108, 0x10, 16, 16⟩
/-- TDB RING_CMD.RESTART (10 R433, R443). -/
def TDB_RING_CMD_RESTART : Fld := ⟨0x10C, 0x10, 0, 1⟩
/-- TDB RING_CMD.CLEAR (10 R433, R443). -/
def TDB_RING_CMD_CLEAR : Fld := ⟨0x10C, 0x10, 1, 1⟩
/-- TDB RING_STOPTAG.TAG (10 Table 10-8). -/
def TDB_RING_STOPTAG_TAG : Fld := ⟨0x140, 0x4, 0, 16⟩
/-- TFQ FQ_BASE_LO.TVA (18 R734). -/
def TFQ_FQ_BASE_LO_TVA : Fld := ⟨0x100, 0x0, 10, 22⟩
/-- TFQ FQ_BASE_HI.TVA (18 R734). -/
def TFQ_FQ_BASE_HI_TVA : Fld := ⟨0x104, 0x0, 0, 16⟩
/-- TFQ FQ_CTRL.EN (18 R734, R736). -/
def TFQ_FQ_CTRL_EN : Fld := ⟨0x108, 0x0, 0, 1⟩
/-- TFQ FQ_CTRL.LOG2 (18 R734, R736). -/
def TFQ_FQ_CTRL_LOG2 : Fld := ⟨0x108, 0x0, 1, 4⟩
/-- TFQ FQ_CTRL.CLASS (18 R734, R736). -/
def TFQ_FQ_CTRL_CLASS : Fld := ⟨0x108, 0x0, 5, 3⟩
/-- TFQ FQ_CTRL.INT_EN (18 R734, R736). -/
def TFQ_FQ_CTRL_INT_EN : Fld := ⟨0x108, 0x0, 8, 1⟩
/-- TFQ FQ_CTRL.VECTOR (18 R734, R736). -/
def TFQ_FQ_CTRL_VECTOR : Fld := ⟨0x108, 0x0, 16, 16⟩
/-- TFQ FQ_HEAD.N (18 Table 18-10). -/
def TFQ_FQ_HEAD : Fld := ⟨0x10C, 0x0, 0, 32⟩
/-- TFQ FQ_TAIL.N (18 R737). -/
def TFQ_FQ_TAIL : Fld := ⟨0x110, 0x0, 0, 32⟩
/-- TFQ FQ_STATUS.BASE_FAULT (18 Table 18-10). -/
def TFQ_FQ_STATUS_BASE_FAULT : Fld := ⟨0x114, 0x0, 0, 1⟩
/-- TFQ FQ_STATUS.WRITE_FAULT (18 Table 18-10). -/
def TFQ_FQ_STATUS_WRITE_FAULT : Fld := ⟨0x114, 0x0, 1, 1⟩
/-- TFQ FQ_STATUS.WRITE_IGNORED (18 Table 18-10). -/
def TFQ_FQ_STATUS_WRITE_IGNORED : Fld := ⟨0x114, 0x0, 2, 1⟩
/-- TFQ FQ_STATUS.INT_PENDING (18 Table 18-10). -/
def TFQ_FQ_STATUS_INT_PENDING : Fld := ⟨0x114, 0x0, 3, 1⟩
/-- TFQ FQ_STATUS.BUFFERED (18 Table 18-10). -/
def TFQ_FQ_STATUS_BUFFERED : Fld := ⟨0x114, 0x0, 4, 4⟩
/-- TFQ FQ_LOST.N (18 R735, R748). -/
def TFQ_FQ_LOST : Fld := ⟨0x118, 0x0, 0, 32⟩
/-- TFQ FQ_SEQ.N (18 Table 18-10). -/
def TFQ_FQ_SEQ : Fld := ⟨0x11C, 0x0, 0, 32⟩
/-- TTV TTV_INFO.TALLIES (11 Table 11-10). -/
def TTV_TTV_INFO_TALLIES : Fld := ⟨0x100, 0x0, 0, 14⟩
/-- TTV TTV_TIMEOUT.US (11 Table 11-10). -/
def TTV_TTV_TIMEOUT_US : Fld := ⟨0x104, 0x0, 0, 32⟩
/-- TTV TTV_SEL.TALLY (11 R501). -/
def TTV_TTV_SEL_TALLY : Fld := ⟨0x108, 0x0, 0, 13⟩
/-- TTV TTV_VIEW.STATE (11 Table 11-10). -/
def TTV_TTV_VIEW_STATE : Fld := ⟨0x10C, 0x0, 0, 32⟩
/-- TTV TTV_ATTR.LOCK (11 R479). -/
def TTV_TTV_ATTR_LOCK : Fld := ⟨0x110, 0x0, 0, 1⟩
/-- TTV TTV_CMD.CLEAR_SAT (11 Table 11-10). -/
def TTV_TTV_CMD_CLEAR_SAT : Fld := ⟨0x114, 0x0, 0, 1⟩
/-- TTV TTV_STATUS.LINK_REJECT (11 Table 11-10). -/
def TTV_TTV_STATUS_LINK_REJECT : Fld := ⟨0x118, 0x0, 0, 1⟩
/-- TTV TTV_STATUS.ATTR_REJECT (11 Table 11-10). -/
def TTV_TTV_STATUS_ATTR_REJECT : Fld := ⟨0x118, 0x0, 1, 1⟩
/-- TTV TTV_STATUS.DL_ACTIVE (11 Table 11-10). -/
def TTV_TTV_STATUS_DL_ACTIVE : Fld := ⟨0x118, 0x0, 2, 1⟩
/-- TTV LINK.A (11 R473). -/
def TTV_LINK_A : Fld := ⟨0x140, 0x4, 0, 13⟩
/-- TTV LINK.EN (11 R473). -/
def TTV_LINK_EN : Fld := ⟨0x140, 0x4, 13, 1⟩
/-- TTV LINK.B (11 R473). -/
def TTV_LINK_B : Fld := ⟨0x140, 0x4, 16, 13⟩
/-- TTV REALIGN_CTRL.PERIOD (11 Table 11-10). -/
def TTV_REALIGN_CTRL_PERIOD : Fld := ⟨0x180, 0x0, 0, 24⟩
/-- TTV REALIGN_CTRL.AT_STEP (11 Table 11-10). -/
def TTV_REALIGN_CTRL_AT_STEP : Fld := ⟨0x180, 0x0, 31, 1⟩
/-- TTV TIMEOUTS.N (11 R501). -/
def TTV_TIMEOUTS : Fld := ⟨0x200, 0x0, 0, 32⟩
/-- TTV UNDERFLOWS.N (11 R501). -/
def TTV_UNDERFLOWS : Fld := ⟨0x204, 0x0, 0, 32⟩
/-- TTV SATURATIONS.N (11 R501). -/
def TTV_SATURATIONS : Fld := ⟨0x208, 0x0, 0, 32⟩
/-- TTV ORPHANS.N (11 R501). -/
def TTV_ORPHANS : Fld := ⟨0x20C, 0x0, 0, 16⟩
/-- TTV REALIGNS.N (11 R501). -/
def TTV_REALIGNS : Fld := ⟨0x210, 0x0, 0, 32⟩
/-- TTV DEADLOCKS.N (11 R501). -/
def TTV_DEADLOCKS : Fld := ⟨0x214, 0x0, 0, 16⟩
/-- TQC QUEUE_CMD.RESUME (09 R381, R382). -/
def TQC_QUEUE_CMD_RESUME : Fld := ⟨0x100, 0x4, 0, 1⟩
/-- TQC QUEUE_CMD.ABORT (09 R381, R382). -/
def TQC_QUEUE_CMD_ABORT : Fld := ⟨0x100, 0x4, 1, 1⟩
/-- TQC QUEUE_CMD.FLUSH (09 R381, R382). -/
def TQC_QUEUE_CMD_FLUSH : Fld := ⟨0x100, 0x4, 2, 1⟩
/-- TQC QUEUE_STATE.STATE (09 Table 9-7). -/
def TQC_QUEUE_STATE_STATE : Fld := ⟨0x300, 0x4, 0, 3⟩
/-- TQC QUEUE_STATE.ACCEPTED (09 Table 9-7). -/
def TQC_QUEUE_STATE_ACCEPTED : Fld := ⟨0x300, 0x4, 4, 5⟩
/-- TQC QUEUE_STATE.ACTIVE (09 Table 9-7). -/
def TQC_QUEUE_STATE_ACTIVE : Fld := ⟨0x300, 0x4, 9, 2⟩
/-- TQC QUEUE_STATE.LINES (09 Table 9-7). -/
def TQC_QUEUE_STATE_LINES : Fld := ⟨0x300, 0x4, 16, 9⟩
/-- TQC QEND.STATUS (09 Table 9-7). -/
def TQC_QEND_STATUS : Fld := ⟨0x500, 0x4, 0, 4⟩
/-- TQC QEND.CODE (09 Table 9-7). -/
def TQC_QEND_CODE : Fld := ⟨0x500, 0x4, 4, 8⟩
/-- TQC QEND.SAT (09 Table 9-7). -/
def TQC_QEND_SAT : Fld := ⟨0x500, 0x4, 12, 1⟩
/-- TQC QEND.END_SEQ (09 Table 9-7). -/
def TQC_QEND_END_SEQ : Fld := ⟨0x500, 0x4, 16, 16⟩
/-- TQC RR_SEL.QUEUE (09 R409). -/
def TQC_RR_SEL_QUEUE : Fld := ⟨0x700, 0x0, 0, 7⟩
/-- TQC RR_INFO.VALID (09 Table 9-7). -/
def TQC_RR_INFO_VALID : Fld := ⟨0x704, 0x0, 0, 1⟩
/-- TQC RR_INFO.KIND (09 Table 9-7). -/
def TQC_RR_INFO_KIND : Fld := ⟨0x704, 0x0, 1, 1⟩
/-- TQC RR_INFO.TAKEN_AHEAD (09 Table 9-7). -/
def TQC_RR_INFO_TAKEN_AHEAD : Fld := ⟨0x704, 0x0, 2, 1⟩
/-- TQC RR_INFO.FAULT (09 Table 9-7). -/
def TQC_RR_INFO_FAULT : Fld := ⟨0x704, 0x0, 3, 4⟩
/-- TQC RR_INFO.FLAGS (09 Table 9-7). -/
def TQC_RR_INFO_FLAGS : Fld := ⟨0x704, 0x0, 7, 3⟩
/-- TQC RR_DESC_LO.A (09 Table 9-7). -/
def TQC_RR_DESC_LO_A : Fld := ⟨0x708, 0x0, 0, 32⟩
/-- TQC RR_DESC_HI.A (09 Table 9-7). -/
def TQC_RR_DESC_HI_A : Fld := ⟨0x70C, 0x0, 0, 16⟩
/-- TQC RR_TVA_LO.A (09 Table 9-7). -/
def TQC_RR_TVA_LO_A : Fld := ⟨0x710, 0x0, 0, 32⟩
/-- TQC RR_TVA_HI.A (09 Table 9-7). -/
def TQC_RR_TVA_HI_A : Fld := ⟨0x714, 0x0, 0, 16⟩
/-- TQC RR_IDX.IDX (09 Table 9-7). -/
def TQC_RR_IDX_IDX : Fld := ⟨0x718, 0x4, 0, 20⟩
/-- TQC RR_PART_LO.N (09 R380). -/
def TQC_RR_PART_LO : Fld := ⟨0x730, 0x0, 0, 32⟩
/-- TQC RR_PART_HI.N (09 R380). -/
def TQC_RR_PART_HI : Fld := ⟨0x734, 0x0, 0, 32⟩
/-- TQC RR_DONE_LO.N (09 R384). -/
def TQC_RR_DONE_LO : Fld := ⟨0x740, 0x0, 0, 32⟩
/-- TQC RR_DONE_HI.N (09 R384). -/
def TQC_RR_DONE_HI : Fld := ⟨0x744, 0x0, 0, 32⟩
/-- TCT RD_BYTES.LO (05 R226). -/
def TCT_RD_BYTES : Fld := ⟨0x100, 0x0, 0, 32⟩
/-- TCT WR_BYTES.LO (05 R226). -/
def TCT_WR_BYTES : Fld := ⟨0x108, 0x0, 0, 32⟩
/-- TCT ATOMICS.LO (05 R226). -/
def TCT_ATOMICS : Fld := ⟨0x110, 0x0, 0, 32⟩
/-- TCT HELD.LO (05 R226). -/
def TCT_HELD : Fld := ⟨0x118, 0x0, 0, 32⟩
/-- TMK KEY_LO.K0 (12 R507). -/
def TMK_KEY_LO_K0 : Fld := ⟨0x100, 0x0, 0, 32⟩
/-- TMK KEY_HI.K1 (12 R507). -/
def TMK_KEY_HI_K1 : Fld := ⟨0x104, 0x0, 0, 32⟩
/-- TMK KEY_NEXT_LO.K0 (12 R507). -/
def TMK_KEY_NEXT_LO_K0 : Fld := ⟨0x108, 0x0, 0, 32⟩
/-- TMK KEY_NEXT_HI.K1 (12 R507). -/
def TMK_KEY_NEXT_HI_K1 : Fld := ⟨0x10C, 0x0, 0, 32⟩
/-- TMK KEY_APPLY.APPLY (12 R507). -/
def TMK_KEY_APPLY_APPLY : Fld := ⟨0x110, 0x0, 0, 1⟩
/-- TMK KEY_STATUS.SET (12 R507). -/
def TMK_KEY_STATUS_SET : Fld := ⟨0x114, 0x0, 0, 1⟩
/-- TMK KEY_STATUS.SEQ (12 R507). -/
def TMK_KEY_STATUS_SEQ : Fld := ⟨0x114, 0x0, 16, 16⟩
/-- TEV STEP_CTRL.RUN (13 R555). -/
def TEV_STEP_CTRL_RUN : Fld := ⟨0x100, 0x0, 0, 1⟩
/-- TEV STEP_CTRL.MODE (13 R555). -/
def TEV_STEP_CTRL_MODE : Fld := ⟨0x100, 0x0, 1, 1⟩
/-- TEV STEP_PERIOD.TICKS (13 Table 13-13). -/
def TEV_STEP_PERIOD_TICKS : Fld := ⟨0x104, 0x0, 0, 14⟩
/-- TEV STEP_MIN.TICKS (13 Table 13-13). -/
def TEV_STEP_MIN_TICKS : Fld := ⟨0x108, 0x0, 0, 14⟩
/-- TEV STEP_BARRIER.TALLY (13 Table 13-13). -/
def TEV_STEP_BARRIER_TALLY : Fld := ⟨0x10C, 0x0, 0, 13⟩
/-- TEV STEP_BARRIER.EXT (13 Table 13-13). -/
def TEV_STEP_BARRIER_EXT : Fld := ⟨0x10C, 0x0, 16, 4⟩
/-- TEV STEP_REC.LOG2 (13 Table 13-13). -/
def TEV_STEP_REC_LOG2 : Fld := ⟨0x110, 0x0, 0, 4⟩
/-- TEV STEP_REC.OFFSET (13 Table 13-13). -/
def TEV_STEP_REC_OFFSET : Fld := ⟨0x110, 0x0, 12, 20⟩
/-- TEV STEP_NUM.N (13 Table 13-13). -/
def TEV_STEP_NUM : Fld := ⟨0x120, 0x0, 0, 32⟩
/-- TEV LAST_STEP.N (13 Table 13-13). -/
def TEV_LAST_STEP : Fld := ⟨0x124, 0x0, 0, 32⟩
/-- TEV LAST_FLAGS.BITS (13 Table 13-13). -/
def TEV_LAST_FLAGS : Fld := ⟨0x128, 0x0, 0, 7⟩
/-- TEV LAST_DROPPED.N (13 Table 13-13). -/
def TEV_LAST_DROPPED : Fld := ⟨0x12C, 0x0, 0, 20⟩
/-- TEV OVERRUNS.N (13 R553). -/
def TEV_OVERRUNS : Fld := ⟨0x130, 0x0, 0, 32⟩
/-- TEV STEPS.LO (13 Table 13-13). -/
def TEV_STEPS : Fld := ⟨0x140, 0x0, 0, 32⟩
/-- TEV TBL_SEL.GALLERY (13 Table 13-13). -/
def TEV_TBL_SEL_GALLERY : Fld := ⟨0x180, 0x0, 0, 3⟩
/-- TEV TBL_SEL.TABLE (13 Table 13-13). -/
def TEV_TBL_SEL_TABLE : Fld := ⟨0x180, 0x0, 4, 2⟩
/-- TEV TBL_SEL.LIVE (13 Table 13-13). -/
def TEV_TBL_SEL_LIVE : Fld := ⟨0x180, 0x0, 6, 1⟩
/-- TEV TBL_SEL.INDEX (13 Table 13-13). -/
def TEV_TBL_SEL_INDEX : Fld := ⟨0x180, 0x0, 8, 11⟩
/-- TEV TBL_DATA.W (13 Table 13-13). -/
def TEV_TBL_DATA_W : Fld := ⟨0x184, 0x4, 0, 32⟩
/-- TEV TEV_CMD.SWAP (13 R566). -/
def TEV_TEV_CMD_SWAP : Fld := ⟨0x1A0, 0x0, 0, 1⟩
/-- TEV TEV_CMD.COPY_LIVE (13 R566). -/
def TEV_TEV_CMD_COPY_LIVE : Fld := ⟨0x1A0, 0x0, 1, 1⟩
/-- TEV TEV_CMD.CANCEL (13 R566). -/
def TEV_TEV_CMD_CANCEL : Fld := ⟨0x1A0, 0x0, 2, 1⟩
/-- TEV TEV_STATUS.SWAP_PENDING (13 Table 13-13). -/
def TEV_TEV_STATUS_SWAP_PENDING : Fld := ⟨0x1A4, 0x0, 0, 1⟩
/-- TEV TEV_STATUS.SWAP_REJECT (13 Table 13-13). -/
def TEV_TEV_STATUS_SWAP_REJECT : Fld := ⟨0x1A4, 0x0, 1, 1⟩
/-- TEV TEV_STATUS.COPY_BUSY (13 Table 13-13). -/
def TEV_TEV_STATUS_COPY_BUSY : Fld := ⟨0x1A4, 0x0, 2, 1⟩
/-- TEV TEV_STATUS.STATE (13 Table 13-13). -/
def TEV_TEV_STATUS_STATE : Fld := ⟨0x1A4, 0x0, 4, 3⟩
/-- TEV TEV_STATUS.REJECT_CODE (13 Table 13-13). -/
def TEV_TEV_STATUS_REJECT_CODE : Fld := ⟨0x1A4, 0x0, 8, 8⟩

end F

/-- The common registers of Table 3-5. -/
def commonRegs : List RegDef :=
  [⟨0x0, 0x0, 1, false, [⟨0, 32, .ro, 0x0⟩]⟩,
   ⟨0x4, 0x0, 1, false, [⟨0, 6, .ro, 0x0⟩]⟩,
   ⟨0x8, 0x0, 1, false, [⟨0, 1, .rwL, 0x0⟩, ⟨1, 1, .wo, 0x0⟩, ⟨2, 1, .rwL, 0x0⟩]⟩,
   ⟨0xC, 0x0, 1, false, [⟨0, 2, .ro, 0x0⟩, ⟨2, 1, .ro, 0x0⟩, ⟨3, 1, .ro, 0x0⟩]⟩,
   ⟨0x10, 0x0, 1, false, [⟨0, 1, .wo, 0x0⟩, ⟨1, 1, .wo, 0x0⟩]⟩,
   ⟨0x14, 0x0, 1, false, [⟨0, 1, .ro, 0x0⟩, ⟨1, 1, .w1c, 0x0⟩, ⟨2, 1, .w1c, 0x0⟩, ⟨16, 16, .ro, 0x0⟩]⟩,
   ⟨0x20, 0x0, 1, false, [⟨0, 32, .w1c, 0x0⟩]⟩,
   ⟨0x24, 0x0, 1, false, [⟨0, 32, .rwL, 0x0⟩]⟩,
   ⟨0x28, 0x0, 1, false, [⟨0, 5, .ro, 0x0⟩, ⟨31, 1, .ro, 0x0⟩]⟩,
   ⟨0x2C, 0x0, 1, false, [⟨0, 16, .cntS, 0x0⟩]⟩,
   ⟨0x30, 0x0, 1, false, [⟨0, 32, .wo, 0x0⟩]⟩,
   ⟨0x40, 0x0, 1, false, [⟨0, 32, .ro, 0x0⟩]⟩,
   ⟨0x44, 0x0, 1, false, [⟨0, 32, .rwL, 0x0⟩]⟩]

/-- The registers of the BNK page beyond the common ones. -/
def regsBNK : List RegDef :=
  [⟨0x100, 0x0, 1, false, [⟨0, 1, .rwL, 0x1⟩, ⟨16, 16, .rwL, 0x10⟩]⟩,
   ⟨0x110, 0x0, 1, false, [⟨0, 6, .ro, 0x0⟩, ⟨6, 12, .ro, 0x0⟩, ⟨18, 3, .ro, 0x0⟩, ⟨31, 1, .ro, 0x0⟩]⟩,
   ⟨0x114, 0x0, 1, false, [⟨0, 8, .ro, 0x0⟩]⟩,
   ⟨0x118, 0x0, 1, false, [⟨0, 6, .rwL, 0x0⟩, ⟨6, 3, .rwL, 0x0⟩, ⟨9, 7, .rwL, 0x0⟩, ⟨16, 7, .rwL, 0x0⟩, ⟨23, 1, .rwL, 0x0⟩, ⟨31, 1, .rwL, 0x0⟩]⟩,
   ⟨0x11C, 0x0, 1, false, [⟨0, 32, .cntS, 0x0⟩]⟩,
   ⟨0x120, 0x0, 1, false, [⟨0, 32, .cntS, 0x0⟩]⟩,
   ⟨0x124, 0x0, 1, false, [⟨0, 32, .cntS, 0x0⟩]⟩,
   ⟨0x200, 0x4, 64, false, [⟨0, 32, .cntS, 0x0⟩]⟩,
   ⟨0x300, 0x4, 64, false, [⟨0, 16, .cntS, 0x0⟩]⟩]

/-- The registers of the TNK page beyond the common ones. -/
def regsTNK : List RegDef :=
  [⟨0x100, 0x0, 1, false, [⟨0, 1, .rwL, 0x1⟩, ⟨1, 1, .rwL, 0x1⟩, ⟨4, 3, .rwL, 0x0⟩]⟩,
   ⟨0x104, 0x0, 1, false, [⟨0, 16, .rwL, 0x14⟩]⟩,
   ⟨0x108, 0x0, 1, false, [⟨0, 6, .wo, 0x0⟩, ⟨6, 6, .wo, 0x0⟩]⟩,
   ⟨0x10C, 0x0, 1, false, [⟨0, 3, .ro, 0x0⟩, ⟨3, 6, .ro, 0x0⟩, ⟨9, 6, .ro, 0x0⟩, ⟨15, 3, .ro, 0x0⟩, ⟨18, 1, .ro, 0x0⟩]⟩,
   ⟨0x110, 0x0, 1, false, [⟨0, 32, .cntS, 0x0⟩]⟩,
   ⟨0x114, 0x0, 1, false, [⟨0, 16, .cntS, 0x0⟩]⟩,
   ⟨0x118, 0x0, 1, false, [⟨0, 16, .cntS, 0x0⟩]⟩,
   ⟨0x11C, 0x0, 1, false, [⟨0, 6, .ro, 0x0⟩, ⟨6, 12, .ro, 0x0⟩, ⟨18, 5, .ro, 0x0⟩, ⟨23, 1, .ro, 0x0⟩, ⟨31, 1, .ro, 0x0⟩]⟩,
   ⟨0x120, 0x0, 1, false, [⟨0, 6, .rwL, 0x0⟩, ⟨6, 5, .rwL, 0x0⟩]⟩,
   ⟨0x124, 0x0, 1, false, [⟨0, 12, .rwH, 0x0⟩, ⟨12, 1, .rwH, 0x0⟩, ⟨13, 1, .ro, 0x0⟩, ⟨14, 1, .rwH, 0x0⟩]⟩]

/-- The registers of the GSW page beyond the common ones. -/
def regsGSW : List RegDef :=
  [⟨0x100, 0x0, 1, false, [⟨0, 3, .ro, 0x0⟩, ⟨8, 4, .ro, 0x4⟩, ⟨12, 5, .ro, 0x10⟩, ⟨17, 7, .ro, 0x18⟩]⟩,
   ⟨0x104, 0x0, 1, false, [⟨0, 1, .ro, 0x0⟩, ⟨1, 1, .ro, 0x0⟩, ⟨2, 1, .ro, 0x0⟩, ⟨3, 1, .ro, 0x0⟩]⟩,
   ⟨0x110, 0x0, 1, true, [⟨0, 32, .cntW, 0x0⟩]⟩,
   ⟨0x118, 0x0, 1, true, [⟨0, 32, .cntW, 0x0⟩]⟩,
   ⟨0x120, 0x8, 3, true, [⟨0, 32, .cntW, 0x0⟩]⟩,
   ⟨0x140, 0x4, 3, false, [⟨0, 32, .cntS, 0x0⟩]⟩]

/-- The registers of the ARB page beyond the common ones. -/
def regsARB : List RegDef :=
  [⟨0x100, 0x0, 1, false, [⟨0, 1, .rwS, 0x0⟩, ⟨1, 1, .wo, 0x0⟩]⟩,
   ⟨0x104, 0x0, 1, false, [⟨0, 16, .rwS, 0xA⟩]⟩,
   ⟨0x108, 0x0, 1, false, [⟨0, 4, .rwS, 0x2⟩, ⟨8, 4, .rwS, 0x8⟩]⟩,
   ⟨0x10C, 0x0, 1, false, [⟨0, 32, .rwL, 0x0⟩]⟩,
   ⟨0x110, 0x0, 1, false, [⟨0, 16, .rwL, 0x64⟩, ⟨16, 16, .rwL, 0xA⟩]⟩,
   ⟨0x114, 0x0, 1, false, [⟨0, 16, .rwL, 0x64⟩, ⟨16, 2, .rwL, 0x0⟩]⟩,
   ⟨0x118, 0x0, 1, false, [⟨0, 4, .ro, 0x0⟩]⟩,
   ⟨0x120, 0x4, 8, false, [⟨0, 7, .rwS, 0x4⟩, ⟨8, 7, .rwS, 0x40⟩]⟩,
   ⟨0x140, 0x4, 8, false, [⟨0, 6, .rwS, 0x10⟩, ⟨8, 6, .rwS, 0x1⟩, ⟨16, 6, .rwS, 0x3F⟩, ⟨24, 6, .ro, 0x10⟩]⟩,
   ⟨0x160, 0x4, 8, false, [⟨0, 6, .rwS, 0x10⟩, ⟨8, 6, .rwS, 0x1⟩, ⟨16, 6, .rwS, 0x3F⟩, ⟨24, 6, .ro, 0x10⟩]⟩,
   ⟨0x180, 0x4, 8, false, [⟨0, 6, .rwS, 0x10⟩, ⟨8, 6, .rwS, 0x1⟩, ⟨16, 6, .rwS, 0x3F⟩, ⟨24, 6, .ro, 0x10⟩]⟩,
   ⟨0x1A0, 0x0, 1, false, [⟨0, 8, .ro, 0x0⟩, ⟨8, 8, .ro, 0x0⟩, ⟨16, 8, .ro, 0x0⟩]⟩,
   ⟨0x1B0, 0x0, 1, false, [⟨0, 1, .rwL, 0x0⟩, ⟨4, 12, .rwL, 0x7D⟩, ⟨16, 8, .rwL, 0x50⟩, ⟨24, 8, .rwL, 0x40⟩]⟩,
   ⟨0x1B4, 0x4, 2, false, [⟨0, 12, .ro, 0x0⟩, ⟨16, 12, .ro, 0x0⟩]⟩,
   ⟨0x1BC, 0x4, 2, false, [⟨0, 32, .cntS, 0x0⟩]⟩,
   ⟨0x200, 0x8, 8, true, [⟨0, 32, .cntW, 0x0⟩]⟩,
   ⟨0x240, 0x8, 8, true, [⟨0, 32, .cntW, 0x0⟩]⟩,
   ⟨0x280, 0x8, 8, true, [⟨0, 32, .cntW, 0x0⟩]⟩,
   ⟨0x300, 0x4, 8, false, [⟨0, 32, .ro, 0x0⟩]⟩,
   ⟨0x320, 0x4, 8, false, [⟨0, 32, .ro, 0x0⟩]⟩] ++
  [⟨0x340, 0x4, 8, false, [⟨0, 32, .ro, 0x0⟩]⟩,
   ⟨0x360, 0x0, 1, false, [⟨0, 32, .ro, 0x0⟩]⟩,
   ⟨0x380, 0x4, 8, false, [⟨0, 32, .cntS, 0x0⟩]⟩,
   ⟨0x3A0, 0x0, 1, false, [⟨0, 32, .cntS, 0x0⟩]⟩,
   ⟨0x3A4, 0x0, 1, false, [⟨0, 32, .cntS, 0x0⟩]⟩]

/-- The registers of the MOD page beyond the common ones. -/
def regsMOD : List RegDef :=
  [⟨0x100, 0x0, 1, false, [⟨0, 1, .rwL, 0x1⟩, ⟨1, 2, .rwL, 0x2⟩, ⟨3, 1, .rwH, 0x0⟩, ⟨4, 1, .wo, 0x0⟩]⟩,
   ⟨0x104, 0x0, 1, false, [⟨0, 3, .ro, 0x0⟩, ⟨4, 2, .ro, 0x0⟩, ⟨8, 4, .ro, 0x0⟩, ⟨12, 1, .ro, 0x0⟩]⟩,
   ⟨0x108, 0x0, 1, false, [⟨0, 16, .rwL, 0x0⟩]⟩,
   ⟨0x10C, 0x0, 1, false, [⟨0, 24, .rwH, 0xFAC688⟩]⟩,
   ⟨0x110, 0x0, 1, false, [⟨0, 16, .rwL, 0x64⟩, ⟨16, 16, .rwL, 0x0⟩]⟩,
   ⟨0x114, 0x0, 1, false, [⟨0, 16, .rwL, 0x3E8⟩]⟩,
   ⟨0x118, 0x0, 1, false, [⟨0, 8, .ro, 0x0⟩, ⟨8, 8, .ro, 0x0⟩]⟩,
   ⟨0x11C, 0x0, 1, false, [⟨0, 7, .ro, 0x0⟩, ⟨8, 3, .ro, 0x0⟩, ⟨31, 1, .ro, 0x0⟩]⟩,
   ⟨0x120, 0x0, 1, false, [⟨0, 32, .ro, 0x0⟩]⟩,
   ⟨0x124, 0x0, 1, false, [⟨0, 32, .ro, 0x0⟩]⟩,
   ⟨0x128, 0x0, 1, false, [⟨0, 4, .ro, 0x0⟩, ⟨8, 8, .ro, 0x0⟩, ⟨16, 4, .ro, 0x0⟩, ⟨20, 12, .ro, 0x0⟩]⟩,
   ⟨0x12C, 0x0, 1, false, [⟨0, 10, .ro, 0x0⟩, ⟨16, 10, .ro, 0x0⟩]⟩,
   ⟨0x130, 0x0, 1, false, [⟨0, 10, .ro, 0x0⟩]⟩,
   ⟨0x140, 0x8, 8, false, [⟨0, 8, .ro, 0x0⟩, ⟨8, 8, .ro, 0x0⟩, ⟨16, 8, .ro, 0x0⟩]⟩,
   ⟨0x144, 0x8, 8, false, [⟨0, 12, .ro, 0x0⟩]⟩,
   ⟨0x200, 0x0, 1, true, [⟨0, 32, .cntW, 0x0⟩]⟩,
   ⟨0x208, 0x0, 1, true, [⟨0, 32, .cntW, 0x0⟩]⟩,
   ⟨0x210, 0x0, 1, false, [⟨0, 32, .cntS, 0x0⟩]⟩,
   ⟨0x214, 0x0, 1, false, [⟨0, 32, .cntS, 0x0⟩]⟩,
   ⟨0x218, 0x0, 1, false, [⟨0, 16, .cntS, 0x0⟩]⟩] ++
  [⟨0x21C, 0x0, 1, false, [⟨0, 32, .cntS, 0x0⟩]⟩,
   ⟨0x220, 0x0, 1, false, [⟨0, 32, .cntS, 0x0⟩]⟩,
   ⟨0x224, 0x0, 1, false, [⟨0, 16, .cntS, 0x0⟩]⟩]

/-- The registers of the HC page beyond the common ones. -/
def regsHC : List RegDef :=
  [⟨0x100, 0x0, 1, false, [⟨0, 2, .rwH, 0x2⟩, ⟨2, 1, .rwL, 0x1⟩, ⟨3, 1, .rwL, 0x1⟩, ⟨4, 1, .rwL, 0x1⟩, ⟨8, 1, .wo, 0x0⟩, ⟨9, 1, .wo, 0x0⟩]⟩,
   ⟨0x104, 0x0, 1, false, [⟨0, 1, .rwH, 0x1⟩]⟩,
   ⟨0x108, 0x0, 1, false, [⟨0, 4, .rwL, 0x4⟩, ⟨4, 10, .rwL, 0x40⟩, ⟨16, 16, .rwL, 0xC80⟩]⟩,
   ⟨0x10C, 0x0, 1, false, [⟨0, 8, .rwL, 0x10⟩, ⟨8, 3, .rwL, 0x0⟩]⟩,
   ⟨0x110, 0x0, 1, false, [⟨0, 3, .ro, 0x0⟩, ⟨4, 2, .ro, 0x0⟩, ⟨6, 2, .ro, 0x0⟩, ⟨8, 1, .ro, 0x0⟩, ⟨16, 8, .ro, 0x0⟩]⟩,
   ⟨0x114, 0x0, 1, false, [⟨0, 8, .ro, 0x0⟩, ⟨8, 3, .ro, 0x0⟩, ⟨31, 1, .ro, 0x0⟩]⟩,
   ⟨0x118, 0x0, 1, false, [⟨0, 8, .rwL, 0x5F⟩]⟩,
   ⟨0x11C, 0x0, 1, false, [⟨0, 12, .ro, 0x0⟩, ⟨16, 3, .ro, 0x0⟩]⟩,
   ⟨0x120, 0x0, 1, false, [⟨0, 32, .ro, 0x0⟩]⟩,
   ⟨0x124, 0x0, 1, false, [⟨0, 4, .ro, 0x0⟩, ⟨8, 3, .ro, 0x0⟩, ⟨16, 8, .ro, 0x0⟩, ⟨24, 1, .ro, 0x0⟩, ⟨31, 1, .ro, 0x0⟩]⟩,
   ⟨0x128, 0x0, 1, false, [⟨0, 5, .rwL, 0x0⟩, ⟨5, 1, .rwL, 0x0⟩, ⟨6, 3, .rwL, 0x0⟩, ⟨9, 7, .rwL, 0x0⟩, ⟨16, 7, .rwL, 0x0⟩, ⟨23, 1, .rwL, 0x0⟩, ⟨31, 1, .rwL, 0x0⟩]⟩,
   ⟨0x12C, 0x0, 1, false, [⟨0, 32, .ro, 0x0⟩]⟩,
   ⟨0x130, 0x0, 1, false, [⟨0, 32, .ro, 0x0⟩]⟩,
   ⟨0x200, 0x0, 1, true, [⟨0, 32, .cntW, 0x0⟩]⟩,
   ⟨0x208, 0x0, 1, true, [⟨0, 32, .cntW, 0x0⟩]⟩,
   ⟨0x210, 0x0, 1, true, [⟨0, 32, .cntW, 0x0⟩]⟩,
   ⟨0x218, 0x0, 1, true, [⟨0, 32, .cntW, 0x0⟩]⟩,
   ⟨0x220, 0x0, 1, false, [⟨0, 32, .cntS, 0x0⟩]⟩,
   ⟨0x224, 0x0, 1, false, [⟨0, 16, .cntS, 0x0⟩]⟩,
   ⟨0x228, 0x0, 1, false, [⟨0, 32, .cntS, 0x0⟩]⟩] ++
  [⟨0x22C, 0x0, 1, false, [⟨0, 16, .cntS, 0x0⟩]⟩,
   ⟨0x230, 0x0, 1, false, [⟨0, 16, .cntS, 0x0⟩]⟩,
   ⟨0x234, 0x0, 1, false, [⟨0, 16, .cntS, 0x0⟩]⟩,
   ⟨0x238, 0x0, 1, false, [⟨0, 16, .cntS, 0x0⟩]⟩,
   ⟨0x23C, 0x0, 1, false, [⟨0, 32, .cntS, 0x0⟩]⟩,
   ⟨0x240, 0x0, 1, false, [⟨0, 32, .cntS, 0x0⟩]⟩,
   ⟨0x244, 0x0, 1, false, [⟨0, 16, .cntS, 0x0⟩]⟩]

/-- The registers of the ENG page beyond the common ones. -/
def regsENG : List RegDef :=
  [⟨0x100, 0x8, 8, false, [⟨0, 1, .rwL, 0x0⟩, ⟨4, 4, .rwH, 0x0⟩, ⟨8, 3, .rwH, 0x1⟩, ⟨11, 1, .rwS, 0x1⟩]⟩,
   ⟨0x104, 0x8, 8, false, [⟨12, 15, .rwH, 0x0⟩]⟩,
   ⟨0x140, 0x4, 8, false, [⟨0, 4, .rwS, 0xF⟩, ⟨8, 8, .rwS, 0xFF⟩]⟩,
   ⟨0x160, 0x0, 1, false, [⟨0, 4, .ro, 0x0⟩, ⟨4, 6, .ro, 0x0⟩, ⟨16, 9, .ro, 0x0⟩]⟩,
   ⟨0x200, 0x0, 1, true, [⟨0, 32, .cntW, 0x0⟩]⟩,
   ⟨0x208, 0x0, 1, true, [⟨0, 32, .cntW, 0x0⟩]⟩,
   ⟨0x210, 0x0, 1, true, [⟨0, 32, .cntW, 0x0⟩]⟩,
   ⟨0x218, 0x0, 1, false, [⟨0, 32, .cntS, 0x0⟩]⟩,
   ⟨0x21C, 0x0, 1, false, [⟨0, 32, .cntS, 0x0⟩]⟩,
   ⟨0x220, 0x0, 1, false, [⟨0, 32, .cntS, 0x0⟩]⟩,
   ⟨0x224, 0x0, 1, false, [⟨0, 32, .cntS, 0x0⟩]⟩,
   ⟨0x228, 0x0, 1, false, [⟨0, 32, .cntS, 0x0⟩]⟩,
   ⟨0x22C, 0x0, 1, false, [⟨0, 32, .cntS, 0x0⟩]⟩,
   ⟨0x230, 0x0, 1, false, [⟨0, 32, .cntS, 0x0⟩]⟩,
   ⟨0x234, 0x0, 1, false, [⟨0, 32, .cntS, 0x0⟩]⟩]

/-- The registers of the ERP page beyond the common ones. -/
def regsERP : List RegDef :=
  [⟨0x100, 0x0, 1, false, [⟨0, 1, .rwL, 0x1⟩, ⟨16, 16, .rwL, 0x0⟩]⟩,
   ⟨0x104, 0x0, 1, false, [⟨0, 6, .ro, 0x0⟩, ⟨8, 5, .ro, 0x0⟩]⟩,
   ⟨0x200, 0x0, 1, true, [⟨0, 32, .cntW, 0x0⟩]⟩,
   ⟨0x208, 0x0, 1, false, [⟨0, 32, .cntS, 0x0⟩]⟩,
   ⟨0x20C, 0x0, 1, false, [⟨0, 32, .cntS, 0x0⟩]⟩,
   ⟨0x210, 0x0, 1, false, [⟨0, 32, .cntS, 0x0⟩]⟩,
   ⟨0x214, 0x0, 1, false, [⟨0, 32, .cntS, 0x0⟩]⟩]

/-- The registers of the FMN page beyond the common ones. -/
def regsFMN : List RegDef :=
  [⟨0x100, 0x10, 8, false, [⟨0, 6, .rwH, 0x0⟩, ⟨6, 1, .rwL, 0x0⟩, ⟨7, 3, .rwL, 0x0⟩, ⟨10, 4, .rwH, 0x6⟩, ⟨14, 1, .rwL, 0x1⟩]⟩,
   ⟨0x104, 0x10, 8, false, [⟨12, 20, .rwH, 0x0⟩]⟩,
   ⟨0x108, 0x10, 8, false, [⟨0, 16, .rwH, 0x0⟩]⟩,
   ⟨0x10C, 0x10, 8, false, [⟨0, 3, .ro, 0x0⟩, ⟨4, 5, .ro, 0x0⟩, ⟨16, 6, .ro, 0x0⟩]⟩,
   ⟨0x180, 0x0, 1, false, [⟨0, 7, .ro, 0x0⟩]⟩,
   ⟨0x200, 0x0, 1, true, [⟨0, 32, .cntW, 0x0⟩]⟩,
   ⟨0x208, 0x0, 1, false, [⟨0, 32, .cntS, 0x0⟩]⟩,
   ⟨0x20C, 0x0, 1, false, [⟨0, 32, .cntS, 0x0⟩]⟩,
   ⟨0x210, 0x0, 1, false, [⟨0, 32, .cntS, 0x0⟩]⟩,
   ⟨0x214, 0x0, 1, false, [⟨0, 32, .cntS, 0x0⟩]⟩,
   ⟨0x218, 0x0, 1, false, [⟨0, 32, .cntS, 0x0⟩]⟩]

/-- The registers of the MIX page beyond the common ones. -/
def regsMIX : List RegDef :=
  [⟨0x100, 0x0, 1, false, [⟨0, 8, .wo, 0x0⟩]⟩,
   ⟨0x104, 0x0, 1, false, [⟨0, 8, .ro, 0xFF⟩, ⟨8, 8, .ro, 0x0⟩]⟩,
   ⟨0x110, 0x0, 1, false, [⟨0, 32, .rwL, 0x0⟩]⟩,
   ⟨0x114, 0x0, 1, false, [⟨0, 32, .rwL, 0x0⟩]⟩,
   ⟨0x118, 0x0, 1, false, [⟨0, 32, .rwL, 0x0⟩]⟩,
   ⟨0x11C, 0x0, 1, false, [⟨0, 32, .rwL, 0x0⟩]⟩,
   ⟨0x120, 0x0, 1, false, [⟨0, 32, .rwL, 0x0⟩]⟩,
   ⟨0x124, 0x0, 1, false, [⟨0, 8, .rwL, 0x0⟩, ⟨8, 1, .rwL, 0x0⟩, ⟨9, 1, .rwL, 0x0⟩, ⟨10, 4, .rwL, 0x0⟩]⟩,
   ⟨0x128, 0x0, 1, false, [⟨0, 1, .wo, 0x0⟩]⟩,
   ⟨0x12C, 0x0, 1, false, [⟨0, 1, .ro, 0x0⟩, ⟨1, 1, .w1c, 0x0⟩, ⟨16, 16, .ro, 0x0⟩]⟩,
   ⟨0x130, 0x4, 4, false, [⟨0, 32, .ro, 0x0⟩]⟩,
   ⟨0x140, 0x4, 4, false, [⟨0, 32, .ro, 0x0⟩]⟩,
   ⟨0x150, 0x4, 4, false, [⟨0, 32, .ro, 0x0⟩]⟩,
   ⟨0x160, 0x0, 1, false, [⟨0, 11, .rwL, 0x1⟩]⟩,
   ⟨0x164, 0x0, 1, false, [⟨0, 32, .ro, 0x0⟩]⟩,
   ⟨0x200, 0x0, 1, true, [⟨0, 32, .cntW, 0x0⟩]⟩,
   ⟨0x208, 0x0, 1, false, [⟨0, 16, .cntS, 0x0⟩]⟩,
   ⟨0x20C, 0x0, 1, false, [⟨0, 32, .cntS, 0x0⟩]⟩]

/-- The registers of the CRY page beyond the common ones. -/
def regsCRY : List RegDef :=
  [⟨0x100, 0x0, 1, false, [⟨12, 15, .rwH, 0x0⟩]⟩,
   ⟨0x104, 0x0, 1, false, [⟨0, 16, .rwH, 0x0⟩]⟩,
   ⟨0x108, 0x0, 1, false, [⟨12, 15, .rwH, 0x0⟩]⟩,
   ⟨0x10C, 0x0, 1, false, [⟨0, 8, .rwH, 0x0⟩]⟩,
   ⟨0x110, 0x0, 1, false, [⟨0, 3, .ro, 0x0⟩, ⟨8, 17, .ro, 0x0⟩]⟩,
   ⟨0x200, 0x0, 1, true, [⟨0, 32, .cntW, 0x0⟩]⟩,
   ⟨0x208, 0x0, 1, true, [⟨0, 32, .cntW, 0x0⟩]⟩,
   ⟨0x210, 0x0, 1, false, [⟨0, 32, .cntS, 0x0⟩]⟩,
   ⟨0x214, 0x0, 1, false, [⟨0, 32, .cntS, 0x0⟩]⟩,
   ⟨0x218, 0x0, 1, false, [⟨0, 32, .cntS, 0x0⟩]⟩,
   ⟨0x21C, 0x0, 1, false, [⟨0, 32, .cntS, 0x0⟩]⟩,
   ⟨0x220, 0x0, 1, false, [⟨0, 32, .cntS, 0x0⟩]⟩,
   ⟨0x224, 0x0, 1, false, [⟨0, 32, .cntS, 0x0⟩]⟩,
   ⟨0x228, 0x0, 1, false, [⟨0, 16, .cntS, 0x0⟩]⟩]

/-- The registers of the STW page beyond the common ones. -/
def regsSTW : List RegDef :=
  [⟨0x100, 0x0, 1, false, [⟨0, 32, .ro, 0x0⟩]⟩,
   ⟨0x104, 0x0, 1, false, [⟨0, 1, .rwL, 0x0⟩]⟩,
   ⟨0x108, 0x0, 1, false, [⟨0, 1, .rwL, 0x0⟩, ⟨5, 3, .rwL, 0x0⟩, ⟨8, 5, .rwL, 0x4⟩]⟩,
   ⟨0x10C, 0x0, 1, false, [⟨5, 27, .rwL, 0x0⟩]⟩,
   ⟨0x110, 0x0, 1, false, [⟨0, 16, .rwL, 0x0⟩]⟩,
   ⟨0x114, 0x0, 1, false, [⟨0, 32, .ro, 0x0⟩]⟩,
   ⟨0x118, 0x0, 1, false, [⟨0, 32, .rwL, 0x0⟩]⟩,
   ⟨0x11C, 0x0, 1, false, [⟨0, 7, .ro, 0x0⟩]⟩,
   ⟨0x120, 0x0, 1, false, [⟨0, 32, .cntS, 0x0⟩]⟩,
   ⟨0x124, 0x0, 1, false, [⟨0, 32, .cntS, 0x0⟩]⟩,
   ⟨0x128, 0x0, 1, false, [⟨0, 3, .ro, 0x0⟩]⟩,
   ⟨0x130, 0x0, 1, false, [⟨0, 9, .ro, 0x0⟩]⟩,
   ⟨0x140, 0x4, 72, false, [⟨0, 32, .ro, 0x0⟩]⟩]

/-- The registers of the CTX page beyond the common ones. -/
def regsCTX : List RegDef :=
  [⟨0x100, 0x0, 1, false, [⟨0, 4, .wo, 0x0⟩, ⟨4, 2, .wo, 0x0⟩]⟩,
   ⟨0x104, 0x0, 1, false, [⟨0, 16, .ro, 0x0⟩]⟩,
   ⟨0x140, 0x4, 16, false, [⟨0, 2, .ro, 0x0⟩, ⟨16, 16, .ro, 0x0⟩]⟩]

/-- The registers of the DBG page beyond the common ones. -/
def regsDBG : List RegDef :=
  [⟨0x100, 0x0, 1, false, [⟨0, 1, .wo, 0x0⟩, ⟨1, 1, .rwL, 0x0⟩, ⟨24, 8, .wo, 0x0⟩]⟩,
   ⟨0x104, 0x0, 1, false, [⟨0, 1, .ro, 0x0⟩, ⟨1, 1, .w1c, 0x0⟩]⟩,
   ⟨0x110, 0x0, 1, false, [⟨0, 1, .rwL, 0x0⟩, ⟨1, 1, .rwL, 0x0⟩, ⟨2, 1, .rwL, 0x1⟩]⟩,
   ⟨0x114, 0x4, 4, false, [⟨0, 4, .rwL, 0x0⟩, ⟨4, 8, .rwL, 0x0⟩, ⟨12, 4, .rwL, 0x0⟩, ⟨16, 1, .rwL, 0x1⟩]⟩,
   ⟨0x130, 0x0, 1, false, [⟨0, 12, .ro, 0x0⟩]⟩,
   ⟨0x134, 0x0, 1, false, [⟨0, 32, .cntS, 0x0⟩]⟩,
   ⟨0x138, 0x0, 1, false, [⟨0, 12, .rwL, 0x0⟩]⟩,
   ⟨0x140, 0x4, 4, false, [⟨0, 32, .ro, 0x0⟩]⟩]

/-- The registers of the TBS page beyond the common ones. -/
def regsTBS : List RegDef :=
  [⟨0x100, 0x0, 1, false, [⟨0, 1, .rwL, 0x0⟩, ⟨1, 2, .rwL, 0x0⟩, ⟨8, 8, .rwL, 0x32⟩, ⟨16, 10, .rwL, 0xC8⟩]⟩,
   ⟨0x104, 0x0, 1, false, [⟨0, 1, .ro, 0x0⟩, ⟨1, 1, .ro, 0x0⟩, ⟨2, 2, .ro, 0x0⟩, ⟨4, 2, .ro, 0x0⟩, ⟨6, 2, .ro, 0x0⟩, ⟨8, 1, .ro, 0x0⟩, ⟨9, 1, .ro, 0x0⟩]⟩,
   ⟨0x108, 0x0, 1, false, [⟨0, 16, .ro, 0x0⟩]⟩,
   ⟨0x10C, 0x0, 1, false, [⟨0, 16, .ro, 0x0⟩]⟩,
   ⟨0x110, 0x0, 1, false, [⟨0, 16, .ro, 0x0⟩]⟩,
   ⟨0x114, 0x0, 1, false, [⟨0, 16, .cntS, 0x0⟩]⟩,
   ⟨0x118, 0x0, 1, false, [⟨0, 32, .cntS, 0x0⟩]⟩,
   ⟨0x120, 0x0, 1, false, [⟨0, 32, .ro, 0x0⟩]⟩,
   ⟨0x124, 0x0, 1, false, [⟨0, 32, .ro, 0x0⟩]⟩,
   ⟨0x128, 0x0, 1, false, [⟨0, 16, .ro, 0x0⟩]⟩,
   ⟨0x130, 0x0, 1, false, [⟨0, 32, .rwL, 0x0⟩]⟩,
   ⟨0x134, 0x0, 1, false, [⟨0, 32, .rwL, 0x0⟩]⟩,
   ⟨0x138, 0x0, 1, false, [⟨0, 16, .rwL, 0x0⟩]⟩,
   ⟨0x13C, 0x0, 1, false, [⟨0, 2, .wo, 0x0⟩]⟩,
   ⟨0x140, 0x0, 1, false, [⟨0, 1, .ro, 0x0⟩, ⟨1, 1, .w1c, 0x0⟩, ⟨2, 1, .w1c, 0x0⟩, ⟨3, 1, .w1c, 0x0⟩, ⟨4, 1, .ro, 0x1⟩, ⟨5, 1, .w1c, 0x0⟩]⟩,
   ⟨0x144, 0x0, 1, false, [⟨0, 32, .rwL, 0x0⟩]⟩,
   ⟨0x148, 0x0, 1, true, [⟨0, 32, .cntW, 0x0⟩]⟩,
   ⟨0x160, 0x4, 8, false, [⟨0, 16, .ro, 0x0⟩, ⟨31, 1, .ro, 0x0⟩]⟩,
   ⟨0x180, 0x4, 8, false, [⟨0, 16, .ro, 0x0⟩]⟩,
   ⟨0x1A0, 0x0, 1, false, [⟨0, 16, .ro, 0x0⟩, ⟨31, 1, .ro, 0x0⟩]⟩] ++
  [⟨0x1A4, 0x0, 1, false, [⟨0, 16, .rwL, 0x5140⟩]⟩,
   ⟨0x1A8, 0x0, 1, false, [⟨0, 1, .wo, 0x0⟩]⟩]

/-- The registers of the MMAP page beyond the common ones. -/
def regsMMAP : List RegDef :=
  [⟨0x100, 0x0, 1, false, [⟨0, 1, .rwH, 0x0⟩]⟩,
   ⟨0x104, 0x0, 1, false, [⟨0, 18, .rwH, 0x9249⟩]⟩,
   ⟨0x108, 0x0, 1, false, [⟨0, 18, .rwH, 0x12492⟩]⟩,
   ⟨0x10C, 0x0, 1, false, [⟨0, 18, .rwH, 0x24924⟩]⟩,
   ⟨0x110, 0x4, 8, false, [⟨0, 8, .ro, 0x0⟩, ⟨8, 1, .ro, 0x0⟩]⟩,
   ⟨0x130, 0x0, 1, false, [⟨0, 10, .ro, 0x0⟩]⟩,
   ⟨0x140, 0x8, 16, false, [⟨12, 20, .rwL, 0x0⟩]⟩,
   ⟨0x144, 0x8, 16, false, [⟨0, 16, .rwL, 0x0⟩]⟩,
   ⟨0x1C0, 0x0, 1, false, [⟨0, 4, .wo, 0x0⟩, ⟨4, 2, .wo, 0x0⟩]⟩,
   ⟨0x1C4, 0x0, 1, false, [⟨16, 16, .rwL, 0x0⟩]⟩,
   ⟨0x1C8, 0x0, 1, false, [⟨0, 16, .rwL, 0x0⟩]⟩,
   ⟨0x1CC, 0x0, 1, false, [⟨0, 32, .rwL, 0x0⟩]⟩,
   ⟨0x1D0, 0x0, 1, false, [⟨0, 1, .ro, 0x0⟩, ⟨1, 1, .w1c, 0x0⟩]⟩,
   ⟨0x200, 0x4, 8, false, [⟨0, 32, .cntS, 0x0⟩]⟩,
   ⟨0x220, 0x4, 8, false, [⟨0, 32, .cntS, 0x0⟩]⟩,
   ⟨0x240, 0x4, 8, false, [⟨0, 32, .cntS, 0x0⟩]⟩,
   ⟨0x260, 0x4, 8, false, [⟨0, 32, .cntS, 0x0⟩]⟩]

/-- The registers of the VTC page beyond the common ones. -/
def regsVTC : List RegDef :=
  [⟨0x100, 0x4, 16, false, [⟨0, 4, .rwL, 0x0⟩, ⟨4, 4, .rwL, 0x0⟩, ⟨8, 1, .rwL, 0x0⟩]⟩,
   ⟨0x140, 0x0, 1, false, [⟨0, 32, .cntS, 0x0⟩]⟩]

/-- The registers of the THL page beyond the common ones. -/
def regsTHL : List RegDef :=
  [⟨0x100, 0x4, 16, false, [⟨0, 7, .rwS, 0x0⟩, ⟨8, 8, .rwS, 0x0⟩]⟩,
   ⟨0x140, 0x4, 64, false, [⟨0, 13, .rwS, 0x0⟩, ⟨13, 1, .rwS, 0x0⟩, ⟨14, 4, .rwS, 0x0⟩, ⟨19, 13, .rwS, 0x0⟩]⟩,
   ⟨0x240, 0x4, 16, false, [⟨0, 32, .rwL, 0x186A0⟩]⟩,
   ⟨0x280, 0x0, 1, false, [⟨0, 32, .rwL, 0x3E8⟩]⟩,
   ⟨0x284, 0x0, 1, false, [⟨0, 16, .rwL, 0x14⟩]⟩,
   ⟨0x288, 0x0, 1, false, [⟨0, 7, .ro, 0x0⟩, ⟨8, 12, .ro, 0x0⟩, ⟨20, 9, .ro, 0x0⟩]⟩,
   ⟨0x28C, 0x0, 1, false, [⟨0, 16, .ro, 0x0⟩]⟩,
   ⟨0x300, 0x0, 1, true, [⟨0, 32, .cntW, 0x0⟩]⟩,
   ⟨0x308, 0x0, 1, false, [⟨0, 32, .cntS, 0x0⟩]⟩,
   ⟨0x30C, 0x0, 1, false, [⟨0, 32, .cntS, 0x0⟩]⟩,
   ⟨0x310, 0x0, 1, false, [⟨0, 32, .cntS, 0x0⟩]⟩,
   ⟨0x314, 0x0, 1, false, [⟨0, 16, .cntS, 0x0⟩]⟩,
   ⟨0x318, 0x0, 1, false, [⟨0, 16, .cntS, 0x0⟩]⟩,
   ⟨0x31C, 0x0, 1, false, [⟨0, 32, .cntS, 0x0⟩]⟩,
   ⟨0x320, 0x0, 1, false, [⟨0, 32, .cntS, 0x0⟩]⟩,
   ⟨0x324, 0x0, 1, false, [⟨0, 32, .cntS, 0x0⟩]⟩,
   ⟨0x328, 0x0, 1, false, [⟨0, 32, .cntS, 0x0⟩]⟩,
   ⟨0x32C, 0x0, 1, false, [⟨0, 32, .cntS, 0x0⟩]⟩]

/-- The registers of the EVM page beyond the common ones. -/
def regsEVM : List RegDef :=
  [⟨0x100, 0x0, 1, false, [⟨0, 1, .rwH, 0x0⟩, ⟨1, 4, .rwH, 0x0⟩, ⟨5, 3, .rwH, 0x0⟩]⟩]

/-- The registers of the TWN page beyond the common ones. -/
def regsTWN : List RegDef :=
  [⟨0x100, 0x0, 1, false, [⟨0, 1, .rwL, 0x0⟩, ⟨16, 16, .rwL, 0x32⟩]⟩,
   ⟨0x104, 0x0, 1, false, [⟨0, 1, .wo, 0x0⟩, ⟨1, 1, .wo, 0x0⟩]⟩,
   ⟨0x108, 0x0, 1, false, [⟨0, 3, .ro, 0x0⟩, ⟨3, 1, .ro, 0x0⟩, ⟨4, 1, .ro, 0x0⟩, ⟨5, 3, .ro, 0x0⟩, ⟨8, 2, .ro, 0x0⟩, ⟨10, 1, .ro, 0x0⟩, ⟨11, 1, .ro, 0x0⟩]⟩,
   ⟨0x10C, 0x0, 1, false, [⟨0, 12, .rwL, 0x7D0⟩, ⟨12, 3, .rwL, 0x0⟩]⟩,
   ⟨0x110, 0x0, 1, false, [⟨0, 32, .ro, 0x0⟩]⟩,
   ⟨0x114, 0x0, 1, false, [⟨0, 32, .ro, 0x0⟩]⟩,
   ⟨0x118, 0x0, 1, false, [⟨0, 32, .ro, 0x0⟩]⟩,
   ⟨0x140, 0x8, 16, false, [⟨0, 32, .rwL, 0x0⟩]⟩,
   ⟨0x144, 0x8, 16, false, [⟨0, 24, .rwL, 0x0⟩, ⟨30, 1, .ro, 0x0⟩, ⟨31, 1, .rwL, 0x0⟩]⟩,
   ⟨0x1C0, 0x0, 1, false, [⟨0, 10, .rwL, 0x0⟩]⟩,
   ⟨0x1C4, 0x0, 1, false, [⟨0, 32, .ro, 0x0⟩]⟩,
   ⟨0x1C8, 0x0, 1, false, [⟨0, 4, .ro, 0x0⟩, ⟨4, 2, .ro, 0x0⟩, ⟨6, 7, .ro, 0x0⟩, ⟨13, 9, .ro, 0x0⟩, ⟨22, 4, .ro, 0x0⟩, ⟨31, 1, .ro, 0x0⟩]⟩,
   ⟨0x200, 0x0, 1, true, [⟨0, 32, .cntW, 0x0⟩]⟩,
   ⟨0x208, 0x0, 1, true, [⟨0, 32, .cntW, 0x0⟩]⟩,
   ⟨0x210, 0x0, 1, false, [⟨0, 32, .cntS, 0x0⟩]⟩,
   ⟨0x214, 0x0, 1, false, [⟨0, 16, .cntS, 0x0⟩]⟩,
   ⟨0x218, 0x0, 1, false, [⟨0, 16, .cntS, 0x0⟩]⟩]

/-- The registers of the PRS page beyond the common ones. -/
def regsPRS : List RegDef :=
  [⟨0x100, 0x0, 1, false, [⟨0, 1, .rwL, 0x0⟩, ⟨1, 1, .rwL, 0x1⟩, ⟨2, 1, .rwL, 0x1⟩]⟩,
   ⟨0x104, 0x0, 1, false, [⟨0, 11, .rwL, 0x140⟩]⟩,
   ⟨0x108, 0x0, 1, false, [⟨0, 32, .rwS, 0x88888888⟩]⟩,
   ⟨0x10C, 0x0, 1, false, [⟨0, 6, .rwS, 0x10⟩, ⟨8, 7, .rwS, 0x10⟩]⟩,
   ⟨0x110, 0x0, 1, false, [⟨0, 12, .rwS, 0x5A⟩]⟩,
   ⟨0x114, 0x0, 1, false, [⟨0, 16, .rwS, 0x1000⟩]⟩,
   ⟨0x118, 0x0, 1, false, [⟨0, 10, .rwS, 0x226⟩, ⟨16, 10, .rwS, 0x384⟩]⟩,
   ⟨0x11C, 0x0, 1, false, [⟨0, 10, .rwS, 0x2EE⟩, ⟨24, 4, .rwS, 0x8⟩]⟩,
   ⟨0x120, 0x0, 1, false, [⟨0, 10, .ro, 0x0⟩, ⟨16, 10, .ro, 0x0⟩, ⟨31, 1, .ro, 0x0⟩]⟩,
   ⟨0x124, 0x0, 1, false, [⟨0, 16, .ro, 0x0⟩]⟩,
   ⟨0x128, 0x0, 1, false, [⟨0, 8, .ro, 0x40⟩]⟩,
   ⟨0x12C, 0x0, 1, false, [⟨0, 18, .ro, 0x0⟩]⟩,
   ⟨0x130, 0x0, 1, false, [⟨0, 18, .ro, 0x0⟩]⟩,
   ⟨0x140, 0x4, 8, false, [⟨0, 18, .ro, 0x0⟩]⟩,
   ⟨0x160, 0x4, 8, false, [⟨0, 17, .ro, 0x0⟩]⟩,
   ⟨0x180, 0x4, 8, false, [⟨0, 12, .ro, 0x0⟩, ⟨16, 12, .ro, 0x0⟩]⟩,
   ⟨0x1A0, 0x0, 1, false, [⟨0, 16, .ro, 0x0⟩]⟩,
   ⟨0x1A4, 0x0, 1, false, [⟨0, 18, .ro, 0x0⟩]⟩,
   ⟨0x1C0, 0x0, 1, false, [⟨0, 8, .rwS, 0x5F⟩, ⟨8, 8, .rwS, 0x69⟩, ⟨16, 8, .rwS, 0x73⟩, ⟨24, 4, .rwS, 0x4⟩]⟩,
   ⟨0x1C4, 0x0, 1, false, [⟨0, 10, .rwS, 0x32⟩]⟩] ++
  [⟨0x1C8, 0x0, 1, false, [⟨0, 6, .rwS, 0x20⟩, ⟨8, 6, .rwS, 0x4⟩, ⟨16, 10, .rwS, 0x28A⟩]⟩,
   ⟨0x1CC, 0x0, 1, false, [⟨0, 8, .rwS, 0x64⟩, ⟨8, 6, .rwS, 0x20⟩]⟩,
   ⟨0x200, 0x4, 17, false, [⟨0, 12, .ro, 0x0⟩, ⟨12, 3, .ro, 0x0⟩, ⟨15, 1, .ro, 0x0⟩]⟩,
   ⟨0x248, 0x0, 1, false, [⟨0, 16, .ro, 0x0⟩, ⟨16, 1, .ro, 0x0⟩, ⟨24, 8, .ro, 0x0⟩]⟩,
   ⟨0x300, 0x4, 8, false, [⟨0, 32, .cntS, 0x0⟩]⟩,
   ⟨0x320, 0x4, 8, false, [⟨0, 32, .cntS, 0x0⟩]⟩,
   ⟨0x340, 0x0, 1, false, [⟨0, 16, .cntS, 0x0⟩]⟩,
   ⟨0x348, 0x0, 1, true, [⟨0, 32, .cntW, 0x0⟩]⟩,
   ⟨0x350, 0x0, 1, true, [⟨0, 32, .cntW, 0x0⟩]⟩,
   ⟨0x358, 0x0, 1, false, [⟨0, 32, .cntS, 0x0⟩]⟩]

/-- The registers of the BOOT page beyond the common ones. -/
def regsBOOT : List RegDef :=
  [⟨0x100, 0x0, 1, false, [⟨0, 3, .ro, 0x0⟩, ⟨3, 1, .ro, 0x0⟩, ⟨4, 2, .ro, 0x0⟩]⟩,
   ⟨0x104, 0x0, 1, false, [⟨0, 1, .wo, 0x0⟩]⟩,
   ⟨0x108, 0x0, 1, false, [⟨0, 16, .ro, 0x0⟩]⟩,
   ⟨0x10C, 0x0, 1, false, [⟨0, 8, .ro, 0x0⟩, ⟨8, 8, .ro, 0x0⟩]⟩,
   ⟨0x110, 0x0, 1, false, [⟨0, 1, .ro, 0x0⟩, ⟨1, 1, .ro, 0x0⟩, ⟨2, 1, .ro, 0x0⟩, ⟨3, 1, .ro, 0x0⟩]⟩,
   ⟨0x120, 0x4, 6, false, [⟨0, 32, .ro, 0x0⟩]⟩,
   ⟨0x140, 0x0, 1, false, [⟨0, 32, .cntS, 0x0⟩]⟩,
   ⟨0x144, 0x0, 1, false, [⟨0, 32, .ro, 0x0⟩]⟩]

/-- The registers of the TDB page beyond the common ones. -/
def regsTDB : List RegDef :=
  [⟨0x100, 0x10, 4, false, [⟨0, 16, .rwL, 0x0⟩]⟩,
   ⟨0x104, 0x10, 4, false, [⟨0, 16, .ro, 0x0⟩, ⟨16, 16, .ro, 0x0⟩]⟩,
   ⟨0x108, 0x10, 4, false, [⟨0, 3, .ro, 0x0⟩, ⟨3, 1, .ro, 0x0⟩, ⟨4, 4, .ro, 0x0⟩, ⟨8, 8, .ro, 0x0⟩, ⟨16, 16, .ro, 0x0⟩]⟩,
   ⟨0x10C, 0x10, 4, false, [⟨0, 1, .wo, 0x0⟩, ⟨1, 1, .wo, 0x0⟩]⟩,
   ⟨0x140, 0x4, 4, false, [⟨0, 16, .ro, 0x0⟩]⟩]

/-- The registers of the TFQ page beyond the common ones. -/
def regsTFQ : List RegDef :=
  [⟨0x100, 0x0, 1, false, [⟨10, 22, .rwL, 0x0⟩]⟩,
   ⟨0x104, 0x0, 1, false, [⟨0, 16, .rwL, 0x0⟩]⟩,
   ⟨0x108, 0x0, 1, false, [⟨0, 1, .rwL, 0x0⟩, ⟨1, 4, .rwL, 0x4⟩, ⟨5, 3, .rwL, 0x0⟩, ⟨8, 1, .rwL, 0x0⟩, ⟨16, 16, .rwL, 0x0⟩]⟩,
   ⟨0x10C, 0x0, 1, false, [⟨0, 32, .ro, 0x0⟩]⟩,
   ⟨0x110, 0x0, 1, false, [⟨0, 32, .rwL, 0x0⟩]⟩,
   ⟨0x114, 0x0, 1, false, [⟨0, 1, .w1c, 0x0⟩, ⟨1, 1, .w1c, 0x0⟩, ⟨2, 1, .w1c, 0x0⟩, ⟨3, 1, .ro, 0x0⟩, ⟨4, 4, .ro, 0x0⟩]⟩,
   ⟨0x118, 0x0, 1, false, [⟨0, 32, .cntS, 0x0⟩]⟩,
   ⟨0x11C, 0x0, 1, false, [⟨0, 32, .ro, 0x0⟩]⟩]

/-- The registers of the TTV page beyond the common ones. -/
def regsTTV : List RegDef :=
  [⟨0x100, 0x0, 1, false, [⟨0, 14, .ro, 0x0⟩]⟩,
   ⟨0x104, 0x0, 1, false, [⟨0, 32, .ro, 0x186A0⟩]⟩,
   ⟨0x108, 0x0, 1, false, [⟨0, 13, .rwL, 0x0⟩]⟩,
   ⟨0x10C, 0x0, 1, false, [⟨0, 32, .ro, 0x0⟩]⟩,
   ⟨0x110, 0x0, 1, false, [⟨0, 1, .rwL, 0x0⟩]⟩,
   ⟨0x114, 0x0, 1, false, [⟨0, 1, .wo, 0x0⟩]⟩,
   ⟨0x118, 0x0, 1, false, [⟨0, 1, .w1c, 0x0⟩, ⟨1, 1, .w1c, 0x0⟩, ⟨2, 1, .ro, 0x0⟩]⟩,
   ⟨0x140, 0x4, 16, false, [⟨0, 13, .rwL, 0x0⟩, ⟨13, 1, .rwL, 0x0⟩, ⟨16, 13, .rwL, 0x0⟩]⟩,
   ⟨0x180, 0x0, 1, false, [⟨0, 24, .rwL, 0x64⟩, ⟨31, 1, .rwL, 0x1⟩]⟩,
   ⟨0x200, 0x0, 1, false, [⟨0, 32, .cntS, 0x0⟩]⟩,
   ⟨0x204, 0x0, 1, false, [⟨0, 32, .cntS, 0x0⟩]⟩,
   ⟨0x208, 0x0, 1, false, [⟨0, 32, .cntS, 0x0⟩]⟩,
   ⟨0x20C, 0x0, 1, false, [⟨0, 16, .cntS, 0x0⟩]⟩,
   ⟨0x210, 0x0, 1, false, [⟨0, 32, .cntS, 0x0⟩]⟩,
   ⟨0x214, 0x0, 1, false, [⟨0, 16, .cntS, 0x0⟩]⟩]

/-- The registers of the TQC page beyond the common ones. -/
def regsTQC : List RegDef :=
  [⟨0x100, 0x4, 128, false, [⟨0, 1, .wo, 0x0⟩, ⟨1, 1, .wo, 0x0⟩, ⟨2, 1, .wo, 0x0⟩]⟩,
   ⟨0x300, 0x4, 128, false, [⟨0, 3, .ro, 0x0⟩, ⟨4, 5, .ro, 0x0⟩, ⟨9, 2, .ro, 0x0⟩, ⟨16, 9, .ro, 0x0⟩]⟩,
   ⟨0x500, 0x4, 128, false, [⟨0, 4, .ro, 0x0⟩, ⟨4, 8, .ro, 0x0⟩, ⟨12, 1, .ro, 0x0⟩, ⟨16, 16, .ro, 0x0⟩]⟩,
   ⟨0x700, 0x0, 1, false, [⟨0, 7, .rwL, 0x0⟩]⟩,
   ⟨0x704, 0x0, 1, false, [⟨0, 1, .ro, 0x0⟩, ⟨1, 1, .ro, 0x0⟩, ⟨2, 1, .ro, 0x0⟩, ⟨3, 4, .ro, 0x0⟩, ⟨7, 3, .ro, 0x0⟩]⟩,
   ⟨0x708, 0x0, 1, false, [⟨0, 32, .ro, 0x0⟩]⟩,
   ⟨0x70C, 0x0, 1, false, [⟨0, 16, .ro, 0x0⟩]⟩,
   ⟨0x710, 0x0, 1, false, [⟨0, 32, .ro, 0x0⟩]⟩,
   ⟨0x714, 0x0, 1, false, [⟨0, 16, .ro, 0x0⟩]⟩,
   ⟨0x718, 0x4, 6, false, [⟨0, 20, .ro, 0x0⟩]⟩,
   ⟨0x730, 0x0, 1, false, [⟨0, 32, .ro, 0x0⟩]⟩,
   ⟨0x734, 0x0, 1, false, [⟨0, 32, .ro, 0x0⟩]⟩,
   ⟨0x740, 0x0, 1, false, [⟨0, 32, .ro, 0x0⟩]⟩,
   ⟨0x744, 0x0, 1, false, [⟨0, 32, .ro, 0x0⟩]⟩]

/-- The registers of the TCT page beyond the common ones. -/
def regsTCT : List RegDef :=
  [⟨0x100, 0x0, 1, true, [⟨0, 32, .cntW, 0x0⟩]⟩,
   ⟨0x108, 0x0, 1, true, [⟨0, 32, .cntW, 0x0⟩]⟩,
   ⟨0x110, 0x0, 1, true, [⟨0, 32, .cntW, 0x0⟩]⟩,
   ⟨0x118, 0x0, 1, true, [⟨0, 32, .cntW, 0x0⟩]⟩]

/-- The registers of the TMK page beyond the common ones. -/
def regsTMK : List RegDef :=
  [⟨0x100, 0x0, 1, false, [⟨0, 32, .ro, 0x0⟩]⟩,
   ⟨0x104, 0x0, 1, false, [⟨0, 32, .ro, 0x0⟩]⟩,
   ⟨0x108, 0x0, 1, false, [⟨0, 32, .rwL, 0x0⟩]⟩,
   ⟨0x10C, 0x0, 1, false, [⟨0, 32, .rwL, 0x0⟩]⟩,
   ⟨0x110, 0x0, 1, false, [⟨0, 1, .wo, 0x0⟩]⟩,
   ⟨0x114, 0x0, 1, false, [⟨0, 1, .ro, 0x0⟩, ⟨16, 16, .ro, 0x0⟩]⟩]

/-- The registers of the TEV page beyond the common ones. -/
def regsTEV : List RegDef :=
  [⟨0x100, 0x0, 1, false, [⟨0, 1, .rwL, 0x0⟩, ⟨1, 1, .rwS, 0x0⟩]⟩,
   ⟨0x104, 0x0, 1, false, [⟨0, 14, .rwS, 0x3E8⟩]⟩,
   ⟨0x108, 0x0, 1, false, [⟨0, 14, .rwS, 0x0⟩]⟩,
   ⟨0x10C, 0x0, 1, false, [⟨0, 13, .rwS, 0x0⟩, ⟨16, 4, .rwS, 0x0⟩]⟩,
   ⟨0x110, 0x0, 1, false, [⟨0, 4, .rwS, 0x0⟩, ⟨12, 20, .rwS, 0x0⟩]⟩,
   ⟨0x120, 0x0, 1, false, [⟨0, 32, .ro, 0x0⟩]⟩,
   ⟨0x124, 0x0, 1, false, [⟨0, 32, .ro, 0x0⟩]⟩,
   ⟨0x128, 0x0, 1, false, [⟨0, 7, .ro, 0x0⟩]⟩,
   ⟨0x12C, 0x0, 1, false, [⟨0, 20, .ro, 0x0⟩]⟩,
   ⟨0x130, 0x0, 1, false, [⟨0, 32, .cntS, 0x0⟩]⟩,
   ⟨0x140, 0x0, 1, true, [⟨0, 32, .cntW, 0x0⟩]⟩,
   ⟨0x180, 0x0, 1, false, [⟨0, 3, .rwL, 0x0⟩, ⟨4, 2, .rwL, 0x0⟩, ⟨6, 1, .rwL, 0x0⟩, ⟨8, 11, .rwL, 0x0⟩]⟩,
   ⟨0x184, 0x4, 4, false, [⟨0, 32, .rwL, 0x0⟩]⟩,
   ⟨0x1A0, 0x0, 1, false, [⟨0, 1, .wo, 0x0⟩, ⟨1, 1, .wo, 0x0⟩, ⟨2, 1, .wo, 0x0⟩]⟩,
   ⟨0x1A4, 0x0, 1, false, [⟨0, 1, .ro, 0x0⟩, ⟨1, 1, .w1c, 0x0⟩, ⟨2, 1, .ro, 0x0⟩, ⟨4, 3, .ro, 0x0⟩, ⟨8, 8, .ro, 0x0⟩]⟩]

/-- The registers of a page beyond the common ones (R757). -/
def blockRegs : PageKind → List RegDef
  | .BNK => regsBNK
  | .TNK => regsTNK
  | .GSW => regsGSW
  | .ARB => regsARB
  | .MOD => regsMOD
  | .HC => regsHC
  | .ENG => regsENG
  | .ERP => regsERP
  | .FMN => regsFMN
  | .MIX => regsMIX
  | .CRY => regsCRY
  | .STW => regsSTW
  | .CTX => regsCTX
  | .DBG => regsDBG
  | .TBS => regsTBS
  | .MMAP => regsMMAP
  | .VTC => regsVTC
  | .THL => regsTHL
  | .EVM => regsEVM
  | .TWN => regsTWN
  | .PRS => regsPRS
  | .BOOT => regsBOOT
  | .TDB => regsTDB
  | .TFQ => regsTFQ
  | .TTV => regsTTV
  | .TQC => regsTQC
  | .TCT => regsTCT
  | .TMK => regsTMK
  | .TEV => regsTEV

/-- Whether an offset is one of the registers a definition describes. -/
def RegDef.covers (d : RegDef) (off : Nat) : Bool :=
  if off < d.off then false
  else
    let r := off - d.off
    let i := if d.stride = 0 then 0 else r / d.stride
    let j := r - i * d.stride
    decide (i < d.count) && (j == 0 || (d.wide && j == 4))

/-- The index of the register at an offset within its group. -/
def RegDef.index (d : RegDef) (off : Nat) : Nat := if d.stride = 0 then 0 else (off - d.off) / d.stride

/-- The register at an offset of a page, if any (R757). -/
def findReg (k : PageKind) (off : Nat) : Option RegDef :=
  if off < 0x100 then commonRegs.find? (·.covers off) else (blockRegs k).find? (·.covers off)

/-- The reset value a register's fields give it, before straps and fuses (R761). -/
def RegDef.resetNat (d : RegDef) : Nat := d.fields.foldl (fun n f => n + f.reset * 2 ^ f.lo) 0

/-- The reset word of an offset of a page. -/
def resetWord (k : PageKind) (off : Nat) : Word :=
  match findReg k off with
  | some d => BitVec.ofNat 32 d.resetNat
  | none => 0

/-- The bits of a register that fields of one class hold. -/
def RegDef.maskOf (d : RegDef) (a : Attr) : Nat :=
  d.fields.foldl (fun n f => if f.attr = a then n + (2 ^ f.w - 1) * 2 ^ f.lo else n) 0


/-! ### ERR_STATUS bits (Table 3-10 and each page's block bits) -/
namespace Err

def WRITE_WHILE_RUN : Nat := 0
def BAD_ACCESS : Nat := 1
def COMMIT_REJECT : Nat := 2
def SHADOW_BUSY : Nat := 3
def REG_PARITY : Nat := 4
def CNT_OVERFLOW : Nat := 5
def INJECTED : Nat := 6
def ACCESS_DENIED : Nat := 7
def GSW_STAIR_HDR_PARITY : Nat := 16
def GSW_STAIR_LINK_FAIL : Nat := 17
def GSW_SPOKE_FAIL : Nat := 18
def TBS_REF_WARN : Nat := 16
def TBS_REF_SWITCH : Nat := 17
def TBS_HOLDOVER : Nat := 18
def TBS_OSC_FAULT : Nat := 19
def TBS_TURN_MON_FAIL : Nat := 20
def TBS_TURN_SLOW : Nat := 21
def TBS_TIME_PARITY : Nat := 22
def TBS_BAD_VALUE : Nat := 23
def MMAP_WALK_POISON : Nat := 16
def MMAP_WALK_ERROR : Nat := 17
def MMAP_XLT_CACHE_PARITY : Nat := 18
def MMAP_INVAL_IGNORED : Nat := 19
def MMAP_HBM_OUT_OF_RANGE : Nat := 20
def MMAP_RESERVED_DPA : Nat := 21
def BNK_CE : Nat := 16
def BNK_UE : Nat := 17
def BNK_POISON_WRITTEN : Nat := 18
def BNK_ATOMIC_ERROR : Nat := 19
def BNK_P2_FAIL : Nat := 20
def TNK_REPAIRED : Nat := 16
def TNK_REPAIR_NEEDED : Nat := 17
def TNK_REPAIR_EXHAUSTED : Nat := 18
def TNK_SAVE_BUF_ERROR : Nat := 19
def TNK_TARGET_IGNORED : Nat := 20
def TNK_BAD_VALUE : Nat := 21
def ARB_LFSR_ZERO : Nat := 16
def ARB_SATURATED : Nat := 17
def ARB_ADAPT_LIMIT : Nat := 18
def ARB_URG_CRIT : Nat := 19
def ARB_PACE_SHORT : Nat := 20
def MOD_CRC_ERR : Nat := 16
def MOD_REPLAY : Nat := 17
def MOD_RETRAIN : Nat := 18
def MOD_LINK_DOWN : Nat := 19
def MOD_PROTO_ERR : Nat := 20
def MOD_PORT_STALL : Nat := 21
def MOD_ABANDONED : Nat := 22
def MOD_DENIED : Nat := 23
def MOD_RSP_TIMEOUT : Nat := 24
def MOD_EVT_REFUSED : Nat := 25
def MOD_LANE_REPAIRED : Nat := 26
def MOD_TRAIN_FAIL : Nat := 27
def HC_TRAIN_FAIL : Nat := 16
def HC_CE : Nat := 17
def HC_UE : Nat := 18
def HC_SEV_UE : Nat := 19
def HC_CA_PARITY : Nat := 20
def HC_WR_PARITY : Nat := 21
def HC_CHAN_RETRAIN : Nat := 22
def HC_STACK_FAILED : Nat := 23
def HC_TEMP_INVALID : Nat := 24
def HC_STACK_HOT : Nat := 25
def HC_BAD_VALUE : Nat := 26
def ENG_DESC_ERROR : Nat := 16
def ENG_FAULT_STOP : Nat := 17
def ENG_FAULT_FLOW : Nat := 18
def ENG_STAGE_UE : Nat := 19
def ENG_MIXER_ERROR : Nat := 20
def ENG_CMD_IGNORED : Nat := 21
def ENG_BAD_VALUE : Nat := 22
def ENG_SAT_POST : Nat := 23
def ERP_CMB_DATA_PARITY : Nat := 16
def ERP_ERRAND_PARITY : Nat := 17
def FMN_RING_STOPPED : Nat := 16
def FMN_FETCH_FAULT : Nat := 17
def FMN_WAITER_FULL : Nat := 18
def FMN_SB_FULL : Nat := 19
def FMN_BAD_VALUE : Nat := 20
def FMN_SB_PARITY : Nat := 21
def THL_SAT : Nat := 16
def THL_TIMEOUT : Nat := 17
def THL_DEADLOCK : Nat := 18
def THL_LOCK_ORPHANED : Nat := 19
def THL_WAITER_FULL : Nat := 20
def THL_HOLDER_FULL : Nat := 21
def THL_TALLY_UE : Nat := 22
def THL_WAITER_UE : Nat := 23
def THL_BAD_VALUE : Nat := 24
def MIX_MIXER_FAULT : Nat := 16
def MIX_ALL_OUT : Nat := 17
def MIX_CHK_IGNORED : Nat := 18
def MIX_CHK_FAULT : Nat := 19
def CRY_STEP_LOSSY : Nat := 16
def CRY_ROUTE_OVERFLOW : Nat := 17
def CRY_EVAL_POISON : Nat := 18
def CRY_EXPAND_ERROR : Nat := 19
def CRY_ENC_MIXER : Nat := 20
def CRY_EVT_DISCARDED : Nat := 21
def CRY_ARENA_VIOLATION : Nat := 22
def CRY_BARRIER_ERROR : Nat := 23
def CRY_TABLE_PARITY : Nat := 24
def CRY_BAD_VALUE : Nat := 25
def TEV_BAD_VALUE : Nat := 16
def TWN_TWIN_LOST : Nat := 16
def TWN_ROLE_CLASH : Nat := 17
def TWN_JOIN_CONFLICT : Nat := 18
def TWN_RESILVER_FAIL : Nat := 19
def TWN_RESILVERED : Nat := 20
def TWN_REGION_REJECT : Nat := 21
def TWN_REGION_DESYNC : Nat := 22
def TWN_FENCED : Nat := 23
def TWN_BAD_VALUE : Nat := 24
def PRS_TWARN : Nat := 16
def PRS_TTHROT : Nat := 17
def PRS_TCRIT : Nat := 18
def PRS_TRIP : Nat := 19
def PRS_SENSOR_FAIL : Nat := 20
def PRS_AVS_FAIL : Nat := 21
def PRS_VCORE_MISMATCH : Nat := 22
def PRS_VREG_FAULT : Nat := 23
def PRS_STACK_THROT : Nat := 24
def PRS_BAD_VALUE : Nat := 25
def PRS_BUDGET_SHORT : Nat := 26
def BOOT_FUSE_ERR : Nat := 16
def BOOT_P2_STOP : Nat := 17
def BOOT_LATE : Nat := 18
def BOOT_READY_IGNORED : Nat := 19
def BOOT_EARLY_RESET : Nat := 20
def STW_PORT_CRC : Nat := 16
def STW_PORT_FRAME : Nat := 17
def STW_ELOG_FAULT : Nat := 18
def STW_ELOG_LOST : Nat := 19
def STW_DBG_UNLOCKED : Nat := 20
def STW_BAD_VALUE : Nat := 21
def CTX_CMD_IGNORED : Nat := 16
def DBG_TRC_LOST : Nat := 16

end Err

/-- How many block error bits a page kind defines above bit 15. -/
def blockErrBits : PageKind → Nat
  | .BNK => 5
  | .TNK => 6
  | .GSW => 3
  | .ARB => 5
  | .MOD => 12
  | .HC => 11
  | .ENG => 8
  | .ERP => 2
  | .FMN => 6
  | .MIX => 4
  | .CRY => 10
  | .STW => 6
  | .CTX => 1
  | .DBG => 1
  | .TBS => 8
  | .MMAP => 6
  | .VTC => 0
  | .THL => 9
  | .EVM => 0
  | .TWN => 9
  | .PRS => 11
  | .BOOT => 5
  | .TDB => 0
  | .TFQ => 0
  | .TTV => 0
  | .TQC => 0
  | .TCT => 0
  | .TMK => 0
  | .TEV => 1

end Sys2Proof.Machine
end

