-- ==== Sys2Proof/Machine/State.lean ====
section
/-! DEFINITION. The state of the block: plain data, every piece of state the spec gives the die, the queue of waiting
commands, the reasons a step can stop, and the state right after reset. -/

namespace Sys2Proof.Machine

/-- No command of this block ends in a fault: error events are register state (18 R728). The one constructor is kept
for an interface that asks for a fault type; nothing raises it, which is safe. -/
inductive Fault where
  | none
  deriving DecidableEq, Repr

/-- Why a step is refused. -/
inductive Refusal where
  /-- Raised by exec's arms alone, for a command that has no meaning yet: safe, the model stops. -/
  | notModelled (mnemonic : String)
  deriving DecidableEq, Repr

/-! ### Pins and fuses (R703, R707, R766, R174) -/

/-- The outputs that are not computed from registers: FATAL_N, THERM_TRIP_N, STW_CK running (Table 20-12). -/
structure Outputs where
  fatalN : Bool := false
  thermTrip : Bool := false
  stwCk : Bool := false
  deriving DecidableEq, Repr

/-- What the fuses hold: the grade (R13) and the factory spare map, key bank * 24 + slot, value line (R174). -/
structure Fuses where
  gradeE : Bool := false
  spares : List (Nat × Nat) := []
  deriving DecidableEq, Repr

/-! ### Start-up (chapter 17) -/

/-- Which reset is in progress or was last (BOOT_STATUS.LAST_RESET). -/
inductive ResetKind where
  | cold | rstN | fatalWarm
  deriving DecidableEq, Repr

/-- The boot sequencer: whether the die is held in cold reset (R703) or drains for a warm reset (R704), the kind of the
reset in progress, whether it has reached P5, the fuse error found at P0 (R723). -/
structure Boot where
  held : Bool := false
  draining : Bool := false
  kind : ResetKind := .cold
  done : Bool := false
  fuseErr : Bool := false
  /-- Tick count at which FATAL_N was asserted, and at which the phase in progress began. -/
  fatalAt : Nat := 0
  phaseAt : Nat := 0
  deriving DecidableEq, Repr

/-! ### The time base (chapter 2) -/

/-- One reference input: consecutive windows over OUT_PPM (R58) and consecutive GOOD windows (R62, R65), presence. -/
structure RefState where
  present : Bool := true
  overOut : Nat := 0
  goodRun : Nat := 0
  deriving DecidableEq, Repr

/-- The time counter and the reference measurement (R57 to R70). `frac` is the fractional accumulator of R67 in
10^-9 ns; `holdTicks` counts ticks in HOLDOVER towards the next second. -/
structure TimeBase where
  running : Bool := false
  sec : Nat := 0
  ns : Nat := 0
  frac : Int := 0
  /-- Nanoseconds of the running tick that the counter has already advanced, at a roll-over event of its own. -/
  early : Nat := 0
  oscFailed : Bool := false
  oscRun : Nat := 0
  oscBad : Nat := 0
  refA : RefState := {}
  refB : RefState := {}
  holdTicks : Nat := 0
  deriving DecidableEq, Repr

/-! ### The steward: logs, trace, port, TAP (chapters 15, 18) -/

/-- An error log record (Table 15-7). `det` is bytes 17 to 31 as one little-endian number. -/
structure LogRec where
  stamp : Nat
  btype : Nat
  inst : Nat
  index : Nat
  injected : Bool
  fatal : Bool
  lostBefore : Bool
  seq : Nat
  dkind : Nat
  det : Nat
  deriving DecidableEq, Repr

/-- The error log: the on-die buffer of 64 records, the records formed since cold reset, the loss mark (R642), whether the
oldest record is on its way to the other die. -/
structure ELog where
  buf : List LogRec := []
  seq : Nat := 0
  lost : Bool := false
  writing : Bool := false
  deriving DecidableEq, Repr

/-- A fault record as its 64 bytes (Tables 18-5, 18-6). -/
structure FaultRec where
  bytes : List Byte
  deriving DecidableEq, Repr

/-- The fault buffer of one context in the steward (R733): up to 8 records, the loss mark, DPA_BASE of R734, whether the
oldest record is on its way to the other die. -/
structure FaultBuf where
  buf : List FaultRec := []
  lost : Bool := false
  dpaBase : Nat := 0
  writing : Bool := false
  deriving DecidableEq, Repr

/-- The trace buffer (R651): entries as 128-bit numbers by index, entries written since EN was set, the loss mark. -/
structure Trace where
  mem : List (Nat × Nat) := []
  written : Nat := 0
  lost : Bool := false
  deriving DecidableEq, Repr

/-- What a steward-port operation in progress will do when it completes (R635). -/
inductive StwOp where
  | regRead (addr : Nat)
  | regWrite (addr data : Nat)
  | memRead (addr len sc : Nat)
  | memWrite (addr len sc poison : Nat) (data : List Byte)
  | memAtom (addr len sc ctx kspec : Nat) (data : List Byte)
  deriving DecidableEq, Repr

/-- The result of a finished port operation: STATUS, DETAIL, POISON, data (Table 15-3). -/
structure StwResult where
  status : Nat
  detail : Nat
  poison : Nat
  data : List Byte
  deriving DecidableEq, Repr

/-- A queued port operation (R635): its handle, CMD and SEQ, the operation while it is not performed, its result after. -/
structure StwQueued where
  handle : Nat
  cmd : Nat
  seq : Nat
  op : Option StwOp
  res : Option StwResult
  /-- Returned data is padded to this many bytes (Table 15-3). -/
  pad : Nat := 0
  deriving DecidableEq, Repr

/-- The steward port: operations queued in arrival order, completed ones in order of completion, the last response
frame (REPLAY), bytes 0 and 1 of a frame that is too long and has not ended (R659), and the frame last put on the bus. -/
structure StwPort where
  queue : List StwQueued := []
  done : List StwQueued := []
  last : Option (List Byte) := none
  long : Option (Nat × Nat) := none
  out : List Byte := []
  deriving DecidableEq, Repr

/-- The TAP (R647, R648): the instruction in force, the data register captured last, and the debug read. -/
structure Tap where
  ir : Nat := 0x01
  dr : Nat := 0
  /-- The boundary scan register's update stage (R647). -/
  scan : Nat := 0
  /-- The DPA and KIND of a read in progress. -/
  busy : Option (Nat × Bool) := none
  done : Bool := false
  status : Nat := 0
  poison : Nat := 0
  dpa : Nat := 0
  data : Nat := 0
  deriving DecidableEq, Repr

/-! ### Banks (chapter 4) -/

/-- One spare map entry (Table 4-12). -/
structure SpareEnt where
  line : Nat
  valid : Bool
  factory : Bool
  failed : Bool
  deriving DecidableEq, Repr

/-- Corrections of one bank in the running 1 ms window, the line corrected last, and whether the trigger acted (R162). -/
structure CeWin where
  n : Nat
  line : Nat
  queued : Bool
  deriving DecidableEq, Repr

/-- What a bank's port answered last: status, poison mask and data. -/
structure BankRsp where
  status : Nat
  mask : Nat
  data : List Byte
  deriving DecidableEq, Repr

/-- The tinker of a gallery: its target queue (R161), its sweep position (bank, region) and background. -/
structure Tinker where
  targets : List (Nat × Nat) := []
  sweepBank : Nat := 0
  sweepRegion : Nat := 0
  bg55 : Bool := false
  /-- Tick at which the next region test may start (R161). -/
  nextAt : Nat := 0
  /-- CE_TRIGGER as it applies in the running 1 ms window (Table 4-8). -/
  trigger : Nat := 0x10
  deriving DecidableEq, Repr

/-- What the unlisted bytes of a stack read as: lost contents (R315, free values of one epoch), or the zeros with
normal check bytes that a clear wrote (R316). -/
inductive StackBase where
  | undef (epoch : Nat)
  | zeros
  deriving DecidableEq, Repr

/-! ### Fabric ports (chapter 6) -/

/-- A VTL message: header slot and the bytes of its data slots. -/
structure Msg where
  hdr : BitVec 128
  data : List Byte
  deriving DecidableEq, Repr

/-- A message in a module's receive buffer, and whether its admission was refused and counted (R196). -/
structure RxMsg where
  msg : Msg
  held : Bool := false
  deriving DecidableEq, Repr

/-- What the sending of a message stands for: a response that frees the fabric's tag, one line of a stream (queue,
descriptor number, bytes), a stream read request, or nothing further. -/
inductive TxKind where
  | rsp (tag : Nat)
  | swr (queue desc bytes : Nat)
  | srd (tag queue : Nat)
  | plain
  deriving DecidableEq, Repr

/-- A message ready to leave a module: its virtual channel and the context it belongs to. -/
structure TxMsg where
  msg : Msg
  vc : Nat
  ctx : Nat
  kind : TxKind
  deriving DecidableEq, Repr

/-- A credit return: virtual channel, pool (0 REQ, 1 RSP, 2 MSG, 3 DAT), count. -/
structure Cred where
  vc : Nat
  pool : Nat
  n : Nat
  deriving DecidableEq, Repr

/-- A PAYLOAD flit of the replay buffer (R233): SEQ, slots 0 to 14, credit returns, and the stream lines in it. -/
structure TxFlit where
  seq : Nat
  slots : List Byte
  creds : List Cred
  kinds : List TxKind
  deriving DecidableEq, Repr

/-- An outstanding SRD (R254): tag, queue, descriptor number, token, slot in the token, bytes asked, deadline tick. -/
structure Srd where
  tag : Nat
  queue : Nat
  desc : Nat
  token : Nat
  part : Nat
  len : Nat
  deadline : Option Nat
  deriving DecidableEq, Repr

/-- One module's link (R229 to R279). Credits held to send are the CRED registers. -/
structure Link where
  rx : List RxMsg := []
  /-- Tags of the fabric's requests outstanding. -/
  tags : List Nat := []
  /-- Next SEQ expected; a NAK is owed in the next flit; PAYLOAD flits are discarded until the expected one arrives. -/
  expSeq : Nat := 0
  nakOwed : Bool := false
  awaiting : Bool := false
  /-- Receive credits in use by key vc * 4 + pool, and returns not yet sent. -/
  used : List (Nat × Nat) := []
  returns : List Cred := []
  /-- VCs whose CRED_INIT has been received, as a mask. -/
  credInit : Nat := 0
  tx : List TxMsg := []
  nextSeq : Nat := 0
  replay : List TxFlit := []
  /-- Buffered flits still to be sent again. -/
  resend : List Nat := []
  /-- Tick of the last ACK progress or replay start, replays in a row without progress, ticks of retrains within a
  second, and whether a retrain has been asked for. -/
  ackAt : Nat := 0
  replays : Nat := 0
  retrains : List Nat := []
  retraining : Bool := false
  srds : List Srd := []
  quarantined : List Nat := []
  /-- Tick at which each stalled VC stalled, or at which a credit of its blocking pool last returned. -/
  stallAt : List (Nat × Nat) := []
  /-- A PACE message waiting for the next flit. -/
  pace : Option (BitVec 128) := none
  /-- The last flit put on the wire. -/
  wire : List Byte := []
  /-- URG_m: the level driven, the level adopted (R191), and the tick since which the adopted level is 3. -/
  urgIn : Nat := 0
  urg : Nat := 0
  urgSince : Nat := 0
  /-- URG_CRIT has been reported for the present stay at level 3 (R220). -/
  urgNoted : Bool := false
  /-- A descriptor being abandoned (R274): queue, VC, its accepted bytes being awaited. -/
  abandon : List (Nat × Nat) := []
  /-- Lines and DAT demand counted for PACE: requested read, write lines; delivered read, write bytes; waiting all
  through the interval. -/
  dRd : Nat := 0
  dWr : Nat := 0
  gotRd : Nat := 0
  gotWr : Nat := 0
  /-- PACE values in force and formed for the next interval, and the buckets of R207 in bytes. -/
  paceRd : Nat := 0
  paceWr : Nat := 0
  nextRd : Nat := 0
  nextWr : Nat := 0
  /-- ENFORCE at the send point of the PACE in force (R207, R215). -/
  enforced : Bool := false
  nextEnf : Bool := false
  /-- BURST at the send point of the PACE in force, in DAT flits, and of the next (R207, R215). -/
  burst : Nat := 0
  nextBurst : Nat := 0
  /-- Directions (bit 0 read, bit 1 write) in which requests have waited all through the interval (R206). -/
  waited : Nat := 0
  bktRd : Nat := 0
  bktWr : Nat := 0
  /-- Credits of write data withheld while the write bucket is empty (R207). -/
  withheld : List Cred := []
  /-- Credits of requests withheld while the page is halted (R756). -/
  owed : List Cred := []
  /-- The CRC of the next PAYLOAD flit has bit 0 inverted (R738). -/
  crcFlip : Bool := false
  /-- The module is DOWN because its page is halted, and trains when HALT is 0 (R759). -/
  parked : Bool := false
  deriving DecidableEq, Repr

/-! ### Translation (chapter 3) -/

/-- One translation cache entry (R100): the leaf's TVA base, log2 size, block base and permissions. -/
structure Leaf where
  ctx : Nat
  tva : Nat
  size : Nat
  base : Nat
  rd : Bool
  wr : Bool
  deriving DecidableEq, Repr

/-- Who waits for a walk: an errand by number, the fetch or the execute unit for a descriptor of a queue, a ring, or the
steward for a context's fault queue. -/
inductive XWait where
  | errand (id : Nat)
  | queue (q num : Nat) (exec : Bool)
  | ring (r : Nat)
  | steward (c : Nat)
  deriving DecidableEq, Repr

/-- A walk, running or waiting for a walker (R101), with the class and urgency stamp of the access that started it. `stale` marks one that ran when an invalidation of its context
began (R105). -/
structure Walk where
  ctx : Nat
  page : Nat
  root : Nat
  cls : Nat
  urg : Nat
  running : Bool
  stale : Bool
  waiters : List XWait
  deriving DecidableEq, Repr

/-- The translation unit of one gallery: cache sets, most recently used first, the walks in arrival order, and those whose
walk has ended and who have not used its leaf yet (waiter, context, page): their lookup is counted already (R101). -/
structure Xlt where
  cache : List (Nat × List Leaf) := []
  walks : List Walk := []
  walked : List (XWait × Nat × Nat) := []
  deriving DecidableEq, Repr

/-- An invalidation in progress (R104). -/
structure Inval where
  scope : Nat
  ctx : Nat
  base : Nat
  count : Nat
  deriving DecidableEq, Repr

/-! ### Errands and the combiner (chapter 9) -/

/-- One line access of an errand: the line's DPA, first byte and length within the line, position in the request,
whether it is complete, its status code, and its bytes with poison. -/
structure Piece where
  dpa : Nat
  off : Nat
  n : Nat
  pos : Nat
  fin : Bool := false
  st : Nat := 0
  bytes : List (Byte × Bool) := []
  deriving DecidableEq, Repr

/-- A fabric write that a combiner entry holds. -/
structure Merged where
  m : Nat
  msg : Msg
  off : Nat
  n : Nat
  /-- Its module has reset since: its response is discarded (R279). -/
  mute : Bool := false
  deriving DecidableEq, Repr

/-- A fabric memory request in the interior. `active` says it holds one of the 32 errand entries; a write-out of the
combiner lists the writes it answers. -/
structure Errand where
  id : Nat
  m : Nat
  msg : Msg
  cls : Nat
  urg : Nat
  /-- DPAs of the lines translated so far. -/
  dpas : List Nat
  /-- The leaves that translated them (R105). -/
  via : List Leaf := []
  key : Nat := 0
  active : Bool := false
  discard : Bool := false
  held : Bool := false
  pieces : List Piece := []
  merged : List Merged := []
  deriving DecidableEq, Repr

/-- An open combiner entry (R387): line DPA, context, class, byte enables, bytes, granules whose data failed parity
(R402), the writes held, and whether its window has closed. -/
structure Comb where
  dpa : Nat
  ctx : Nat
  cls : Nat
  en : Nat
  data : List Byte
  bad : Nat
  writes : List Merged
  closed : Bool
  /-- The leaves that translated its writes (R105). -/
  via : List Leaf := []
  deriving DecidableEq, Repr

/-- The errand path of one gallery. -/
structure ErrandPath where
  entries : List Errand := []
  combs : List Comb := []
  nextId : Nat := 0
  deriving DecidableEq, Repr

/-! ### Stacks (chapter 7) -/

/-- Who is answered when a stack request completes: an errand's piece, nobody (patrol), or a write-back. -/
inductive StackOrg where
  | errand (g id piece : Nat)
  | patrol
  | writeBack
  deriving DecidableEq, Repr

/-- A line request at a stack (R285). A write holds enables, bytes and poisoned granules; `merged` says a partial
write's read is checked and the slot holds the whole line; `granted` says its read burst is issued, `scrub` that it was granted under SCRUB_ON_READ. -/
structure StackReq where
  line : Nat
  write : Bool
  en : Nat
  data : List Byte
  pois : Nat
  cls : Nat
  urg : Nat
  ctx : Nat
  org : StackOrg
  held : Bool := false
  granted : Bool := false
  merged : Bool := false
  scrub : Bool := false
  deriving DecidableEq, Repr

/-- A line written to a stack, as its slot held it (R309). -/
structure SlotLine where
  line : Nat
  data : List Byte
  pois : Nat
  deriving DecidableEq, Repr

/-- A stack controller: queued requests in order of admission, requests waiting at admission, open rows by
pseudo-channel bank, channels in power-down, passes over the oldest request by channel * 8 + class, parity events and
retrains by tick, channels retraining, the rate of the last valid reading (0 none, R297), and the temperature reading's
dwell for the purser. -/
structure Hc where
  queue : List StackReq := []
  waiting : List StackReq := []
  rows : List (Nat × Nat) := []
  asleep : List Nat := []
  passes : List (Nat × Nat) := []
  parity : List (Nat × Nat) := []
  retrains : List Nat := []
  retraining : List Nat := []
  lower : Nat := 0
  cap : Nat := 0
  /-- A retrain of every channel (R310) or a soft reset's training is in progress. -/
  training : Bool := false
  dwell : Nat := 0
  throttled : Bool := false
  /-- The stack trained in the running start-up (R314). -/
  trained : Bool := false
  /-- Patrol reads left in the running tick (R294). -/
  patLeft : Nat := 0
  /-- Refreshes owed by channel (R295). -/
  owed : List (Nat × Nat) := []
  /-- Activations by pseudo-channel bank, and the refresh-management threshold that the stack reports (R296). -/
  acts : List (Nat × Nat) := []
  rfmAt : Nat := 0
  /-- The highest rate the stack supports, as its last training found it (Table 7-1). -/
  best : Nat := 0
  /-- The last line written on each channel, kept in its slot (R309). -/
  wrote : List (Nat × SlotLine) := []
  deriving DecidableEq, Repr

/-! ### Arbitration (chapter 5) -/

/-- The regulation of one gallery: lines of the running window by group * 8 + class, classes that lost a draw in the
window by the same index, classes held in the window and in the tick, ticks held and ticks free in a row by class, the
quiet windows of the three groups (R200), and the tick at which the window began. -/
structure Arb where
  win : List (Nat × Nat) := []
  lost : Nat := 0
  heldWin : Nat := 0
  heldTick : Nat := 0
  heldRun : List (Nat × Nat) := []
  freeRun : List (Nat × Nat) := []
  /-- SAT_AFTER and SAT_CLEAR in force: a write acts at the next tick (Table 5-8). -/
  satAfter : Nat := 100
  satClear : Nat := 10
  quiet : List (Nat × Nat) := []
  winAt : Nat := 0
  /-- The pace limiter (R671): lines moved in the purser's window, lines in the bucket, requesters held since it was last
  filled, whether it held one in the window. -/
  moved : Nat := 0
  bucket : Nat := 0
  limWait : List Nat := []
  limHeld : Bool := false
  /-- Requests of streams, rings and walks refused admission, by requester and line, so that each counts once (R196). -/
  admWait : List (Nat × Nat) := []
  deriving DecidableEq, Repr

/-- The inputs of the seeds made at the end of P0 or at a warm reset (R185): SEED_POS, and whether a mixer served. -/
structure SeedSnap where
  pos : Nat
  up : Bool
  deriving DecidableEq, Repr

/-- A drawn requester waiting for its grant (R186 to R188): the requester's index. -/
structure Grant where
  winner : Nat
  deriving DecidableEq, Repr

/-! ### The tally hall (chapter 11) -/

/-- Who issues a tally operation or waits (Table 11-5). -/
inductive Who where
  | queue (q : Nat)
  | ring (r : Nat)
  | module (m tag : Nat)
  | crier (g : Nat)
  | steward
  deriving DecidableEq, Repr

/-- A tally operation as issued: requester, context, TOP, virtual number, N, timeout code, class, and the VTL header of
a module's request. -/
structure TallyReq where
  who : Who
  ctx : Nat
  top : Nat
  virt : Nat
  n : Nat
  timeout : Nat := 0
  sc : Nat := 0
  hdr : BitVec 128 := 0
  /-- The descriptor or ring command that it belongs to. -/
  tag : Nat := 0
  deriving DecidableEq, Repr

/-- The outcome of an operation: status, DETAIL, value and flags after it (R461). -/
structure TallyRes where
  st : Nat
  detail : Nat := 0
  val : Nat := 0
  sat : Bool := false
  orph : Bool := false
  deriving DecidableEq, Repr

/-- An answer waiting for the queue, ring or crier it belongs to. -/
structure TallyAns where
  who : Who
  ctx : Nat
  top : Nat
  phys : Nat
  res : TallyRes
  tag : Nat := 0
  deriving DecidableEq, Repr

/-- A tally record (Table 11-3), with the tick of the last ADD, SET, ARRIVE or orphan return (R480). -/
structure Tally where
  val : Nat := 0
  sat : Bool := false
  orph : Bool := false
  gen : Bool := false
  lock : Bool := false
  part : Nat := 0
  broken : Bool := false
  touched : Nat := 0
  deriving DecidableEq, Repr

/-- A waiter record (R468). `asked` says its TAKE_COMMIT is on its way (R598); `full` that it waits for a holder
record and was counted (R474). -/
structure Waiter where
  req : TallyReq
  phys : Nat
  gen : Bool
  at' : Nat
  deadline : Option Nat
  asked : Bool := false
  full : Bool := false
  deriving DecidableEq, Repr

/-- A holder record (R474): `peer` marks a holder on the other die (R599). -/
structure Holder where
  phys : Nat
  who : Who
  ctx : Nat
  n : Nat
  peer : Bool
  deriving DecidableEq, Repr

/-- The hall: tally records, waiter records in the order made, holder records, waits held for a record (R451, R468),
answers not yet taken, and the tick at which
each context's realignment period began. -/
structure Hall where
  tallies : List (Nat × Tally) := []
  waiters : List Waiter := []
  holders : List Holder := []
  held : List TallyReq := []
  answers : List TallyAns := []
  realignAt : List (Nat × Nat) := []
  deriving DecidableEq, Repr

/-! ### The twin link (chapter 14) -/

/-- Who is answered when a mirrored operation is applied on both dies: a piece of an errand with its result, a queue's
write with its status, a ring command's write with the outcome so far, a module's register write, a record
of a context's fault queue or of the error log, a tally requester with
its outcome, the waiter of a TAKE_COMMIT, a handle of the steward port with its status, data and the range of data that a
forwarded atomic returns, or nobody. -/
inductive MirDone where
  | errand (g id piece : Nat) (st : Nat) (bytes : List (Byte × Bool))
  | queue (q num st : Nat)
  | ring (r id st : Nat)
  | write (m : Nat) (hdr : BitVec 128)
  | tally (r : TallyReq) (phys : Nat) (a : TallyRes)
  | take (w : Waiter)
  | record (c : Option Nat)
  | port (h st : Nat) (bytes : List (Byte × Bool)) (off n : Nat) (keep : Bool)
  | nobody
  deriving DecidableEq, Repr

/-- A mirrored operation in flight: its tag (512 while its message waits for one), whether it is an M_FWD, the message, who is answered. -/
structure MirOp where
  tag : Nat
  fwd : Bool
  mseq : Nat
  msg : Msg
  fin : MirDone
  deriving DecidableEq, Repr

/-- An entry of the in-doubt ring (R620). -/
structure InDoubt where
  mseq : Nat
  mkind : Nat
  okind : Nat
  oid : Nat
  otag : Nat
  status : Nat
  deriving DecidableEq, Repr

/-- The twin function: operations in flight in order of sending, the in-doubt
ring newest first, frozen after a loss, the next tag,
the MSEQ of the peer, the pass and front of RESILVER with the copies of the tick, and the tick of the last good flit of the peer. -/
structure Twin where
  ops : List MirOp := []
  inDoubt : List InDoubt := []
  frozen : Bool := false
  nextTag : Nat := 0
  peerMseq : Nat := 0
  pass : Nat := 0
  front : Nat := 0
  copied : Nat := 0
  /-- Regions whose copy is in progress, and configuration writes held during the CONFIG pass. -/
  copying : List Nat := []
  joined : Bool := false
  beatAt : Nat := 0
  retrainAt : Nat := 0
  deriving DecidableEq, Repr

/-! ### Stream engines (chapters 8, 9) -/

/-- A line of a token: source line address, bytes `[lo, hi)` of it that elements use, ordinals it serves, whether its
SRD is sent, whether it is staged, and bytes and poison that a module sent and that wait to be staged (R122). -/
structure StLine where
  line : Nat
  lo : Nat
  hi : Nat
  first : Nat
  last : Nat
  asked : Bool := false
  fin : Bool := false
  back : Option (List Byte × Nat) := none
  deriving DecidableEq, Repr

/-- A staged line that the execute unit has read: its bytes and poisoned granules. -/
structure WorkLine where
  line : StLine
  bytes : List Byte
  pois : Nat
  deriving DecidableEq, Repr

/-- A token (R370): elements `[first, last)` of one tile, the block of the staging area, its staged lines, whether it
is handed off. The execute unit releases its block as it reads it (R372). -/
structure Token where
  id : Nat
  first : Nat
  last : Nat
  block : Nat
  lines : List StLine
  handed : Bool := false
  deriving DecidableEq, Repr

/-- The stages of an accepted descriptor: waiting in its queue, read granted (R367), running. -/
inductive DStage where
  | queued | reading | running
  deriving DecidableEq, Repr

/-- A translation fault of a stream at an element (R379). -/
structure StopAt where
  n : Nat
  tva : Nat
  write : Bool
  kind : Nat
  level : Nat
  deriving DecidableEq, Repr

/-- A descriptor that a queue has accepted and that has not ended. -/
structure Desc where
  num : Nat
  tva : Nat
  /-- Class of the descriptor read (R417), and the ring command that it belongs to (ring, command id). -/
  sc : Nat
  ring : Nat
  cmd : Nat
  stage : DStage := .queued
  slot : Nat := 0
  /-- The 128 bytes as one number, and the key (R322, R340). -/
  word : Nat := 0
  key : Nat := 0
  /-- Next ordinal to stage, next ordinal to write, and the bytes of that element already written, as a mask. -/
  fetch : Nat := 0
  conv : Nat := 0
  sent : Nat := 0
  /-- First ordinals of destination writes not complete yet: SWRs not accepted (false), mirrored writes (true). -/
  outs : List (Nat × Bool) := []
  /-- Waits that have returned, whether one is in the hall, tile posts made, whether a post is in the hall, and whether
  the completion post has been issued and answered. -/
  takes : Nat := 0
  waiting : Bool := false
  posted : Nat := 0
  posting : Bool := false
  doneSent : Bool := false
  doneOk : Bool := false
  tokens : List Token := []
  /-- The source lines of elements `[conv, workEnd)`, which the execute unit holds (R372). -/
  work : List WorkLine := []
  workEnd : Nat := 0
  /-- A status with which it ends once the posts of its complete tiles, so many in all, are made (R346). -/
  due : Option (Nat × Nat) := none
  /-- The last byte of a PORT destination of which one nibble was due (R326). -/
  half : Nat := 0
  corrected : Bool := false
  poisoned : Bool := false
  sat : Bool := false
  faulted : Bool := false
  /-- A STOP fault whose earlier elements are not all complete (R379). -/
  fault : Option StopAt := none
  /-- The status and code with which it ends, once decided. -/
  ending : Option (Nat × Nat) := none
  /-- Bytes accepted of its SWRs (R253), and the VC on which it was abandoned (R274). -/
  accepted : Nat := 0
  abandonVc : Option (Nat × Nat) := none
  /-- The TVA page whose walk the descriptor read or the fetch unit waits for, and the execute unit. -/
  missF : Option Nat := none
  missC : Option Nat := none
  deriving DecidableEq, Repr

/-- The resume record (R380): the fault, the descriptor's TVA, TAKEN_AHEAD, conditions so far, indices, PART. -/
structure ResumeRec where
  num : Nat
  desc : Nat
  write : Bool
  taken : Bool
  kind : Nat
  flags : Nat
  tva : Nat
  idx : List Nat
  part : Nat
  deriving DecidableEq, Repr

/-- A queue: accepted descriptors in order, the next staging block, the resume record while the queue is FAULTED and
whether its parity failed (R403), the end record. -/
structure Queue where
  descs : List Desc := []
  next : Nat := 0
  block : Nat := 0
  rr : Option ResumeRec := none
  rrBad : Bool := false
  endStatus : Nat := 0
  endCode : Nat := 0
  endSat : Bool := false
  endSeq : Nat := 0
  doneElems : Nat := 0
  deriving DecidableEq, Repr

/-! ### The foreman (chapter 10) -/

/-- A command fetched and not dispatched: its 64 bytes, the ring count of its entry (of its JUMP in a list), whether it
is a list command and the last of its list. -/
structure RingCmd where
  bytes : List Byte
  count : Nat
  list : Bool
  last : Bool
  deriving DecidableEq, Repr

/-- A dispatched command that has not left the ring: its scoreboard ranges (base, length, write), its outcome once it
has arrived, and whether it has completed ahead of an earlier one. -/
structure OutCmd where
  id : Nat
  op : Nat
  tag : Nat
  count : Nat
  list : Bool
  top : Nat := 0
  sat : Bool := false
  ranges : List (Nat × Nat × Bool) := []
  /-- Where a TALLY_OP's response word goes, with its class, and the word (R418). -/
  dest : Option (Nat × Nat) := none
  word : Nat := 0
  res : Option Nat := none
  fin : Bool := false
  deriving DecidableEq, Repr

/-- A command ring: prefetched commands, the ring count to fetch next, the list being fetched (TVA, commands left, count
of its JUMP), dispatched commands in order, FAULTED or STOPPED, and the holds already counted for the oldest command. -/
structure Ring where
  fetched : List RingCmd := []
  next : Nat := 0
  list : Option (Nat × Nat × Nat) := none
  out : List OutCmd := []
  nextId : Nat := 0
  faulted : Bool := false
  stopped : Bool := false
  sbHeld : Bool := false
  sbFull : Bool := false
  waitFull : Bool := false
  /-- The last dispatch attempt found the command held. -/
  held : Bool := false
  deriving DecidableEq, Repr

/-! ### Event mode (chapter 13) -/

/-- An event on its way to a destination crier: gallery, key, delay, the step it was routed in. -/
structure Flight where
  g : Nat
  key : Nat
  d : Nat
  step : Nat
  deriving DecidableEq, Repr

/-- A decoder's running window: records still to carry SETTLING (R564), whether a step of the window was lossy. -/
structure DecWin where
  settle : Nat := 0
  lossy : Bool := false
  deriving DecidableEq, Repr

/-- A crier: its phase (Table 13-12), landing chunks by bucket with the records of each bucket, drops by bucket, intake
keys, the flags and the routed keys of the open step, keys by module waiting to be sent, whether this step's DRAIN work
is written, its arrival's answer, its decoders, converter entries to be cleared at the next OPEN. -/
structure Crier where
  phase : Nat := 0
  chunks : List (Nat × List Nat) := []
  counts : List (Nat × Nat) := []
  dropped : List (Nat × Nat) := []
  intake : List Nat := []
  flags : Nat := 0
  events : Nat := 0
  out : List (Nat × List Nat) := []
  drained : Bool := false
  answer : Option Nat := none
  decs : List (Nat × DecWin) := []
  fresh : List Nat := []
  deriving DecidableEq, Repr

/-- The step engine: a step is open; T0 and the step number there (R553); the due tick has been seen; tick of the last
OPEN; the open step's number is STEP_NUM. `key` is the context key of the open step (R508). Tables hold entries by
table * 2^20 + crier * 2^16 + index, zero where unlisted. -/
structure EventSt where
  opened : Bool := false
  started : Bool := false
  t0 : Nat := 0
  first : Nat := 0
  due : Bool := false
  openAt : Nat := 0
  key : Nat := 0
  swapped : Bool := false
  flights : List Flight := []
  live : List (Nat × Nat) := []
  shadow : List (Nat × Nat) := []
  deriving DecidableEq, Repr

/-! ### The stair (chapter 1) -/

/-- A stair message (R22 to R25): its destinations as a mask of galleries, class, context, urgency stamp, the bytes of its
line that its access names (0 for a header alone; any other message holds one line), whether it still waits at its source
for buffer space, and whether its wait ahead was counted. -/
structure StairMsg where
  mask : Nat
  cls : Nat
  ctx : Nat
  n : Nat
  urg : Nat := 0
  held : Bool := false
  waited : Bool := false
  deriving DecidableEq, Repr

/-! ### Mixers (chapter 12) -/

/-- The inputs of a check computation, sampled at its write (R519): key, stream, purpose, position, mode. -/
structure ChkIn where
  key : Nat
  stream : Nat
  purpose : Nat
  pos : Nat
  quick : Bool
  deriving DecidableEq, Repr

/-- A gallery's mixer page: the check computation in progress, a comparison in progress with the
mixers it names (R528), a START that waits for a comparison, and the check unit's fault. -/
structure MixSt where
  chk : Option ChkIn := none
  cmp : Option (Nat × ChkIn) := none
  start : Option ChkIn := none
  fault : Bool := false
  deriving DecidableEq, Repr

/-! ### The purser (chapter 16) -/

/-- Consecutive samples of a sensor: at or above TWARN, TTHROT and TCRIT, and at or below the threshold of its state
minus HYST (R679). -/
structure SensorRun where
  warn : Nat := 0
  throt : Nat := 0
  crit : Nat := 0
  fall : Nat := 0
  deriving DecidableEq, Repr

/-- What a computation sets for the next interval (R664): D, L and A of each gallery, engines lending, pool, galleries
whose L was set by L_cap. -/
structure PrsNext where
  d : List Nat
  l : List Nat
  a : List Nat
  lend : Nat
  pool : Nat
  capped : Nat
  /-- LIMIT_EN and LIMIT_BURST as the computation found them (R671, R687). -/
  limitOn : Bool := true
  burst : Nat := 0x1000
  deriving DecidableEq, Repr

/-- The purser: sensors, samples in a row in which every valid sensor was cool (R681), stacks' dwell is in the stacks;
engines that lend (R482); the computed values waiting for their interval; whether a computation was made; computations
in a row in which no gallery was bound by L_cap (R675), galleries bound in the interval in force; transactions whose
repeats failed, voltage reads that differ in a row (R694); a parity error until the next computation (R695); fractions
of the energy count in nanojoules. -/
structure Purser where
  sensors : List (Nat × SensorRun) := []
  cool : Nat := 0
  lending : List Nat := []
  next : Option PrsNext := none
  computed : Bool := false
  relax : Nat := 0
  capped : Nat := 0
  mismatch : Nat := 0
  parity : Bool := false
  energy : Nat := 0
  /-- LIMIT_EN and LIMIT_BURST of the interval in force (R671, R687). -/
  limitOn : Bool := true
  burst : Nat := 0x1000
  /-- Ticks of the last sample, computation, interval start and calibration step. -/
  sampledAt : Option Nat := none
  computedAt : Option Nat := none
  startedAt : Option Nat := none
  calAt : Option Nat := none
  deriving DecidableEq, Repr

/-- A register access held by its page (R124): the port, the page and offset, the word written, and who is answered: the
header of a module's request, or the handle of a steward port operation. -/
structure HeldReg where
  port : Port
  page : Page
  off : Nat
  data : Option Word
  hdr : BitVec 128 := 0
  handle : Option Nat := none
  deriving DecidableEq, Repr


/-- The whole die. -/
structure State where
  /-- The commands that wait, first in first out. -/
  pending : List Instr := []
  /-- Live register values by DPA, unlisted where they hold their reset value. -/
  regs : List (Nat × Word) := []
  /-- Shadow values of RW-S fields by DPA (R111), unlisted where they hold the reset value. -/
  shadow : List (Nat × Word) := []
  /-- Registers held per accessing port and the snapshots of R68 and R115: key port * 2^48 + DPA. -/
  portRegs : List (Nat × Word) := []
  straps : Straps := {}
  outs : Outputs := {}
  fuses : Fuses := {}
  boot : Boot := {}
  time : TimeBase := {}
  elog : ELog := {}
  faultBufs : List (Nat × FaultBuf) := []
  trace : Trace := {}
  stw : StwPort := {}
  tap : Tap := {}
  /-- Stored bytes of the banks: key ((bank * 3096 + slot) * 8 + granule) * 9 + byte, byte 8 the check byte. -/
  sram : List Host.Cell := []
  /-- Spare map: key bank * 24 + slot. -/
  spares : List (Nat × SpareEnt) := []
  /-- Corrections in the running 1 ms window (R162): key bank. -/
  ceWindow : List (Nat × CeWin) := []
  /-- The last answer of each bank's port: key bank. -/
  bankRsp : List (Nat × BankRsp) := []
  tinkers : List (Nat × Tinker) := []
  /-- Stored bytes of the stacks: key ((stack * 2^30 + line) * 8 + granule) * 9 + byte. -/
  hbm : List Host.Cell := []
  /-- Base contents of a stack, `undef 0` where unlisted. -/
  hbmBase : List (Nat × StackBase) := []
  /-- Granules that hold an injected error (R173, R738): keys into `sram`, or into `hbm` plus 2^40. -/
  injected : List Nat := []
  /-- How often the contents of the stacks were lost (the model's own counter for `Config.hbmInit`). -/
  hbmEpoch : Nat := 0
  /-- The model's own counter for `Config.freeValue`. -/
  freeCtr : Nat := 0
  /-- Modules 0 to 15. -/
  links : List (Nat × Link) := []
  /-- Galleries 0 to 7: translation units, errand paths, stack controllers. -/
  xlt : List (Nat × Xlt) := []
  inval : Option Inval := none
  paths : List (Nat × ErrandPath) := []
  hcs : List (Nat × Hc) := []
  arbs : List (Nat × Arb) := []
  /-- LFSR states by ARB_ID (R181), and drawn winners not yet granted. -/
  lfsrs : List (Nat × Nat) := []
  grants : List (Nat × Grant) := []
  /-- Arbiters whose last beat was their emergency requester's (R188). -/
  emerged : List Nat := []
  /-- Seeding inputs by gallery, 8 for the central arbiters; absent after a RESEED, which acts at each next draw. -/
  seeds : List (Nat × SeedSnap) := []
  twin : Twin := {}
  hall : Hall := {}
  /-- Queues 0 to 127 and rings 0 to 63. -/
  queues : List (Nat × Queue) := []
  rings : List (Nat × Ring) := []
  /-- Criers 0 to 7 and the step engine. -/
  criers : List (Nat × Crier) := []
  event : EventSt := {}
  /-- Stair messages by buffer: link * 4 + lane * 2 + (1 for responses), link = 3 * node + k of Table 1-13. -/
  stair : List (Nat × List StairMsg) := []
  mixers : List (Nat × MixSt) := []
  purser : Purser := {}
  /-- Contexts being cleared, and whether each is to be assigned (R639). -/
  clearing : List (Nat × Bool) := []
  /-- Register accesses held by their pages, in order of arrival (R124, R652, R709). -/
  heldRegs : List HeldReg := []
  /-- The word that a port's last register read returned (the model's own): key port. -/
  readRsp : List (Nat × Word) := []
  deriving DecidableEq, Repr

/-- The block right after reset: a cold reset has begun, phase P0 (R703, R707). (DESIGN CHOICE, log entry 3; DEDUCED, log entry 159) -/
def State.reset : State := {}

end Sys2Proof.Machine
end

