-- ==== Sys2Proof/Machine/Ops.lean ====
section
/-! DEFINITION. The named operations every family uses: register pages and their fields (chapter 3, 19), counters
(R44, R116), time stamps, the error log, alerts and the trace (chapters 15, 18). -/

namespace Sys2Proof

/-! ### Pages and the device physical address map (R87, R117, R750) -/

/-- The DPA of a page's first register. -/
def Page.base (p : Page) : Nat :=
  let gal (n : Nat) := 0x20000000 + p.inst * 0x100000 + n * 0x1000
  let two (n : Nat) := 0x20000000 + (p.inst / 2) * 0x100000 + (n + p.inst % 2) * 0x1000
  let cen (n : Nat) := 0x20800000 + n * 0x1000
  let ten (n : Nat) := 0x21000000 + p.inst * 0x10000 + n * 0x1000
  match p.kind with
  | .BNK => gal 0 | .TNK => gal 1 | .GSW => gal 2 | .ARB => gal 3 | .MOD => two 4 | .HC => gal 6
  | .ENG => two 7 | .ERP => gal 9 | .FMN => gal 10 | .MIX => gal 11 | .CRY => gal 12
  | .STW => cen 0 | .CTX => cen 1 | .DBG => cen 2 | .TBS => cen 3 | .MMAP => cen 4 | .VTC => cen 5
  | .THL => cen 6 | .EVM => cen 7 | .TWN => cen 8 | .PRS => cen 9 | .BOOT => cen 10
  | .TDB => ten 0 | .TFQ => ten 1 | .TTV => ten 2 | .TQC => ten 3 | .TCT => ten 4 | .TMK => ten 5 | .TEV => ten 6

/-- The block type of a page (Tables 19-1 to 19-3). -/
def PageKind.blockType : PageKind → Nat
  | .BNK => 0x10 | .TNK => 0x11 | .GSW => 0x12 | .ARB => 0x13 | .MOD => 0x14 | .HC => 0x15 | .ENG => 0x16
  | .ERP => 0x17 | .FMN => 0x18 | .MIX => 0x19 | .CRY => 0x1A
  | .STW => 1 | .CTX => 2 | .DBG => 3 | .TBS => 4 | .MMAP => 5 | .VTC => 6 | .THL => 7 | .EVM => 8 | .TWN => 9
  | .PRS => 10 | .BOOT => 11
  | .TDB => 0x80 | .TFQ => 0x81 | .TTV => 0x82 | .TQC => 0x83 | .TCT => 0x84 | .TMK => 0x85 | .TEV => 0x86

/-- PAGE_CAPS of a page (Tables 19-1 to 19-3). -/
def PageKind.caps : PageKind → Nat
  | .BNK => 0x30 | .TNK => 0x32 | .GSW => 0x38 | .ARB => 0x39 | .MOD => 0x3A | .HC => 0x3E | .ENG => 0x3F
  | .ERP => 0x38 | .FMN => 0x3E | .MIX => 0x3C | .CRY => 0x38
  | .STW => 0x30 | .CTX => 0x20 | .DBG => 0x30 | .TBS => 0x38 | .MMAP => 0x32 | .VTC => 0x30 | .THL => 0x39
  | .EVM => 0x22 | .TWN => 0x38 | .PRS => 0x39 | .BOOT => 0x30
  | .TDB => 0 | .TFQ => 0x10 | .TTV => 0x10 | .TQC => 0 | .TCT => 8 | .TMK => 0 | .TEV => 0x19

/-- A tenant page (R117). -/
def PageKind.tenant : PageKind → Bool
  | .TDB | .TFQ | .TTV | .TQC | .TCT | .TMK | .TEV => true
  | _ => false

/-- How many instances of a page kind the die has. -/
def PageKind.instances : PageKind → Nat
  | .BNK | .TNK | .GSW | .ARB | .HC | .ERP | .FMN | .MIX | .CRY => 8
  | .MOD | .ENG => 16
  | .STW | .CTX | .DBG | .TBS | .MMAP | .VTC | .THL | .EVM | .TWN | .PRS | .BOOT => 1
  | .TDB | .TFQ | .TTV | .TQC | .TCT | .TMK | .TEV => 16

/-- The number of a port. -/
def Port.code : Port → Nat
  | .steward => 0
  | .tap => 1
  | .module m => 2 + m.val

end Sys2Proof

namespace Sys2Proof.Machine

/-- Every page kind, gallery pages first, in the order of their addresses. -/
def galleryKinds : List PageKind := [.BNK, .TNK, .GSW, .ARB, .MOD, .MOD, .HC, .ENG, .ENG, .ERP, .FMN, .MIX, .CRY]
def centralKinds : List PageKind := [.STW, .CTX, .DBG, .TBS, .MMAP, .VTC, .THL, .EVM, .TWN, .PRS, .BOOT]
def tenantKinds : List PageKind := [.TDB, .TFQ, .TTV, .TQC, .TCT, .TMK, .TEV]

/-- The gallery page p of gallery g (Table 19-1), the central page p (Table 19-2), the tenant page p of context c. -/
def galleryPage (g p : Nat) : Option Page :=
  (galleryKinds[p]?).map fun k =>
    ⟨k, match k with
        | .MOD => 2 * g + (p - 4)
        | .ENG => 2 * g + (p - 7)
        | _ => g⟩
def centralPage (p : Nat) : Option Page := (centralKinds[p]?).map fun k => ⟨k, 0⟩
def tenantPage (c p : Nat) : Option Page := (tenantKinds[p]?).map fun k => ⟨k, c⟩

/-- All pages of gallery g, all central pages. -/
def galleryPages (g : Nat) : List Page := (List.range 13).filterMap (galleryPage g)
def centralPages : List Page := (List.range 11).filterMap centralPage

/-- The regions of Table 3-1. -/
inductive Region where
  | sram
  | tally
  | page (p : Page) (off : Nat)
  | hbm (stack : Nat) (off : Nat)
  | aliasHbm (off : Nat)
  | reserved
  deriving DecidableEq, Repr

/-- The region of a DPA (R87, R750). -/
def region (a : Nat) : Region :=
  if a < 0x6000000 then .sram
  else if 0x10000000 ≤ a ∧ a < 0x10020000 then .tally
  else if 0x20000000 ≤ a ∧ a < 0x20800000 then
    match galleryPage ((a - 0x20000000) / 0x100000) ((a % 0x100000) / 0x1000) with
    | some p => .page p (a % 0x1000)
    | none => .reserved
  else if 0x20800000 ≤ a ∧ a < 0x20900000 then
    match centralPage ((a % 0x100000) / 0x1000) with
    | some p => .page p (a % 0x1000)
    | none => .reserved
  else if 0x21000000 ≤ a ∧ a < 0x21100000 then
    match tenantPage ((a - 0x21000000) / 0x10000) ((a % 0x10000) / 0x1000) with
    | some p => .page p (a % 0x1000)
    | none => .reserved
  else if 0x010000000000 ≤ a ∧ a < 0x018000000000 then
    .hbm ((a - 0x010000000000) / 0x1000000000) (a % 0x1000000000)
  else if 0x020000000000 ≤ a ∧ a < 0x028000000000 then .aliasHbm (a - 0x020000000000)
  else .reserved

/-- The global bank and the line of a DPA in SRAM (R90, R91). -/
def sramLocate (spread : Bool) (hash : Nat → Nat) (dpa : Nat) : Nat × Nat :=
  let r : Nat × Nat :=
    if spread then
      let n := dpa / 64 % 2 ^ 21
      let u := n / 8
      let gb (i : Nat) : Nat := b2n (n.testBit i != parityN 18 (u &&& hash i))
      (gb 0 + 2 * gb 1 + 4 * gb 2, u)
    else (dpa / 0xC00000, (dpa % 0xC00000) / 64)
  let k := (r.2 % 64) ^^^ (r.2 / 64 % 64) ^^^ (r.2 / 4096 % 64)
  (64 * r.1 + k, r.2 / 64)

/-- The DPA of the first byte of a line of a bank: the inverse of `sramLocate`. -/
def sramAddress (spread : Bool) (hash : Nat → Nat) (b l : Nat) : Nat :=
  let low := (b % 64) ^^^ (l % 64) ^^^ (l / 64 % 64)
  let u := l * 64 + low
  let g := b / 64
  if spread then
    let nb (i : Nat) : Nat := b2n (g.testBit i != parityN 18 (u &&& hash i))
    (u * 8 + nb 0 + 2 * nb 1 + 4 * nb 2) * 64
  else g * 0xC00000 + u * 64

/-- The stack and stack offset of an offset in the spread alias (R93). -/
def aliasLocate (a : Nat) : Nat × Nat := (a / 2048 % 8, a / 2048 / 8 * 2048 + a % 2048)

/-! ### Names of pages -/

def pgSTW : Page := ⟨.STW, 0⟩
def pgCTX : Page := ⟨.CTX, 0⟩
def pgDBG : Page := ⟨.DBG, 0⟩
def pgTBS : Page := ⟨.TBS, 0⟩
def pgMMAP : Page := ⟨.MMAP, 0⟩
def pgVTC : Page := ⟨.VTC, 0⟩
def pgTHL : Page := ⟨.THL, 0⟩
def pgEVM : Page := ⟨.EVM, 0⟩
def pgTWN : Page := ⟨.TWN, 0⟩
def pgPRS : Page := ⟨.PRS, 0⟩
def pgBOOT : Page := ⟨.BOOT, 0⟩

/-! ### Registers and their fields -/

/-- The reset word of a register with the straps and fuses in it (R13, R751, R761), and R311's for ALERT_ENABLE. -/
def State.resetReg (s : State) (p : Page) (off : Nat) : Word :=
  let w := resetWord p.kind off
  if off = 0 then BitVec.ofNat 32 (0x01000000 + p.inst * 0x10000 + p.kind.blockType)
  else if off = 4 then BitVec.ofNat 32 p.kind.caps
  else match p.kind with
    | .GSW => if off = 0x100 then wput w 0 3 p.inst else w
    | .TBS => if off = 0x104 then wput (wput w 0 1 (b2n s.straps.refPri)) 1 1 (b2n s.straps.refPri) else w
    | .MOD => if off = 0x104 then wput w 12 1 (b2n (s.straps.twinEn && p.inst == 15)) else w
    | .HC => if off = 0x044 then BitVec.ofNat 32 (2 ^ Err.HC_STACK_FAILED) else w
    | .TWN => if off = 0x108 then wput w 3 1 (b2n s.straps.twinRole) else w
    | .STW => if off = 0x100 then BitVec.ofNat 32 (if s.fuses.gradeE then 0x00960EA2 else 0x00960CA2) else w
    | .BOOT => if off = 0x110 then BitVec.ofNat 32
        (b2n s.straps.twinEn + 2 * b2n s.straps.twinRole + 4 * b2n s.straps.refPri + 8 * b2n s.straps.testMode) else w
    | _ => w

/-- The live word of a register. -/
def State.rd (s : State) (p : Page) (off : Nat) : Word := (find s.regs (p.base + off)).getD (s.resetReg p off)

/-- The state with the live word of a register set. -/
def State.wr (s : State) (p : Page) (off : Nat) (w : Word) : State := { s with regs := put s.regs (p.base + off) w }

/-- The shadow word of a register (R111): the RW-S fields in it are the shadow values. -/
def State.rdSh (s : State) (p : Page) (off : Nat) : Word := (find s.shadow (p.base + off)).getD (s.resetReg p off)
def State.wrSh (s : State) (p : Page) (off : Nat) (w : Word) : State :=
  { s with shadow := put s.shadow (p.base + off) w }

/-- A field's live value, its shadow value, and the state with its live value set. -/
def State.get (s : State) (p : Page) (f : Fld) : Nat := wbits (s.rd p f.off) f.lo f.w
def State.getSh (s : State) (p : Page) (f : Fld) : Nat := wbits (s.rdSh p f.off) f.lo f.w
def State.set (s : State) (p : Page) (f : Fld) (v : Nat) : State := s.wr p f.off (wput (s.rd p f.off) f.lo f.w v)
def State.flag (s : State) (p : Page) (f : Fld) : Bool := s.get p f == 1

/-- Every register of a page at its reset value (both copies), the listed offsets kept. -/
def State.clearPage (s : State) (p : Page) (keep : Nat → Bool := fun _ => false) : State :=
  let inPage (k : Nat) : Bool := decide (p.base ≤ k ∧ k < p.base + 0x1000) && !keep (k - p.base)
  { s with regs := s.regs.filter fun e => !inPage e.1
           shadow := s.shadow.filter fun e => !inPage e.1 }

/-- The bank and line of a DPA under the live SRAM_MAP and SPREAD_HASH (R90 to R92), and back. -/
def State.hashMask (s : State) (i : Nat) : Nat :=
  s.get pgMMAP (if i = 0 then F.MMAP_SPREAD_HASH_0_MASK else if i = 1 then F.MMAP_SPREAD_HASH_1_MASK else F.MMAP_SPREAD_HASH_2_MASK)
def State.locate (s : State) (dpa : Nat) : Nat × Nat := sramLocate (s.flag pgMMAP F.MMAP_SRAM_MAP_MODE) s.hashMask dpa
def State.lineDpa (s : State) (b l : Nat) : Nat := sramAddress (s.flag pgMMAP F.MMAP_SRAM_MAP_MODE) s.hashMask b l

/-! ### Registers held per port (R68, R115, R409, R501) -/

/-- (DEDUCED, log entry 30) -/
def State.portRd (s : State) (port : Port) (p : Page) (off : Nat) : Word :=
  (find s.portRegs (port.code * 2 ^ 48 + (p.base + off))).getD (s.resetReg p off)
def State.portWr (s : State) (port : Port) (p : Page) (off : Nat) (w : Word) : State :=
  { s with portRegs := put s.portRegs (port.code * 2 ^ 48 + (p.base + off)) w }

/-- The state with the per-port values of one page dropped for every port. -/
def State.clearPortPage (s : State) (p : Page) : State :=
  { s with portRegs := s.portRegs.filter fun e =>
      !decide (p.base ≤ e.1 % 2 ^ 48 ∧ e.1 % 2 ^ 48 < p.base + 0x1000) }

/-- The boot phase codes of R708. -/
def State.phase (s : State) : Nat := s.get pgBOOT F.BOOT_BOOT_STATUS_PHASE
def State.isFatal (s : State) : Bool := s.phase == 7

/-! ### Free values -/

/-- A fresh free value and the state that has used it up. -/
def State.free (s : State) : Nat × State := (Config.freeValue s.freeCtr, { s with freeCtr := s.freeCtr + 1 })

/-! ### Time stamps and the trace (Table 15-7, R651) -/

/-- Bytes 0 to 7 of a record: TIME_NS in 30 bits, then 34 bits of TIME_SEC. -/
def State.stamp (s : State) : Nat := s.time.ns % 2 ^ 30 + (s.time.sec % 2 ^ 34) * 2 ^ 30

/-- Whether filter k of the trace takes an event (R651). An INSTANCE of 0xFF takes any. -/
def State.traceHit (s : State) (src inst ctx k : Nat) : Bool :=
  s.get pgDBG (F.DBG_TRC_FILT_SRC.at k) == src && src != 0 &&
  (s.get pgDBG (F.DBG_TRC_FILT_INSTANCE.at k) == 0xFF || s.get pgDBG (F.DBG_TRC_FILT_INSTANCE.at k) == inst) &&
  (s.flag pgDBG (F.DBG_TRC_FILT_CTX_ANY.at k) || s.get pgDBG (F.DBG_TRC_FILT_CTX.at k) == ctx)

/-- Capture one event (R651, Table 15-10). Capture stops when 4,096 entries are written with STOP_FULL set, and
at a fatal error with STOP_ON_FATAL set. (DESIGN CHOICE, log entry 75) -/
def State.traceEv (s : State) (src inst ctx payload : Nat) : State :=
  if s.flag pgDBG F.DBG_TRC_CTRL_EN && !(s.isFatal && s.flag pgDBG F.DBG_TRC_CTRL_STOP_ON_FATAL) && (List.range 4).any (s.traceHit src inst ctx) &&
     !(s.flag pgDBG F.DBG_TRC_CTRL_STOP_FULL && decide (4096 ≤ s.trace.written)) then
    let i := s.get pgDBG F.DBG_TRC_WPTR
    let e := s.stamp + src * 2 ^ 64 + (inst % 256) * 2 ^ 68 + (ctx % 16) * 2 ^ 76 + b2n s.trace.lost * 2 ^ 80 +
      (payload % 2 ^ 47) * 2 ^ 81
    { s with trace := { mem := put s.trace.mem i e, written := s.trace.written + 1, lost := false } }
      |>.set pgDBG F.DBG_TRC_WPTR ((i + 1) % 4096)
  else s

/-! ### Error records (R642, R643, Table 15-7) -/

/-- The detail of a log record: DKIND and bytes 17 to 31 as one number. -/
structure Detail where
  kind : Nat := 0
  det : Nat := 0
  deriving DecidableEq, Repr

/-- DKIND 0x01 MEM for a DPA or a stack offset. -/
def detMem (dpa granule synd bank line : Nat) : Detail :=
  ⟨1, dpa % 2 ^ 48 + granule * 2 ^ 48 + synd * 2 ^ 56 + bank * 2 ^ 72 + line * 2 ^ 88⟩
def detStack (off stack granule synd : Nat) : Detail :=
  ⟨1, off % 2 ^ 48 + granule * 2 ^ 48 + synd * 2 ^ 56 + (1 + 2 * stack) * 2 ^ 64⟩
/-- DKIND 0x02 TALLY. -/
def detTally (ctx virt phys wkind wnum tag top n : Nat) : Detail :=
  ⟨2, ctx + virt * 2 ^ 8 + phys * 2 ^ 24 + wkind * 2 ^ 40 + wnum * 2 ^ 48 + tag * 2 ^ 56 + top * 2 ^ 72 + n * 2 ^ 80⟩
/-- DKIND 0x03 REQUEST. -/
def detReq (m tag opc ctx status detail addr : Nat) : Detail :=
  ⟨3, m + tag * 2 ^ 8 + opc * 2 ^ 24 + ctx * 2 ^ 32 + status * 2 ^ 40 + detail * 2 ^ 48 + (addr % 2 ^ 48) * 2 ^ 56⟩
/-- DKIND 0x04 QUEUE. -/
def detQueue (q ctx status code tva : Nat) : Detail :=
  ⟨4, q + ctx * 2 ^ 8 + status * 2 ^ 16 + code * 2 ^ 24 + (tva % 2 ^ 48) * 2 ^ 32⟩
/-- DKIND 0x05 RING. -/
def detRing (ring ctx cmd status index : Nat) : Detail :=
  ⟨5, ring + ctx * 2 ^ 8 + cmd * 2 ^ 16 + status * 2 ^ 24 + (index % 2 ^ 16) * 2 ^ 32⟩
/-- DKIND 0x06 VALUE. -/
def detVal (a b : Nat) : Detail := ⟨6, a % 2 ^ 32 + (b % 2 ^ 64) * 2 ^ 32⟩

/-- A CNT-S counter of a page counts one more and holds its maximum (R116). The overflow flag is the caller's. -/
def State.bump (s : State) (p : Page) (f : Fld) (n : Nat := 1) : State :=
  s.set p f (min (s.get p f + n) (2 ^ f.w - 1))

/-- The next event of a page brings ERR_COUNT to its maximum. -/
def State.errFull (s : State) (p : Page) : Bool := s.get p F.ERR_COUNT + 1 == 0xFFFF

/-- Set an ERR_STATUS bit of a page: the status, ERR_FIRST, ERR_COUNT (Table 3-5). -/
def State.errBit (s : State) (p : Page) (b : Nat) : State :=
  let w := s.rd p 0x020
  let full := s.errFull p
  let s := if w = 0 then s.wr p 0x028 (BitVec.ofNat 32 (b + 2 ^ 31)) else s
  let w' := w ||| BitVec.ofNat 32 (2 ^ b)
  let w' := if full then w' ||| BitVec.ofNat 32 (2 ^ Err.CNT_OVERFLOW) else w'
  (s.bump p F.ERR_COUNT).wr p 0x020 w'

/-- A record is dropped (R642): ELOG_LOST counts it and its flag is set, CNT_OVERFLOW too at the counter's maximum. These
events form no record of their own: it would find the same full buffer. (DESIGN CHOICE, log entry 168) -/
def State.logLost (s : State) : State :=
  let top := s.get pgSTW F.STW_ELOG_LOST + 1 == 2 ^ F.STW_ELOG_LOST.w - 1
  let s := (s.bump pgSTW F.STW_ELOG_LOST).errBit pgSTW Err.STW_ELOG_LOST
  if top then s.errBit pgSTW Err.CNT_OVERFLOW else s

/-- Form one error log record (R642): into the buffer of 64, or lost and counted. -/
def State.logRec (s : State) (p : Page) (index : Nat) (d : Detail) (inj fatal : Bool) : State :=
  let r : LogRec := { stamp := s.stamp, btype := p.kind.blockType, inst := p.inst, index := index, injected := inj,
                      fatal := fatal, lostBefore := s.elog.lost, seq := s.elog.seq % 2 ^ 32, dkind := d.kind, det := d.det }
  let s := s.traceEv 6 0 0 (p.kind.blockType + index * 2 ^ 16 + (s.elog.seq % 2 ^ 16) * 2 ^ 21)
  if s.elog.buf.length < 64 then
    { s with elog := { s.elog with buf := s.elog.buf ++ [r], seq := s.elog.seq + 1, lost := false } }
  else { s with elog := { s.elog with seq := s.elog.seq + 1, lost := true } }.logLost

/-- An ordinary record of an event: when ERR_ENABLE has its bit, or `always`. -/
def State.logEnabled (s : State) (p : Page) (b : Nat) (d : Detail) (always inj : Bool) : State :=
  if always || (s.rd p 0x024).getLsbD b then s.logRec p b d inj false else s

/-- An event that sets an ERR_STATUS bit: the bit, and one record when ERR_ENABLE has it or `always` (a chapter states
that the event is logged). ERR_COUNT at its maximum is an event of its own (R116). A tenant page writes no record (R108). (DEDUCED, log entry 156) -/
def State.raise (s : State) (p : Page) (b : Nat) (d : Detail := {}) (always : Bool := false) (inj : Bool := false) :
    State :=
  let full := s.errFull p
  let s := s.errBit p b
  if p.kind.tenant then s
  else
    let s := s.logEnabled p b d always inj
    if full then s.logEnabled p Err.CNT_OVERFLOW {} false false else s

/-- A CNT-S counter counts one more; reaching its maximum sets CNT_OVERFLOW (R116). -/
def State.count (s : State) (p : Page) (f : Fld) (n : Nat := 1) : State :=
  let old := s.get p f
  let s := s.bump p f n
  if old < 2 ^ f.w - 1 ∧ 2 ^ f.w - 1 ≤ old + n then s.raise p Err.CNT_OVERFLOW else s

/-- A CNT-W counter, 64 bits in LO and HI, counts on and wraps (R44). -/
def State.countW (s : State) (p : Page) (f : Fld) (n : Nat := 1) : State :=
  let v := (s.rd p f.off).toNat + (s.rd p (f.off + 4)).toNat * 2 ^ 32 + n
  (s.wr p f.off (BitVec.ofNat 32 v)).wr p (f.off + 4) (BitVec.ofNat 32 (v / 2 ^ 32))

/-- ALERT_STATUS of a page: ERR_STATUS AND ALERT_ENABLE (Table 3-5). -/
def State.alertReg (s : State) (p : Page) : Word := s.rd p 0x020 &&& s.rd p 0x044

/-- The bits of a page whose alert its chapter states without ALERT_ENABLE: a stop in P2 (R724), a failed oscillator (R79). -/
def alwaysAlerts : PageKind → Word
  | .BOOT => BitVec.ofNat 32 (2 ^ Err.BOOT_P2_STOP)
  | .TBS => BitVec.ofNat 32 (2 ^ Err.TBS_OSC_FAULT)
  | _ => 0

/-- The bits by which a page holds ALERT_N asserted: those of ALERT_STATUS (R643) and those of `alwaysAlerts`; none on a
tenant page (R108). (DEDUCED, log entry 138) -/
def State.alertBits (s : State) (p : Page) : Word :=
  if p.kind.tenant then 0 else s.alertReg p ||| (s.rd p 0x020 &&& alwaysAlerts p.kind)

/-- ALERT_N is asserted while any page alerts and while FATAL_N is asserted (R643). -/
def State.alertN (s : State) : Bool :=
  s.outs.fatalN || ((List.range 8).flatMap galleryPages ++ centralPages).any fun p => s.alertBits p ≠ 0

/-- The RUN states of PAGE_STATE (Table 3-8). -/
def RUNNING : Nat := 0
def HALTING : Nat := 1
def HALTED : Nat := 2
def RESETTING : Nat := 3

def State.run (s : State) (p : Page) : Nat := s.get p F.PAGE_STATE_RUN
def State.halted (s : State) (p : Page) : Bool := s.run p == HALTED
/-- The block takes new work: it is not HALTING, HALTED or RESETTING. -/
def State.running (s : State) (p : Page) : Bool := s.run p == RUNNING

/-- Ticks since cold reset (R52, TICK_COUNT). -/
def State.ticks (s : State) : Nat :=
  (s.rd pgTBS 0x148).toNat + (s.rd pgTBS 0x14C).toNat * 2 ^ 32

/-! ### Fault records (R732 to R735) -/

def State.faultBuf (s : State) (c : Nat) : FaultBuf := (find s.faultBufs c).getD {}
def State.setFaultBuf (s : State) (c : Nat) (b : FaultBuf) : State := { s with faultBufs := put s.faultBufs c b }

/-- A context's entry in the context table: 0 UNASSIGNED, 1 CLEARING, 2 ASSIGNED (Table 15-13). (DEDUCED, log entry 103) -/
def State.ctxState (s : State) (c : Nat) : Nat := s.get pgCTX (F.CTX_CTX_STATE_STATE.at c)
def State.assigned (s : State) (c : Nat) : Bool := s.ctxState c == 2

/-- Form one fault record for a context (Table 18-5) with its body as a number over bytes 16 to 63. A record formed
for a context that is CLEARING is discarded (R743). -/
def State.faultRec (s : State) (c rkind : Nat) (write : Bool) (fkind level status body : Nat) : State :=
  if s.ctxState c = 1 then s else
  let p : Page := ⟨.TFQ, c⟩
  let fb := s.faultBuf c
  let seq := s.get p F.TFQ_FQ_SEQ
  let hdr := s.stamp + rkind * 2 ^ 64 + (c + 16 * b2n fb.lost + 32 * b2n write) * 2 ^ 72 +
    (fkind + 16 * level) * 2 ^ 80 + status * 2 ^ 88 + seq * 2 ^ 96
  let r : FaultRec := ⟨leBytes 64 (hdr + body * 2 ^ 128)⟩
  let s := s.set p F.TFQ_FQ_SEQ ((seq + 1) % 2 ^ 32)
  if fb.buf.length < 8 then s.setFaultBuf c { fb with buf := fb.buf ++ [r], lost := false }
  else (s.setFaultBuf c { fb with lost := true }).count p F.TFQ_FQ_LOST

/-! ### Operations of the steward port (R635) -/

/-- The operation that holds a handle of the steward port is complete. -/
def State.portDone (s : State) (h st detail poison : Nat) (data : List Byte) : State :=
  match s.stw.queue.find? (·.handle == h) with
  | none => s
  | some q => { s with stw := { s.stw with queue := s.stw.queue.filter (·.handle != h)
                                           done := s.stw.done ++ [{ q with op := none, res := some ⟨st, detail, poison, data⟩ }] } }

end Sys2Proof.Machine
end

