-- ==== Sys2Proof/Machine/Commit.lean ====
section
/-! DEFINITION. Shadow values and commits (R112, R113, R121). -/

namespace Sys2Proof.Machine

/-- The offsets of a page that hold RW-S fields, with the bits of those fields. -/
def shadowRegs (k : PageKind) : List (Nat × Nat) :=
  (blockRegs k).flatMap fun d =>
    let m := d.maskOf .rwS
    if m = 0 then [] else (List.range d.count).map fun i => (d.off + d.stride * i, m)

/-- Bits of `a` under a mask, other bits of `b`. -/
def mergeWord (m : Nat) (a b : Word) : Word := (a &&& BitVec.ofNat 32 m) ||| (b &&& ~~~ (BitVec.ofNat 32 m))

/-- PENDING of a page, with its copy in PAGE_STATE (Table 3-8). -/
def State.pendingIs (s : State) (p : Page) (v : Nat) : State :=
  (s.set p F.PAGE_COMMIT_STATUS_PENDING v).set p F.PAGE_STATE_COMMIT_PENDING v

def State.commitPending (s : State) (p : Page) : Bool := s.flag p F.PAGE_COMMIT_STATUS_PENDING

/-- Every shadow value of a page becomes live. -/
def State.shadowToLive (s : State) (p : Page) : State :=
  foldS (fun (x : Nat × Nat) s => s.wr p x.1 (mergeWord x.2 (s.rdSh p x.1) (s.rd p x.1))) (shadowRegs p.kind) s

/-- Every live value of a page returns to its shadow. -/
def State.liveToShadow (s : State) (p : Page) : State :=
  foldS (fun (x : Nat × Nat) s => s.wrSh p x.1 (s.rd p x.1)) (shadowRegs p.kind) s

/-- A pending commit takes effect: DONE is set and SEQ counts it. -/
def State.commitNow (s : State) (p : Page) : State :=
  if s.commitPending p then
    let s := (s.shadowToLive p).pendingIs p 0
    (s.set p F.PAGE_COMMIT_STATUS_DONE 1).set p F.PAGE_COMMIT_STATUS_SEQ ((s.get p F.PAGE_COMMIT_STATUS_SEQ + 1) % 2 ^ 16)
  else s

/-- DISCARD: the shadows follow the live values and a pending commit is cancelled. -/
def State.discardCommit (s : State) (p : Page) : State := (s.liveToShadow p).pendingIs p 0

end Sys2Proof.Machine
end

