-- ==== Sys2Proof/Machine/Flags.lean ====
section
/-! DEFINITION. Statuses and their order (Table 6-7, R139), the response DETAIL codes (Table 6-8), and the check bits
of a granule with the classes of its syndrome (R133 to R135, Table 4-2). -/

namespace Sys2Proof.Machine

/-- The STATUS codes (Table 6-7). -/
inductive Status where
  | ok | okCorrected | okOrphaned | poisoned | fault | denied | retired | underflow | timeout | aborted | error
  deriving DecidableEq, Repr

def Status.code : Status → Nat
  | .ok => 0 | .okCorrected => 1 | .okOrphaned => 2 | .poisoned => 3 | .fault => 4 | .denied => 5 | .retired => 6
  | .underflow => 7 | .timeout => 8 | .aborted => 9 | .error => 10

/-- The more severe of two access statuses (R139, R143). -/
def Status.worst (a b : Status) : Status :=
  if a == .error || b == .error then .error
  else if a == .poisoned || b == .poisoned then .poisoned
  else if a == .okCorrected || b == .okCorrected then .okCorrected
  else .ok

/-- The status carries the data that a read returned. -/
def Status.hasData : Status → Bool
  | .ok | .okCorrected | .okOrphaned | .poisoned => true
  | _ => false

/-! ### DETAIL of ERROR and DENIED (Table 6-8) -/

def dtReserved : Nat := 1
def dtUndefined : Nat := 2
def dtBadVc : Nat := 3
def dtAtomic : Nat := 4
def dtTarget : Nat := 5
def dtRegister : Nat := 6
def dtTally : Nat := 7
def dtNotAuth : Nat := 1
def dtNotValid : Nat := 2
def dtNotPermitted : Nat := 3

/-! ### The check code (R133, Table 4-13) -/

/-- Columns of data bits 0 to 63. -/
def dataCols : List Nat :=
  [0x07, 0x0B, 0x0D, 0x0E, 0x13, 0x15, 0x16, 0x19, 0x1A, 0x1C, 0x23, 0x25, 0x26, 0x29, 0x2A, 0x2C, 0x31, 0x32, 0x34,
   0x38, 0x43, 0x45, 0x46, 0x49, 0x4A, 0x4C, 0x51, 0x52, 0x54, 0x58, 0x61, 0x62, 0x64, 0x68, 0x70] ++
  [0x83, 0x85, 0x86, 0x89, 0x8A, 0x8C, 0x91, 0x92, 0x94, 0x98, 0xA1, 0xA2, 0xA4, 0xA8, 0xB0, 0xC1, 0xC2, 0xC4, 0xC8,
   0xD0, 0xE0, 0x1F, 0x2F, 0x37, 0x3B, 0x3D, 0x3E, 0x4F, 0x57]

/-- Columns of location bits 0 to 23. -/
def locCols : List Nat :=
  [0x03, 0x05, 0x06, 0x09, 0x0A, 0x0C, 0x11, 0x12, 0x14, 0x18, 0x21, 0x22, 0x24, 0x28, 0x30, 0x41, 0x42, 0x44, 0x48,
   0x50, 0x60, 0x81, 0x82, 0x84]

/-- The exclusive-or of the columns of the ones of a number. -/
def xorCols : List Nat → Nat → Nat
  | [], _ => 0
  | c :: cs, n => (if n % 2 = 1 then c else 0) ^^^ xorCols cs (n / 2)

/-- The check byte of data at a location. -/
def checkByte (loc data : Nat) : Nat := xorCols dataCols data ^^^ xorCols locCols loc

/-- The location word of a granule (R133). -/
def locWord (bank line granule : Nat) : Nat := bank * 2 ^ 15 + line * 2 ^ 3 + granule

/-- The classes of Table 4-2. -/
inductive GClass where
  | good | corrected | storedPoison | uncorrectable
  deriving DecidableEq, Repr

/-- A granule as read: its data (corrected where the class is CORRECTED), its class and its syndrome. -/
structure GranRd where
  data : Nat
  cls : GClass
  synd : Nat
  deriving DecidableEq, Repr

/-- Classify a granule (R134). `pois` is the XOR that stores poison. -/
def classify (loc data check : Nat) : GranRd :=
  let synd := check ^^^ checkByte loc data
  if synd = 0 then ⟨data, .good, synd⟩
  else if synd = 0xFF then ⟨data, .storedPoison, synd⟩
  else match dataCols.findIdx? (· == synd) with
    | some i => ⟨data ^^^ 2 ^ i, .corrected, synd⟩
    | none =>
      if (List.range 8).any fun j => 2 ^ j == synd then ⟨data, .corrected, synd⟩
      else ⟨data, .uncorrectable, synd⟩

/-- The granule yields no good data. -/
def GClass.bad : GClass → Bool
  | .storedPoison | .uncorrectable => true
  | _ => false

/-- A line as read: its granules, with masks over granules. -/
structure LineRd where
  grans : List GranRd
  deriving DecidableEq, Repr

def LineRd.bytes (r : LineRd) : List Byte := r.grans.flatMap fun g => leBytes 8 g.data
def LineRd.poison (r : LineRd) (j : Nat) : Bool := (r.grans[j]?).any fun g => g.cls.bad
def LineRd.corr (r : LineRd) (j : Nat) : Bool := (r.grans[j]?).any fun g => g.cls == .corrected

/-- Some granule that holds one of bytes `[o, o + n)` satisfies a test. -/
def anyGran (p : Nat → Bool) (o n : Nat) : Bool :=
  (List.range 8).any fun j => p j && decide (o < 8 * j + 8 ∧ 8 * j < o + n)

/-- The status of a read of bytes `[o, o + n)` of a line (R138, R139). -/
def LineRd.status (r : LineRd) (o n : Nat) : Status :=
  if anyGran r.poison o n then .poisoned else if anyGran r.corr o n then .okCorrected else .ok

/-- One byte with the poison of the granule that supplies it. -/
abbrev PByte := Byte × Bool

/-- The requested bytes of a line with their poison. -/
def LineRd.slice (r : LineRd) (o n : Nat) : List PByte :=
  ((r.bytes.zip ((List.range 64).map fun i => r.poison (i / 8))).drop o).take n

/-- The poison mask of returned bytes: one bit for each 8 bytes from the first (R144). (DEDUCED, log entry 42) -/
def unitMask : Nat → List PByte → Nat
  | 0, _ => 0
  | k + 1, ps => b2n ((ps.take 8).any (·.2)) + 2 * unitMask k (ps.drop 8)

end Sys2Proof.Machine
end

