-- ==== Sys2Proof/Machine/Operands.lean ====
section
/-! DEFINITION. The operand forms: VTL headers (Tables 6-4 to 6-9, 14-2 to 14-4), the flit and its CRC (R229 to R232),
and the steward port's CRC (R630). -/

namespace Sys2Proof.Machine

/-! ### Opcodes -/

def opRD : Nat := 0x01
def opWR : Nat := 0x02
def opATOM : Nat := 0x03
def opREG_RD : Nat := 0x04
def opREG_WR : Nat := 0x05
def opTALLY : Nat := 0x06
def opSWR : Nat := 0x11
def opSRD : Nat := 0x12
def opREG_RSP : Nat := 0x44
def opTALLY_RSP : Nat := 0x46
def opSRD_RSP : Nat := 0x52
def opNOP : Nat := 0x80
def opPACE : Nat := 0x81
def opINT : Nat := 0x82
def opEVT : Nat := 0x83
def opCRED_INIT : Nat := 0x84
def opM_APPLY : Nat := 0x21
def opM_FWD : Nat := 0x22
def opM_COPY : Nat := 0x23
def opM_ACK : Nat := 0x61
def opM_REFUSE : Nat := 0x62
def opM_BEAT : Nat := 0x90
def opM_JOIN : Nat := 0x91
def opM_LEAVE : Nat := 0x92

/-! ### Header fields (Table 6-5) -/

def hb (h : BitVec 128) (lo w : Nat) : Nat := bits h.toNat lo w
def hOpc (h : BitVec 128) : Nat := hb h 0 8
def hTag (h : BitVec 128) : Nat := hb h 8 9
def hSc (h : BitVec 128) : Nat := hb h 17 3
def hVc (h : BitVec 128) : Nat := hb h 20 3
def hCtx (h : BitVec 128) : Nat := hb h 24 4
def hStatus (h : BitVec 128) : Nat := hb h 28 4
/-- LEN + 1. -/
def hLen (h : BitVec 128) : Nat := hb h 32 6 + 1
def hAddr (h : BitVec 128) : Nat := hb h 40 48
def hPoison (h : BitVec 128) : Nat := hb h 88 8
def hXf (h : BitVec 128) : Nat := hb h 96 32

/-- A header of the common fields; `len` is LEN as stored. -/
def mkHdr (opc tag sc vc ctx status len addr poison xf : Nat) : BitVec 128 :=
  BitVec.ofNat 128 (opc % 256 + tag % 512 * 2 ^ 8 + sc % 8 * 2 ^ 17 + vc % 8 * 2 ^ 20 + ctx % 16 * 2 ^ 24 +
    status % 16 * 2 ^ 28 + len % 64 * 2 ^ 32 + addr % 2 ^ 48 * 2 ^ 40 + poison % 256 * 2 ^ 88 + xf % 2 ^ 32 * 2 ^ 96)

/-- The message class of an opcode: 0 REQ, 1 RSP, 2 MSG, 3 reserved (R238). -/
def opClass (opc : Nat) : Nat := bits opc 6 2

/-- The response opcode of a request: bit 6 set. -/
def rspOp (opc : Nat) : Nat := if opc = opREG_WR then opREG_RSP else opc + 0x40

/-- Data slots that follow a header (Table 6-4). -/
def dataSlots (h : BitVec 128) : Nat :=
  let op := hOpc h
  let n := (hLen h + 15) / 16
  if op = opWR ∨ op = opSWR then n
  else if op = opATOM then (if hb h 100 3 = 2 then 4 else n)
  else if op = opSRD_RSP then (if hStatus h = 0 ∨ hStatus h = 3 then n else 0)
  else if op = opEVT then (hb h 32 4 - 2 + 3) / 4
  else 0

/-- The bits of a request that must be zero (R10, R248, Table 6-6). -/
def reservedOf (h : BitVec 128) : Bool :=
  let op := hOpc h
  let common := hb h 23 1 == 0 && hb h 28 4 == 0 && (hb h 38 2 == 0 || op == opTALLY)
  let body :=
    if op = opRD then hPoison h == 0 && hXf h == 0
    else if op = opWR then hXf h == 0
    else if op = opATOM then hPoison h == 0 && hb h 107 5 == 0
    else if op = opREG_RD then hPoison h == 0 && hXf h == 0 && hb h 56 32 == 0
    else if op = opREG_WR then hPoison h == 0 && hb h 56 32 == 0
    else if op = opTALLY then hb h 32 8 == 0 && hb h 44 4 == 0 && hb h 61 3 == 0 && hPoison h == 0
    else true
  !(common && body)

/-! ### CRC-32 (R231) and CRC-16 (R630) -/

/-- Eight shifts of a reflected CRC register. -/
def crcShift (poly : Nat) : Nat → Nat → Nat
  | 0, c => c
  | n + 1, c => crcShift poly n (if c % 2 = 1 then c / 2 ^^^ poly else c / 2)

def crc32Go : Nat → List Byte → Nat
  | c, [] => c ^^^ 0xFFFFFFFF
  | c, b :: bs => crc32Go (crcShift 0xEDB88320 8 (c ^^^ b.toNat)) bs

/-- The IEEE 802.3 CRC-32 of a byte string. -/
def crc32 (bs : List Byte) : Nat := crc32Go 0xFFFFFFFF bs

/-- Eight shifts of a CRC-16 register, most significant bit first. -/
def crc16Shift (poly : Nat) : Nat → Nat → Nat
  | 0, c => c
  | n + 1, c => crc16Shift poly n (if c ≥ 2 ^ 15 then (c * 2 % 2 ^ 16) ^^^ poly else c * 2 % 2 ^ 16)

def crc16Go (poly : Nat) : Nat → List Byte → Nat
  | c, [] => c
  | c, b :: bs => crc16Go poly (crc16Shift poly 8 (c ^^^ (b.toNat * 2 ^ 8))) bs

/-! ### The flit (R229, Table 6-2) -/

/-- The trailer's fields. -/
structure Trailer where
  seq : Nat
  ack : Nat
  ackKind : Nat
  kind : Nat
  creds : List (Nat × Nat × Nat)
  deriving DecidableEq, Repr

/-- The fields of trailer bytes 0 to 11. -/
def parseTrailer (t : Nat) : Trailer :=
  let cr (lo : Nat) : Nat × Nat × Nat := (bits t lo 3, bits t (lo + 3) 2, bits t (lo + 5) 8)
  ⟨bits t 0 12, bits t 12 12, bits t 24 2, bits t 26 2, [cr 32, cr 45, cr 58, cr 71]⟩

/-- Trailer bytes 0 to 11 as a number. -/
def trailerBits (t : Trailer) : Nat :=
  let cr (i : Nat) : Nat := match t.creds[i]? with
    | some (v, p, n) => v % 8 + p % 4 * 2 ^ 3 + n % 256 * 2 ^ 5
    | none => 0
  t.seq % 4096 + t.ack % 4096 * 2 ^ 12 + t.ackKind % 4 * 2 ^ 24 + t.kind % 4 * 2 ^ 26 +
    cr 0 * 2 ^ 32 + cr 1 * 2 ^ 45 + cr 2 * 2 ^ 58 + cr 3 * 2 ^ 71

/-- A flit's 256 bytes from its slots 0 to 14 and its trailer. -/
def flitBytes (slots : List Byte) (t : Trailer) : List Byte :=
  let body := padTo 240 slots ++ leBytes 12 (trailerBits t)
  body ++ leBytes 4 (crc32 body)

/-- A NOP slot (R230). -/
def nopSlot : List Byte := leBytes 16 opNOP

/-- A message as its slots. -/
def Msg.slots (m : Msg) : List Byte := leBytes 16 m.hdr.toNat ++ m.data

/-- Data bytes in whole slots. -/
def padSlots (bs : List Byte) : List Byte := padTo ((bs.length + 15) / 16 * 16) bs

/-! ### Element lists -/

/-- The list without its element `i`. -/
def eraseAt {α : Type} : Nat → List α → List α
  | _, [] => []
  | 0, _ :: xs => xs
  | i + 1, x :: xs => x :: eraseAt i xs

end Sys2Proof.Machine
end

