-- ==== Sys2Proof/Machine/Egress.lean ====
section
/-! DEFINITION. The sending side of a module (R233 to R246, R253 to R258, R272) and the accounts that a granted access
leaves (R196, R198, R226). -/

namespace Sys2Proof.Machine

def modPage (m : Nat) : Page := ⟨.MOD, m⟩
def arbPage (g : Nat) : Page := ⟨.ARB, g⟩
def tctPage (c : Nat) : Page := ⟨.TCT, c⟩

def State.link (s : State) (m : Nat) : Link := (find s.links m).getD {}
def State.setLink (s : State) (m : Nat) (l : Link) : State := { s with links := put s.links m l }
def State.modLink (s : State) (m : Nat) (f : Link → Link) : State := s.setLink m (f (s.link m))

/-- MOD_STATUS.STATE: 0 DOWN, 1 TRAINING, 2 CRED_INIT, 3 UP, 4 RESETTING (Table 6-14). -/
def State.modState (s : State) (m : Nat) : Nat := s.get (modPage m) F.MOD_MOD_STATUS_STATE
def State.modUp (s : State) (m : Nat) : Bool := s.modState m == 3
/-- The module is the twin link (R262). -/
def State.isTwin (s : State) (m : Nat) : Bool := s.flag (modPage m) F.MOD_MOD_STATUS_TWIN
/-- The context is in the module's PORT_AUTH. -/
def State.authorised (s : State) (m c : Nat) : Bool := (s.get (modPage m) F.MOD_PORT_AUTH_MASK).testBit c
/-- VC_MAP[k] of a module. -/
def State.vcMap (s : State) (m k : Nat) : Nat := bits (s.get (modPage m) F.MOD_VC_MAP_MAP) (3 * k) 3

/-- The urgency stamp of a request for a module: the level adopted, or 0 where masked (R191, R192). -/
def State.urgOf (s : State) (m : Nat) : Nat :=
  if (s.get (arbPage (m / 2)) F.ARB_URG_CTRL_MASK).testBit (m % 2) then 0 else (s.link m).urg

/-! ### Accounts -/

def State.arb (s : State) (g : Nat) : Arb := (find s.arbs g).getD {}
def State.setArb (s : State) (g : Nat) (a : Arb) : State := { s with arbs := put s.arbs g a }

/-- `c` granted accesses of class k in a group (0 LOCAL, 1 STAIR, 2 STACK) of gallery g, naming n bytes in all (R198). -/
def State.granted (s : State) (g group k n : Nat) (c : Nat := 1) : State :=
  let f := if group = 0 then F.ARB_BYTES_LOCAL else if group = 1 then F.ARB_BYTES_STAIR else F.ARB_BYTES_STACK
  let a := s.arb g
  let i := group * 8 + k
  let line := if group = 1 then 0 else c
  (s.countW (arbPage g) (f.at k) n).setArb g { a with win := put a.win i ((find a.win i).getD 0 + c)
                                                      moved := a.moved + line, bucket := a.bucket - line }

/-- A request of class k and context c is refused admission in gallery g; `again` says it has been counted (R196). (DESIGN CHOICE, log entry 52) -/
def State.refuse (s : State) (g k c : Nat) (again : Bool) : State :=
  let a := s.arb g
  let s := s.setArb g { a with heldTick := a.heldTick ||| 2 ^ k, heldWin := a.heldWin ||| 2 ^ k }
  if again then s else (s.count (arbPage g) (F.ARB_HELD.at k)).countW (tctPage c) F.TCT_HELD

/-- The admission test of R194 and R195 for a queue of S slots: `held k` counts the slots of class k. -/
def State.admits (s : State) (g S : Nat) (held : Nat → Nat) (k urg : Nat) : Bool :=
  let G (j : Nat) : Nat := s.get (arbPage g) (F.ARB_CLASS_SHARE_MIN.at j) * S / 64
  let H (j : Nat) : Nat := max 1 (s.get (arbPage g) (F.ARB_CLASS_SHARE_CEIL.at j) * S / 64)
  let total := (List.range 8).foldl (fun n j => n + held j) 0
  let reserved := (List.range 8).foldl (fun n j => if j = k then n else n + (G j - held j)) 0
  decide (total < S) && (decide (held k < G k) || (decide (held k < (if urg = 3 then S else H k)) && decide (reserved < S - total)))

/-! ### The pace limiter (R671, R696) -/

/-- The limiter of gallery g lets metered requesters take part: off, not yet computed, or its bucket holds lines. (DEDUCED, log entry 146) -/
def State.limOpen (s : State) (g : Nat) : Bool :=
  !s.purser.limitOn || !s.purser.computed || decide (0 < (s.arb g).bucket)

/-- A module's DAT traffic in a direction (`wr`: from the fabric) is below its PACE value in force (R206). -/
def State.belowPace (s : State) (m : Nat) (wr : Bool) : Bool :=
  let l := s.link m
  if wr then decide (l.gotWr < l.paceWr * 768) else decide (l.gotRd < l.paceRd * 768)

/-- A metered requester (by key: queue, 128 + ring, 256 + errand) is held by the limiter; counted once until the bucket
fills again. -/
def State.limHold (s : State) (g key : Nat) : State :=
  if s.limOpen g then s
  else
    let a := s.arb g
    let s := if a.limWait.contains key then s else s.count pgPRS (F.PRS_LIMIT_HELD.at g)
    s.setArb g { a with limWait := if a.limWait.contains key then a.limWait else key :: a.limWait, limHeld := true }

/-! ### The stair (R21 to R25, R33, R198) -/

def gswPage (g : Nat) : Page := ⟨.GSW, g⟩

/-- The first-hop link of a route by distance (Table 1-4): 0 to g + 1, 1 to g − 1, 2 to g + 4; and the node it leads to. -/
def stairHop (d : Nat) : Nat := if d = 1 ∨ d = 2 then 0 else if d = 6 ∨ d = 7 then 1 else 2
def stairNext (g k : Nat) : Nat := (g + (if k = 0 then 1 else if k = 1 then 7 else 4)) % 8
/-- The destinations of a mask that leave node g by link k. -/
def stairVia (g k mask : Nat) : Nat :=
  (List.range 8).foldl (fun m h => if mask.testBit h && h != g && stairHop ((h + 8 - g) % 8) == k then m + 2 ^ h else m) 0

/-- The key of a buffer of node g for link k. -/
def stairKey (g k lane : Nat) (rsp : Bool) : Nat := (3 * g + k) * 4 + lane * 2 + b2n rsp
def State.stairBuf (s : State) (key : Nat) : List StairMsg := (find s.stair key).getD []
def State.setStairBuf (s : State) (key : Nat) (q : List StairMsg) : State :=
  { s with stair := if q.isEmpty then del s.stair key else put s.stair key q }

/-- A buffer of node g admits a message of class k with an urgency stamp (Table 5-4, R194, R195). -/
def State.stairAdmits (s : State) (g : Nat) (q : List StairMsg) (k urg : Nat) : Bool :=
  s.admits g 24 (fun c => (q.filter fun m => !m.held && m.cls == c).length) k urg

/-- A message waits for buffer space on outgoing link k of node g (R33, R196, Table 1-13). -/
def State.stairWait (s : State) (g k cls ctx : Nat) : State :=
  (s.count (gswPage g) (F.GSW_STAIR_HELD.at k)).refuse g cls ctx false

/-- A message enters the lane 0 buffer of its first hop, or waits at its source. -/
def State.stairEnter (s : State) (g k : Nat) (rsp : Bool) (m : StairMsg) : State :=
  let key := stairKey g k 0 rsp
  let q := s.stairBuf key
  if !(q.any fun x => x.held && x.cls == m.cls) && s.stairAdmits g q m.cls m.urg then s.setStairBuf key (q ++ [m])
  else (s.stairWait g k m.cls m.ctx).setStairBuf key (q ++ [{ m with held := true }])

/-- A message of node g to the galleries of a mask: one copy for each first-hop link (R541). (DESIGN CHOICE, log entry 32) -/
def State.stairSend (s : State) (g mask cls ctx n : Nat) (rsp : Bool) (urg : Nat := 0) : State :=
  foldS (fun k s =>
    let mk := stairVia g k mask
    if mk = 0 then s else s.stairEnter g k rsp { mask := mk, cls := cls, ctx := ctx, n := n, urg := urg }) [0, 1, 2] s

/-- Who makes an access: its gallery (8 the central block, which is in none and reaches each by its spoke), class, context
and urgency stamp (R191). -/
structure Acc where
  src : Nat
  cls : Nat
  ctx : Nat
  urg : Nat
  deriving DecidableEq, Repr

/-- The access needs the stair to reach gallery h. -/
def Acc.remote (a : Acc) (h : Nat) : Bool := a.src != h && decide (a.src < 8)

/-- The request buffer of the first hop towards gallery h has room for the access, if it needs one (R33). -/
def State.routeFree (s : State) (a : Acc) (h : Nat) : Bool :=
  !a.remote h || s.stairAdmits a.src (s.stairBuf (stairKey a.src (stairHop ((h + 8 - a.src) % 8)) 0 false)) a.cls a.urg

/-- One access of n bytes granted at gallery g (group 0: its bank ports, 2: its stack), read or write, with the locality
counts and the stair messages of a requester elsewhere (R21, R44, R198). The answer goes to gallery `dst` (R369). -/
def State.servedTo (s : State) (a : Acc) (g group n : Nat) (rd wr : Bool) (dst : Nat) : State :=
  let s := s.granted g group a.cls n
  let s := if group = 0 ∧ a.src < 8 then s.countW (gswPage g) (if a.src = g then F.GSW_LINES_LOCAL else F.GSW_LINES_REMOTE) else s
  let s := if a.remote g then s.stairSend a.src (2 ^ g) a.cls a.ctx (if wr then n else 0) false a.urg else s
  if decide (a.src < 8) && dst != g then s.stairSend g (2 ^ dst) a.cls a.ctx (if rd then n else 0) true a.urg else s

/-- An access whose answer goes back to its requester. (DESIGN CHOICE, log entry 10) -/
def State.served (s : State) (a : Acc) (g group n : Nat) (rd wr : Bool) : State := s.servedTo a g group n rd wr a.src

/-! ### Credits held to send -/

/-- Credits of a pool on a VC (0 REQ, 1 RSP, 2 MSG, 3 DAT). -/
def credFld (vc pool : Nat) : Fld :=
  (match pool with
   | 0 => F.MOD_CRED_HDR_REQ | 1 => F.MOD_CRED_HDR_RSP | 2 => F.MOD_CRED_HDR_MSG | _ => F.MOD_CRED_DAT_DAT).at vc
def State.cred (s : State) (m vc pool : Nat) : Nat := s.get (modPage m) (credFld vc pool)

def TxMsg.pool (t : TxMsg) : Nat := opClass (hOpc t.msg.hdr)
def TxMsg.dat (t : TxMsg) : Nat := t.msg.data.length / 16
/-- NOP, PACE and CRED_INIT need no credit (R240). -/
def TxMsg.free (t : TxMsg) : Bool := hOpc t.msg.hdr == opPACE || hOpc t.msg.hdr == opCRED_INIT || hOpc t.msg.hdr == opNOP

/-- What fills a flit: messages of one VC in order while slots and credits last. A message without credit blocks its
own pool (R272); one without slots ends the flit. `c pool` are the credits left. (DEDUCED, log entry 62) -/
def fillFlit (vc : Nat) : List TxMsg → Nat → (Nat → Nat) → Nat → List TxMsg × List TxMsg
  | [], _, _, _ => ([], [])
  | t :: ts, slots, c, blocked =>
    if t.vc ≠ vc ∨ blocked.testBit t.pool then
      let r := fillFlit vc ts slots c blocked
      (r.1, t :: r.2)
    else if 1 + t.dat > slots then ([], t :: ts)
    else if t.free then
      let r := fillFlit vc ts (slots - 1) c blocked
      (t :: r.1, r.2)
    else if c t.pool = 0 ∨ c 3 < t.dat then
      let r := fillFlit vc ts slots c (blocked ||| 2 ^ t.pool)
      (r.1, t :: r.2)
    else
      let r := fillFlit vc ts (slots - 1 - t.dat)
        (fun p => c p - (if p = t.pool then 1 else 0) - (if p = 3 then t.dat else 0)) blocked
      (t :: r.1, r.2)

/-- A halted module page keeps stream lines waiting (R756); the twin link carries none. -/
def State.modHeld (s : State) (m : Nat) : Bool := !s.running (modPage m) && s.run (modPage m) != RESETTING && !s.isTwin m

/-- The pool for want of which a VC is stalled: the first ready message of some pool that lacks its credit (R272). -/
def stallPool (s : State) (m vc : Nat) : List TxMsg → Nat → Option Nat
  | [], _ => none
  | t :: ts, seen =>
    if t.vc ≠ vc ∨ t.free ∨ seen.testBit t.pool then stallPool s m vc ts seen
    else if s.cred m vc t.pool = 0 ∨ (t.pool = 0 ∧ s.modHeld m) then some t.pool
    else if s.cred m vc 3 < t.dat then some 3
    else stallPool s m vc ts (seen ||| 2 ^ t.pool)

/-- A request of a VC waits in module m for a credit, or behind a halted page: its streams present nothing more (R272). (DEDUCED, log entry 73) -/
def State.reqStalled (s : State) (m vc : Nat) : Bool :=
  match (s.link m).tx.find? fun t => t.vc == vc && !t.free && t.pool == 0 with
  | some t => s.cred m vc 0 == 0 || s.modHeld m || decide (s.cred m vc 3 < t.dat)
  | none => false

/-- Bring STALL_STATE and the stall timers of a module up to date (R272, R273). -/
def State.updStall (s : State) (m : Nat) : State :=
  let l := s.link m
  let st (v : Nat) : Bool := s.modUp m && (stallPool s m v l.tx 0).isSome
  let at' := (List.range 8).filterMap fun v => if st v then some (v, (find l.stallAt v).getD s.ticks) else none
  let mask := (List.range 8).foldl (fun n v => n + b2n (st v) * 2 ^ v) 0
  let s := s.setLink m { l with stallAt := at' }
  let p := modPage m
  (s.set p F.MOD_STALL_STATE_STALLED mask).set p F.MOD_STALL_STATE_WARNED (s.get p F.MOD_STALL_STATE_WARNED &&& mask)

/-- A message becomes ready to leave a module. -/
def State.send (s : State) (m : Nat) (t : TxMsg) : State :=
  (s.modLink m fun l => { l with tx := l.tx ++ [t] }).updStall m

/-- A response to a fabric request (R239, R246, Table 6-6, which fixes LEN 3 and 0 for REG_RSP and TALLY_RSP): one with status DENIED is counted (R260). -/
def State.respond (s : State) (m : Nat) (h : BitVec 128) (st detail poison xf : Nat) (data : List Byte) : State :=
  let op := rspOp (hOpc h)
  let vc := s.vcMap m (hSc h)
  let r := mkHdr op (hTag h) (hSc h) vc (hCtx h) st (if op = opREG_RSP then 3 else if op = opTALLY_RSP then 0 else hLen h - 1) detail poison xf
  let s := if st = 5 then (s.count (modPage m) F.MOD_DENIED_COUNT).raise (modPage m) Err.MOD_DENIED
      (detReq m (hTag h) (hOpc h) (hCtx h) st detail (hAddr h)) else s
  let s := s.traceEv 2 m (hCtx h) (op + hTag h * 2 ^ 8 + st * 2 ^ 17 + detail * 2 ^ 21 + poison * 2 ^ 29)
  s.send m ⟨⟨r, padSlots data⟩, vc, hCtx h, .rsp (hTag h)⟩

/-! ### Flits sent -/

/-- Credit returns for one flit: at most four entries of at most 255. -/
def takeReturns : Nat → List Cred → List Cred × List Cred
  | 0, cs => ([], cs)
  | _, [] => ([], [])
  | k + 1, c :: cs =>
    let r := takeReturns k (if c.n > 255 then { c with n := c.n - 255 } :: cs else cs)
    ({ c with n := min c.n 255 } :: r.1, r.2)

/-- Put a flit on the wire: the trailer carries a NAK when one is owed, else the last accepted SEQ (R234, R235); an injected
CRC error inverts bit 0 of its CRC (R738). (DEDUCED, log entry 69; DEDUCED, log entry 180) -/
def State.emitFlit (s : State) (m : Nat) (f : TxFlit) : State :=
  let l := s.link m
  let t : Trailer := ⟨f.seq, (l.expSeq + 4095) % 4096, if l.nakOwed then 2 else 1, 0, f.creds.map fun c => (c.vc, c.pool, c.n)⟩
  let w := flitBytes f.slots t
  let w := if l.crcFlip then modAt (fun b => b ^^^ 1) 252 w else w
  (s.setLink m { l with wire := w, nakOwed := false, crcFlip := false }).countW (modPage m) F.MOD_FLITS_TX

/-- Frees that a sent credit return makes in the use count of receive credits. -/
def freeUsed (used : List (Nat × Nat)) : List Cred → List (Nat × Nat)
  | [] => used
  | c :: cs => let k := c.vc * 4 + c.pool; freeUsed (put used k ((find used k).getD 0 - c.n)) cs

/-- An IDLE flit: NOP slots, SEQ 0, no credit returns, an ACK or the NAK that is owed (R232, R235, Table 6-2). -/
def State.idleFlit (s : State) (m : Nat) : State :=
  let l := s.link m
  let t : Trailer := ⟨0, (l.expSeq + 4095) % 4096, if l.nakOwed then 2 else 1, 1, []⟩
  s.setLink m { l with wire := flitBytes (List.replicate 15 nopSlot).flatten t, nakOwed := false }

/-- The messages that may leave now: before every CRED_INIT is sent only those, and only messages without credit until the
module is UP (R242). -/
def State.txReady (s : State) (m : Nat) : List TxMsg :=
  let tx := (s.link m).tx
  if tx.any fun t => hOpc t.msg.hdr == opCRED_INIT then tx.filter fun t => hOpc t.msg.hdr == opCRED_INIT
  else if s.modUp m then tx else tx.filter TxMsg.free

/-- One beat of module egress for a VC: a buffered flit is sent again if a replay is in progress, else a new flit with
a waiting PACE in slot 0, the VC's messages and credit returns (R232, R233, R236, R256). -/
def State.egressFlit (s : State) (m vc : Nat) : State :=
  let l := s.link m
  if (s.modState m ≠ 2 ∧ s.modState m ≠ 3) ∨ l.retraining then s
  else match l.resend with
  | q :: qs =>
    match l.replay.find? (·.seq == q) with
    | some f => (s.setLink m { l with resend := qs }).emitFlit m f
    | none => s.setLink m { l with resend := qs }
  | [] =>
    if 64 ≤ l.replay.length then s.idleFlit m
    else
      let pace := if l.tx.any fun t => hOpc t.msg.hdr == opCRED_INIT then none else l.pace
      let paceSlot := match pace with
        | some h => leBytes 16 h.toNat
        | none => []
      let r := fillFlit vc (s.txReady m) (if pace.isSome then 14 else 15) (s.cred m vc) (b2n (s.modHeld m))
      let kept := r.1.foldl (fun tx t => tx.erase t) l.tx
      let cr := takeReturns 4 l.returns
      if r.1.isEmpty ∧ cr.1.isEmpty ∧ pace.isNone then s.idleFlit m
      else
        let slots := paceSlot ++ r.1.flatMap (·.msg.slots)
        let slots := slots ++ (List.replicate (15 - slots.length / 16) nopSlot).flatten
        let f : TxFlit := ⟨l.nextSeq, slots, cr.1, r.1.map (·.kind)⟩
        let paid := r.1.filter fun t => !t.free
        let sent (t : Nat) : Bool := r.1.any fun x => match x.kind with
          | .srd tag _ => tag == t
          | _ => false
        let lim := s.get (modPage m) F.MOD_RSP_TIMEOUT_US
        let srds := l.srds.map fun x => if sent x.tag then { x with deadline := if lim = 0 then none else some (s.ticks + lim) } else x
        let rd := paid.foldl (fun n t => n + t.msg.data.length) 0
        let s := s.setLink m { l with tx := kept, returns := cr.2, used := freeUsed l.used cr.1, pace := if pace.isSome then none else l.pace, srds := srds,
                                      nextSeq := (l.nextSeq + 1) % 4096, replay := l.replay ++ [f], gotRd := l.gotRd + rd,
                                      ackAt := if l.replay.isEmpty then s.ticks else l.ackAt }
        let s := paid.foldl (fun s t =>
          let s := s.set (modPage m) (credFld t.vc t.pool) (s.cred m t.vc t.pool - 1)
          s.set (modPage m) (credFld t.vc 3) (s.cred m t.vc 3 - t.dat)) s
        (s.emitFlit m f).updStall m

/-- Credits added to what waits to be returned: merged with an entry that waits for the same pool. -/
def addReturn (cs : List Cred) (vc pool n : Nat) : List Cred :=
  if n = 0 then cs
  else if cs.any fun c => c.vc == vc && c.pool == pool then
    cs.map fun c => if c.vc == vc && c.pool == pool then { c with n := c.n + n } else c
  else cs ++ [⟨vc, pool, n⟩]
/-- Return receive credits to the other side (R240, R241): request credits of a halted page are owed (R756), and data
credits are withheld while the write bucket of a metered module is empty (R207). -/
def State.giveBack (s : State) (m : Nat) (msg : Msg) : State :=
  s.modLink m fun l =>
    let vc := hVc msg.hdr
    let n := msg.data.length / 16
    let l := if opClass (hOpc msg.hdr) = 0 ∧ s.modHeld m then { l with owed := addReturn l.owed vc 0 1 }
      else { l with returns := addReturn l.returns vc (opClass (hOpc msg.hdr)) 1 }
    if l.enforced ∧ l.bktWr = 0 then { l with withheld := addReturn l.withheld vc 3 n } else { l with returns := addReturn l.returns vc 3 n }

/-- The adapter meters a module (R207, R214): ENFORCE as it stood at the send point, with a PACE in force. -/
def State.metered (s : State) (m : Nat) : Bool := (s.link m).enforced && s.modUp m && !s.isTwin m

/-! ### Interrupts (R257) -/

/-- A module takes an interrupt or an event of a context. -/
def State.routes (s : State) (m c : Nat) : Bool := s.modUp m && !s.isTwin m && s.authorised m c

/-- Send an INT for a context: class, SOURCE, RING, VECTOR, DATA (Table 6-9). -/
def State.sendInt (s : State) (c sc source ring vector data : Nat) : State :=
  let en := s.flag pgVTC (F.VTC_INT_ROUTE_EN.at c)
  let a := s.get pgVTC (F.VTC_INT_ROUTE_PRIMARY.at c)
  let b := s.get pgVTC (F.VTC_INT_ROUTE_ALTERNATE.at c)
  let go (m : Nat) : State :=
    let vc := s.vcMap m sc
    let h := mkHdr opINT 0 sc vc c 0 0 (source + ring % 64 * 2 ^ 8 + vector % 2 ^ 16 * 2 ^ 24) 0 data
    s.send m ⟨⟨h, []⟩, vc, c, .plain⟩
  if en && s.routes a c then go a
  else if en && s.routes b c then go b
  else (s.count pgVTC F.VTC_INT_UNROUTED).logRec pgVTC 0x1F (detVal source c) false false

end Sys2Proof.Machine
end

