-- ==== Sys2Proof/Machine/Float.lean ====
section
/-! DEFINITION. Element formats, exact values and the one rounding (R148 to R150, R334 to R339, Table 8-3). -/

namespace Sys2Proof.Machine

/-- An element format of Table 8-3. -/
inductive Fmt where
  | raw8 | fp32 | bf16 | fp16 | e4m3 | e5m2 | int8 | int4 | int16 | int32
  deriving DecidableEq, Repr

/-- The format of a code, if it is defined. -/
def Fmt.ofCode : Nat → Option Fmt
  | 0 => some .raw8 | 1 => some .fp32 | 2 => some .bf16 | 3 => some .fp16 | 4 => some .e4m3 | 5 => some .e5m2
  | 6 => some .int8 | 7 => some .int4 | 8 => some .int16 | 9 => some .int32 | _ => none

/-- Bits of an element. -/
def Fmt.width : Fmt → Nat
  | .raw8 => 8 | .fp32 => 32 | .bf16 => 16 | .fp16 => 16 | .e4m3 => 8 | .e5m2 => 8
  | .int8 => 8 | .int4 => 4 | .int16 => 16 | .int32 => 32

/-- Bytes of an element as an address step; an INT4 pair takes one byte (R326). -/
def Fmt.bytes (f : Fmt) : Nat := (f.width + 7) / 8

def Fmt.isInt : Fmt → Bool
  | .int8 | .int4 | .int16 | .int32 => true
  | _ => false

def Fmt.isFloat : Fmt → Bool
  | .fp32 | .bf16 | .fp16 | .e4m3 | .e5m2 => true
  | _ => false

/-- Fraction bits and exponent bits of a floating-point format. -/
def Fmt.mant : Fmt → Nat
  | .fp32 => 23 | .bf16 => 7 | .fp16 => 10 | .e4m3 => 3 | .e5m2 => 2 | _ => 0
def Fmt.expo : Fmt → Nat
  | .fp32 => 8 | .bf16 => 8 | .fp16 => 5 | .e4m3 => 4 | .e5m2 => 5 | _ => 0
def Fmt.bias (f : Fmt) : Nat := 2 ^ (f.expo - 1) - 1

/-- E4M3 alone has no infinity (Table 8-3). -/
def Fmt.hasInf (f : Fmt) : Bool := f != .e4m3

/-- The canonical NaN and the largest finite magnitude of Table 8-3. -/
def Fmt.nanBits : Fmt → Nat
  | .fp32 => 0x7FC00000 | .bf16 => 0x7FC0 | .fp16 => 0x7E00 | .e4m3 => 0x7F | .e5m2 => 0x7E | _ => 0
def Fmt.maxBits : Fmt → Nat
  | .fp32 => 0x7F7FFFFF | .bf16 => 0x7F7F | .fp16 => 0x7BFF | .e4m3 => 0x7E | .e5m2 => 0x7B | _ => 0
def Fmt.infBits (f : Fmt) : Nat := (2 ^ f.expo - 1) * 2 ^ f.mant

/-- An exact value: NaN, an infinity, or the number (-1)^neg * m * 2^e. -/
inductive FVal where
  | nan
  | inf (neg : Bool)
  | fin (neg : Bool) (m : Nat) (e : Int)
  deriving DecidableEq, Repr

/-- The exact value of an element's bits. -/
def Fmt.decode (f : Fmt) (b : Nat) : FVal :=
  if f.isFloat then
    let neg := b.testBit (f.width - 1)
    let ex := bits b f.mant f.expo
    let fr := bits b 0 f.mant
    if f == .e4m3 then
      if ex = 15 ∧ fr = 7 then .nan
      else if ex = 0 then .fin neg fr (1 - (f.bias : Int) - f.mant)
      else .fin neg (fr + 2 ^ f.mant) ((ex : Int) - f.bias - f.mant)
    else if ex = 2 ^ f.expo - 1 then (if fr = 0 then .inf neg else .nan)
    else if ex = 0 then .fin neg fr (1 - (f.bias : Int) - f.mant)
    else .fin neg (fr + 2 ^ f.mant) ((ex : Int) - f.bias - f.mant)
  else
    let i := if f == .raw8 then (b % 256 : Int) else toSigned f.width b
    .fin (decide (i < 0)) i.natAbs 0

/-- A value times 2^k. -/
def FVal.scale (v : FVal) (k : Int) : FVal :=
  match v with
  | .fin n m e => .fin n m (e + k)
  | v => v

/-- The exact product. -/
def FVal.mul (a b : FVal) : FVal :=
  match a, b with
  | .nan, _ => .nan
  | _, .nan => .nan
  | .inf n, .inf n' => .inf (n != n')
  | .inf n, .fin n' m _ => if m = 0 then .nan else .inf (n != n')
  | .fin n m _, .inf n' => if m = 0 then .nan else .inf (n != n')
  | .fin n m e, .fin n' m' e' => .fin (n != n') (m * m') (e + e')

/-- The exact sum (R149): a sum of zero is +0 unless both are -0; infinities of opposite sign give NaN. -/
def FVal.add (a b : FVal) : FVal :=
  match a, b with
  | .nan, _ => .nan
  | _, .nan => .nan
  | .inf n, .inf n' => if n = n' then .inf n else .nan
  | .inf n, .fin .. => .inf n
  | .fin .., .inf n => .inf n
  | .fin n m e, .fin n' m' e' =>
    let q := min e e'
    let x : Int := (if n then -1 else 1) * ((m * 2 ^ (e - q).toNat : Nat) : Int)
    let y : Int := (if n' then -1 else 1) * ((m' * 2 ^ (e' - q).toNat : Nat) : Int)
    let z := x + y
    if z = 0 then .fin (n && n' && m == 0 && m' == 0) 0 q else .fin (decide (z < 0)) z.natAbs q

/-- The rounding modes of RND (Table 8-1). -/
inductive Rnd where
  | rne | rtz | stoch
  deriving DecidableEq, Repr

def Rnd.ofCode : Nat → Option Rnd
  | 0 => some .rne | 1 => some .rtz | 2 => some .stoch | _ => none

/-- The magnitude m * 2^e in whole units of 2^q, rounded by the mode with uniform `u` (R150, R339). -/
def roundUnits (m : Nat) (e q : Int) (r : Rnd) (u : Nat) : Nat :=
  if q ≤ e then m * 2 ^ (e - q).toNat
  else
    let sh := (q - e).toNat
    let t := m >>> sh
    let rem := m % 2 ^ sh
    match r with
    | .rtz => t
    | .rne => if 2 * rem > 2 ^ sh ∨ (2 * rem = 2 ^ sh ∧ t % 2 = 1) then t + 1 else t
    | .stoch => if u < (rem * 2 ^ 32) >>> sh then t + 1 else t

/-- A converted element: its bits, and what R794 counts. -/
structure Enc where
  val : Nat
  isNan : Bool := false
  ovf : Bool := false
  deriving DecidableEq, Repr

/-- Round a value to a floating-point format (Table 8-4). -/
def Fmt.encodeFloat (f : Fmt) (r : Rnd) (sat : Bool) (u : Nat) (v : FVal) : Enc :=
  let sign (neg : Bool) : Nat := if neg then 2 ^ (f.width - 1) else 0
  match v with
  | .nan => { val := f.nanBits, isNan := true }
  | .inf neg =>
    if f.hasInf then { val := sign neg + f.infBits }
    else if sat then { val := sign neg + f.maxBits, ovf := true }
    else { val := f.nanBits, isNan := true, ovf := true }
  | .fin neg m e =>
    if m = 0 then { val := sign neg }
    else
      let lg : Int := (m.log2 : Int) + e
      let qmin : Int := 1 - (f.bias : Int) - f.mant
      let q := max (lg - f.mant) qmin
      let t := roundUnits m e q r u
      let (t, q) := if t = 2 ^ (f.mant + 1) then (2 ^ f.mant, q + 1) else (t, q)
      let bitsOf : Nat := if t < 2 ^ f.mant then t else (q - qmin + 1).toNat * 2 ^ f.mant + (t - 2 ^ f.mant)
      if bitsOf > f.maxBits then
        if sat ∨ r = .rtz then { val := sign neg + f.maxBits, ovf := true }
        else if f.hasInf then { val := sign neg + f.infBits, ovf := true }
        else { val := f.nanBits, isNan := true, ovf := true }
      else { val := sign neg + bitsOf }

/-- Round a value to an integer format. `wrap` keeps the low bits of a result out of range (R338 with SAT 0). -/
def Fmt.encodeInt (f : Fmt) (r : Rnd) (wrap : Bool) (u : Nat) (v : FVal) : Enc :=
  let hi : Int := ((2 ^ (f.width - 1) : Nat) : Int) - 1
  let lo : Int := -((2 ^ (f.width - 1) : Nat) : Int)
  match v with
  | .nan => { val := 0 }
  | .inf neg => { val := ofSigned f.width (if neg then lo else hi), ovf := true }
  | .fin neg m e =>
    let t := roundUnits m e 0 r u
    let i : Int := if neg then -(t : Int) else t
    if i > hi then { val := ofSigned f.width (if wrap then i else hi), ovf := true }
    else if i < lo then { val := ofSigned f.width (if wrap then i else lo), ovf := true }
    else { val := ofSigned f.width i }

/-- Convert an exact value to a format (R336 to R338). `srcInt` says the source format is an integer one. -/
def Fmt.encode (f : Fmt) (r : Rnd) (sat srcInt : Bool) (u : Nat) (v : FVal) : Enc :=
  if f.isFloat then f.encodeFloat r sat u v
  else if f.isInt then f.encodeInt r (srcInt && !sat) u v
  else match v with
    | .fin _ m e => { val := (roundUnits m e 0 r u) % 256 }
    | _ => { val := 0 }

/-- One lane of an atomic ADD (R148, R149). An infinite operand gives infinity whatever SAT holds. -/
def Fmt.addLane (f : Fmt) (r : Rnd) (sat : Bool) (u a b : Nat) : Nat :=
  if f.isFloat then (f.encodeFloat r sat u ((f.decode a).add (f.decode b))).val
  else (f.encodeInt .rne (!sat) 0 ((f.decode a).add (f.decode b))).val

/-- The FP32 bits nearest an exact value, ties to even, with no infinity in use (R513, R514). -/
def fp32Near (neg : Bool) (m : Nat) (e : Int) : Nat := (Fmt.fp32.encodeFloat .rne false 0 (.fin neg m e)).val

end Sys2Proof.Machine
end

