-- ==== Sys2Proof/Machine/Mix.lean ====
section
/-! DEFINITION. The mix and the normal variates (R502 to R514), as exact functions of their inputs. The real functions
are bounded by integer intervals whose precision rises until both ends round alike. -/

namespace Sys2Proof.Machine

def rotl32 (x n : Nat) : Nat := (x * 2 ^ n + x / 2 ^ (32 - n)) % 2 ^ 32

/-- The rounds of R502 over (X0, X1, X2, X3) and (K0, K1). -/
def mixRounds : Nat → Nat → Nat → Nat → Nat → Nat → Nat → Nat × Nat × Nat × Nat
  | 0, x0, x1, x2, x3, _, _ => (x0, x1, x2, x3)
  | n + 1, x0, x1, x2, x3, k0, k1 =>
    let t0 := ((x0 ^^^ k0) * 0xE817FB2D) % 2 ^ 32
    let t2 := ((x2 ^^^ k1) * 0x9C5A3E71) % 2 ^ 32
    let u1 := (x1 + (rotl32 t0 13 ^^^ t2)) % 2 ^ 32
    let u3 := x3 ^^^ ((rotl32 t2 19 + t0) % 2 ^ 32)
    mixRounds n u1 t2 u3 t0 ((k0 + 0xA5C31E6B) % 2 ^ 32) ((k1 + 0x7F4A9D27) % 2 ^ 32)

/-- A block's four words (R502, R503). -/
def mixBlock (key stream purpose pos : Nat) (quick : Bool) : List Nat :=
  let r := mixRounds (if quick then 6 else 10) (pos % 2 ^ 32) (pos / 2 ^ 32 % 2 ^ 32) (stream % 2 ^ 32)
    (purpose % 256 * 2 ^ 24) (key % 2 ^ 32) (key / 2 ^ 32 % 2 ^ 32)
  [r.1, r.2.1, r.2.2.1, r.2.2.2]

/-- Word k of a block. -/
def mixWord (key stream purpose pos : Nat) (quick : Bool) (k : Nat) : Nat :=
  (mixBlock key stream purpose pos quick).getD k 0

/-- The word a draw of four elements per block takes for the element at a position (R339, R341, R343). -/
def drawWord (key stream purpose p : Nat) (quick : Bool) : Nat :=
  mixWord key stream purpose (p / 4 % 2 ^ 64) quick (p % 4)

/-! ### Interval arithmetic in units of 2^-P -/

/-- The integer square root by bits. -/
def isqrtAux : Nat → Nat → Nat → Nat
  | 0, _, r => r
  | k + 1, n, r => let c := r + 2 ^ k; isqrtAux k n (if c * c ≤ n then c else r)
def isqrt (n : Nat) : Nat := isqrtAux (n.log2 / 2 + 1) n 0

/-- Terms of the series of atanh (num/den) with alternate signs when `alt`, from term k with power `pw`. -/
def atanSum (num den : Nat) (alt : Bool) : Nat → Nat → Nat → Int → Int
  | 0, _, _, acc => acc
  | n + 1, k, pw, acc =>
    let t : Int := ((pw / (2 * k + 1) : Nat) : Int)
    atanSum num den alt n (k + 1) (pw * num * num / (den * den)) (if alt && k % 2 == 1 then acc - t else acc + t)

/-- 2^P * atanh (num/den), from below within 2 * (P/3 + 4) + 4 units, for num/den at most 1/3. -/
def atanhFix (P num den : Nat) : Nat := (atanSum num den false (P / 3 + 4) 0 (2 ^ P * num / den) 0).toNat
/-- 2^P * atan (1/d), within P + 10 units. -/
def atanInv (P d : Nat) : Int := atanSum 1 d true (P / 2 + 4) 0 (2 ^ P / d) 0

/-- An interval around a real in units of 2^-P. -/
structure Iv where
  lo : Int
  hi : Int
  deriving DecidableEq, Repr

/-- -2 ln u1 with u1 = (U1 + 1) * 2^-32 (R513). -/
def negTwoLn (P U1 : Nat) : Iv :=
  let x := U1 + 1
  let L := x.log2
  let er : Int := 2 * (P / 3 + 4) + 4
  let ln2 : Int := 2 * (atanhFix P 1 3 : Int)
  let lm : Int := 2 * (atanhFix P (x - 2 ^ L) (x + 2 ^ L) : Int)
  let c : Int := ((32 - L : Nat) : Int)
  ⟨2 * (c * ln2 - (lm + 2 * er)), 2 * (c * (ln2 + 2 * er) - lm)⟩

/-- pi / 2 in units of 2^-P, within two units. -/
def halfPi (P : Nat) : Int := (8 * atanInv (P + 24) 5 - 2 * atanInv (P + 24) 239) / 2 ^ 24

/-- The alternating series of cos (k0 = 0) or sin (k0 = 1) at th, in units of 2^-P. -/
def trigSum (P : Nat) (th2 : Int) : Nat → Nat → Int → Int → Int
  | 0, _, _, acc => acc
  | n + 1, k, t, acc =>
    trigSum P th2 n (k + 2) (-(t * th2 / 2 ^ P) / (((k + 1) * (k + 2) : Nat) : Int)) (acc + t)

/-- cos (pi/2 * r / 2^30) for r from 0 to 2^30. -/
def cosQuarter (P r : Nat) : Iv :=
  let n := P / 4 + 8
  let er : Int := 8 * n + 32
  let hp := halfPi P
  let v : Int :=
    if 2 * r ≤ 2 ^ 30 then
      let th := hp * r / 2 ^ 30
      trigSum P (th * th / 2 ^ P) n 0 (2 ^ P) 0
    else
      let th := hp * ((2 ^ 30 - r : Nat) : Int) / 2 ^ 30
      trigSum P (th * th / 2 ^ P) n 1 th 0
  ⟨v - er, v + er⟩

/-- The transform variate at one precision, if both ends of its interval round to one FP32 value. -/
def normalTry (P U1 U2 : Nat) : Option Nat :=
  let quad := U2 / 2 ^ 30
  let r := U2 % 2 ^ 30
  let neg := quad == 1 || quad == 2
  let c := cosQuarter P (if quad % 2 = 0 then r else 2 ^ 30 - r)
  let a := negTwoLn P U1
  let slo := isqrt (a.lo.toNat * 2 ^ P)
  let shi := isqrt (a.hi.toNat * 2 ^ P) + 1
  let zlo := fp32Near neg (slo * c.lo.toNat) (-(2 * P : Int))
  let zhi := fp32Near neg (shi * c.hi.toNat) (-(2 * P : Int))
  if zlo = zhi then some zlo else none

/-- Rising precision; the last resort is a free value, which no input is known to reach. -/
def normalAux : Nat → Nat → Nat → Nat → Nat
  | 0, _, U1, U2 => Config.freeValue (U1 + U2 * 2 ^ 32) % 2 ^ 32
  | k + 1, P, U1, U2 =>
    match normalTry P U1 U2 with
    | some z => z
    | none => normalAux k (P + 96) U1 U2

/-- The transform variate of R513 as FP32 bits; zero where the exact value is zero. (DEDUCED, log entry 116) -/
def normalT (U1 U2 : Nat) : Nat :=
  if U1 = 2 ^ 32 - 1 ∨ U2 = 2 ^ 30 ∨ U2 = 3 * 2 ^ 30 then 0 else normalAux 6 160 U1 U2

/-! ### The table of R514 -/

/-- The terms of the integral of exp (-t^2/2) from 0 to m * 2^-s, in units of 2^-P. -/
def gaussSum (P m2 s2 : Nat) : Nat → Nat → Nat → Int → Int
  | 0, _, _, acc => acc
  | n + 1, k, pw, acc =>
    let t : Int := ((pw / (2 * k + 1) : Nat) : Int)
    gaussSum P m2 s2 n (k + 1) (pw * m2 / 2 ^ s2 / (2 * (k + 1))) (if k % 2 = 1 then acc - t else acc + t)

/-- The integral with its error in units of 2^-P, for m * 2^-s at most 5. -/
def gauss (P m s : Nat) : Iv :=
  let n := P / 2 + 60
  let v := gaussSum P (m * m) (2 * s) n 0 (m * 2 ^ P / 2 ^ s) 0
  let er : Int := (2 ^ 20 : Nat) * (n + 4)
  ⟨v - er, v + er⟩

/-- Whether m * 2^-s lies below the exact quantile i of R514, decided with rising precision. -/
def belowQuantile : Nat → Nat → Nat → Nat → Nat → Bool
  | 0, _, _, _, _ => false
  | k + 1, P, i, m, s =>
    let a := gauss P m s
    let b := gauss P 5 0
    if 1024 * a.hi < (i : Int) * b.lo then true
    else if (i : Int) * b.hi < 1024 * a.lo then false
    else belowQuantile k (P + 96) i m s

/-- The magnitude of finite positive FP32 bits as m * 2^-s. -/
def fp32Mag (b : Nat) : Nat × Nat :=
  let ex := b / 2 ^ 23
  if ex = 0 then (b % 2 ^ 23, 149) else ((b % 2 ^ 23 + 2 ^ 23) * 2 ^ (ex - 1), 149)

/-- The greatest FP32 bits below 2^k * 1 whose value lies below the quantile, by bits from the top. -/
def quantileBits (i : Nat) : Nat → Nat → Nat
  | 0, b => b
  | k + 1, b =>
    let c := b + 2 ^ k
    let v := fp32Mag c
    quantileBits i k (if c ≤ 0x40A00000 ∧ belowQuantile 4 192 i v.1 v.2 then c else b)

/-- Q[i] of R514 as FP32 bits. -/
def qTable (i : Nat) : Nat :=
  if i = 0 then 0
  else if i ≥ 1024 then 0x40A00000
  else
    let b := quantileBits i 31 0
    let v := fp32Mag b
    let w := fp32Mag (b + 1)
    if belowQuantile 4 192 i (v.1 + w.1) (v.2 + 1) then b + 1 else b

/-- The table variate of R514 from one word. -/
def normalTbl (U : Nat) : Nat :=
  let i := bits U 21 10
  let f := bits U 5 16
  let a := fp32Mag (qTable i)
  let b := fp32Mag (qTable (i + 1))
  let m := fp32Near false (a.1 * 65536 + (b.1 - a.1) * f) (-(149 + 16 : Int))
  if m = 0 then 0 else if U.testBit 31 then m + 2 ^ 31 else m

end Sys2Proof.Machine
end

