-- ==== Sys2Proof/Machine/Banks.lean ====
section
/-! DEFINITION. The banks (chapter 4): stored granules, line reads and writes, atomics, the tinker and the spare map. -/

namespace Sys2Proof.Machine

/-! ### Stored granules -/

/-- The number of a granule of a slot of a bank; its byte i is cell 9 * number + i of `State.sram`. -/
def granKey (b slot g : Nat) : Nat := (b * 3096 + slot) * 8 + g

/-- What an unlisted cell of the banks reads as: zero data with its check byte, as P2 writes it (R174). (DESIGN CHOICE, log entry 4) -/
def sramDflt (k : Nat) : Byte :=
  if k % 9 = 8 then
    let gk := k / 9
    BitVec.ofNat 8 (checkByte (locWord (gk / 8 / 3096) (gk / 8 % 3096) (gk % 8)) 0)
  else 0

/-- One stored byte of the banks. -/
def State.sramCell (s : State) (k : Nat) : Byte := (find s.sram k).getD (sramDflt k)

/-- A cell list with one cell written, in canonical form. -/
def cellPut (m : List Host.Cell) (k : Nat) (v dflt : Byte) : List Host.Cell := if v = dflt then del m k else put m k v

/-- The nine bytes of a granule written: data, then the check byte. -/
def sramPut9 (m : List Host.Cell) (gk : Nat) : Nat → List Byte → List Host.Cell
  | _, [] => m
  | i, v :: vs => sramPut9 (cellPut m (gk * 9 + i) v (sramDflt (gk * 9 + i))) gk (i + 1) vs

def State.granData (s : State) (gk : Nat) : Nat := leNat ((List.range 8).map fun i => s.sramCell (gk * 9 + i))
def State.granCheck (s : State) (gk : Nat) : Nat := (s.sramCell (gk * 9 + 8)).toNat
def State.granStore (s : State) (gk data check : Nat) : State :=
  { s with sram := sramPut9 s.sram gk 0 (leBytes 8 data ++ [BitVec.ofNat 8 check]) }

/-! ### The spare map (R174, R178) -/

def State.spare (s : State) (b k : Nat) : SpareEnt := (find s.spares (b * 24 + k)).getD ⟨0, false, false, false⟩
def State.setSpare (s : State) (b k : Nat) (e : SpareEnt) : State := { s with spares := put s.spares (b * 24 + k) e }

/-- The entry maps a line: VALID and not FAILED. -/
def SpareEnt.maps (e : SpareEnt) (l : Nat) : Bool := e.valid && !e.failed && e.line == l

/-- The spare slot that holds a line, if any. -/
def State.spareOf (s : State) (b l : Nat) : Option Nat := (List.range 24).find? fun k => (s.spare b k).maps l

/-- The slot that holds a line: the line's own, or 3072 + k. -/
def State.slotOf (s : State) (b l : Nat) : Nat :=
  match s.spareOf b l with
  | some k => 3072 + k
  | none => l

/-- The lowest spare slot that is neither in use nor FAILED. -/
def State.freeSlot (s : State) (b : Nat) : Option Nat :=
  (List.range 24).find? fun k => !(s.spare b k).valid && !(s.spare b k).failed

/-! ### Reading a line (R131 to R139) -/

def bnkPage (b : Nat) : Page := ⟨.BNK, b / 64⟩
def tnkPage (g : Nat) : Page := ⟨.TNK, g⟩

/-- Granule g of a line as read: no effect on state. (DEDUCED, log entry 41; DEDUCED, log entry 158) -/
def State.granPeek (s : State) (b l g : Nat) : GranRd :=
  let gk := granKey b (s.slotOf b l) g
  classify (locWord b l g) (s.granData gk) (s.granCheck gk)

/-- A line as read: no effect on state (the debug access path, R646). -/
def State.linePeek (s : State) (b l : Nat) : LineRd := ⟨(List.range 8).map (s.granPeek b l)⟩

/-- Write a granule with normal check bits, or with the stored poison code, which is counted (R135, R141). -/
def State.granWrite (s : State) (b l g data : Nat) (poison : Bool) : State :=
  let gk := granKey b (s.slotOf b l) g
  let c := checkByte (locWord b l g) data
  if poison then (s.granStore gk data (c ^^^ 0xFF)).count (bnkPage b) F.BNK_POISON_WRITE_COUNT
  else { s.granStore gk data c with injected := s.injected.filter (· ≠ gk) }

/-- The granule holds an injected error: records that it causes carry INJECTED (R173). -/
def State.isInjected (s : State) (b l g : Nat) : Bool := s.injected.contains (granKey b (s.slotOf b l) g)

/-- Counting and logging of one granule read (R134, R137). -/
def State.granNote (s : State) (b l g : Nat) (r : GranRd) : State :=
  let p := bnkPage b
  let inj := s.isInjected b l g
  let det := detMem (s.lineDpa b l) g r.synd b l
  match r.cls with
  | .good => s
  | .corrected =>
    let w := (find s.ceWindow b).getD ⟨0, 0, false⟩
    let s := (s.count p (F.BNK_CE_COUNT.at (b % 64))).raise p Err.BNK_CE det false inj
    { s with ceWindow := put s.ceWindow b { w with n := w.n + 1, line := l } }
  | .storedPoison => s.count p F.BNK_POISON_READ_COUNT
  | .uncorrectable =>
    let s := s.count p (F.BNK_UE_COUNT.at (b % 64))
    let s := (s.wr p F.BNK_ECC_LAST_LOC_BANK.off (BitVec.ofNat 32 (b % 64 + l * 2 ^ 6 + g * 2 ^ 18 + 2 ^ 31))).set p
      F.BNK_ECC_LAST_SYND_SYND r.synd
    s.raise p Err.BNK_UE det true inj

/-- The write-back of one granule after a read (R136). -/
def State.granScrub (s : State) (b l g : Nat) (r : GranRd) : State :=
  match r.cls with
  | .corrected => s.granWrite b l g r.data false
  | .uncorrectable => s.granWrite b l g r.data true
  | _ => s

/-- Note, and where `scrub` says so write back, each granule of a line just read. -/
def State.lineNote (b l : Nat) (scrub : Nat → Bool) : Nat → List GranRd → State → State
  | _, [], s => s
  | g, r :: rs, s =>
    let s := s.granNote b l g r
    lineNote b l scrub (g + 1) rs (if scrub g then s.granScrub b l g r else s)

/-- A bank's read of one line: the line as read, and the state with counts, log and write-backs. -/
def State.bankRead (s : State) (b l : Nat) : LineRd × State :=
  let r := s.linePeek b l
  (r, State.lineNote b l (fun _ => s.flag (bnkPage b) F.BNK_BNK_CTRL_SCRUB_ON_READ) 0 r.grans s)

/-! ### Writing a line (R132, R140 to R142, R173, R251) -/

/-- What a write reports: granules written with poison and granules corrected in its read, as masks. -/
structure WrOut where
  poison : Nat := 0
  corr : Nat := 0
  deriving DecidableEq, Repr

/-- Bytes of a write's report: each byte of `[o, o + n)` marked where its granule was written with poison (R144). -/
def WrOut.marks (w : WrOut) (o n : Nat) : List PByte := (List.range n).map fun i => (0, w.poison.testBit ((o + i) / 8))

def WrOut.status (o : WrOut) : Status := if o.poison ≠ 0 then .poisoned else if o.corr ≠ 0 then .okCorrected else .ok

/-- The bits an injection flips: bit numbers above 71 name none, and one bit named twice is flipped twice. (DESIGN CHOICE, log entry 178) -/
def injectBits (f1 f2 : Nat) : Nat := (if f1 < 72 then 2 ^ f1 else 0) ^^^ (if f2 < 72 then 2 ^ f2 else 0)

/-- The next write into the armed granule spends the injection (R173); `pois` says that it wrote the poison code, which is
then counted already (R141). (DEDUCED, log entry 40) -/
def State.spendInject (s : State) (b l g : Nat) (pois : Bool) : State :=
  let p := bnkPage b
  if s.flag p F.BNK_ECC_INJECT_ARM && s.get p F.BNK_ECC_INJECT_BANK == b % 64 && s.get p F.BNK_ECC_INJECT_GRANULE == g then
    let gk := granKey b (s.slotOf b l) g
    let d := s.granData gk
    let poison := s.flag p F.BNK_ECC_INJECT_POISON
    let x := s.granCheck gk * 2 ^ 64 + d ^^^ injectBits (s.get p F.BNK_ECC_INJECT_BIT1) (s.get p F.BNK_ECC_INJECT_BIT2)
    let s := if poison then (if pois then s else s.granWrite b l g d true) else s.granStore gk (x % 2 ^ 64) (x / 2 ^ 64)
    { s with injected := gk :: s.injected.filter (· ≠ gk) }.set p F.BNK_ECC_INJECT_ARM 0
  else s

/-- The 64-bit value with the enabled bytes replaced. -/
def mergeBytes (en old new : Nat) : Nat :=
  leNat ((List.range 8).map fun i => BitVec.ofNat 8 (bits (if en.testBit i then new else old) (8 * i) 8))

/-- A granule has been written with the poison code by a write or an atomic (R141, R152): logged as injected where an
injected error was the cause (R173). -/
def State.poisonWritten (s : State) (b : Nat) (inj : Bool) : State := s.raise (bnkPage b) Err.BNK_POISON_WRITTEN {} false inj

/-- Write the enabled bytes of granule g; `pois` asks for the poison code. (DEDUCED, log entry 177) -/
def State.granMerge (s : State) (b l g en new : Nat) (pois : Bool) : (Bool × Bool) × State :=
  if en = 0 then ((false, false), s)
  else if en = 255 then
    let s := s.granWrite b l g new pois
    ((pois, false), (if pois then s.poisonWritten b false else s).spendInject b l g pois)
  else
    let r := s.granPeek b l g
    let bad := r.cls.bad || pois
    let inj := r.cls.bad && s.isInjected b l g
    let s := (s.granNote b l g r).granWrite b l g (mergeBytes en r.data new) bad
    ((bad, r.cls == .corrected), (if bad then s.poisonWritten b inj else s).spendInject b l g bad)

/-- A bank's write of the enabled bytes of one line: `en` by byte of the line, `pois` by granule. -/
def State.bankWriteFrom (b l en : Nat) (data : List Byte) (pois : Nat) : Nat → Nat → WrOut → State → WrOut × State
  | 0, _, o, s => (o, s)
  | n + 1, g, o, s =>
    let r := s.granMerge b l g (bits en (8 * g) 8) (leAt data (8 * g) 8) (pois.testBit g)
    bankWriteFrom b l en data pois n (g + 1)
      ⟨o.poison + b2n r.1.1 * 2 ^ g, o.corr + b2n r.1.2 * 2 ^ g⟩ r.2

def State.bankWrite (s : State) (b l en : Nat) (data : List Byte) (pois : Nat := 0) : WrOut × State :=
  State.bankWriteFrom b l en data pois 8 0 {} s

/-! ### Atomics (R146 to R152, R169) -/

inductive Atop where
  | add | swap | cswap
  deriving DecidableEq, Repr

def Atop.ofCode : Nat → Option Atop
  | 0 => some .add | 1 => some .swap | 2 => some .cswap | _ => none

/-- The formats of Table 4-4. -/
def Fmt.atomic : Fmt → Bool
  | .raw8 | .fp32 | .bf16 | .fp16 | .int8 | .int16 | .int32 => true
  | _ => false

/-- An atomic at one line: `en` by byte of the line; `opnd` and `cmp` hold 64 bytes at the line's offsets; for CSWAP
`cmp` the compare values and `opnd` the new ones. `key` is the context's key read at translation (R508). -/
structure AtomReq where
  atop : Atop
  fmt : Fmt
  rnd : Rnd
  sat : Bool
  fetch : Bool
  salt : Nat
  key : Nat
  en : Nat
  opnd : List Byte
  cmp : List Byte
  deriving DecidableEq, Repr

/-- Each lane of w bytes is enabled wholly or not at all. -/
def wholeLanes (w en : Nat) : Bool :=
  (List.range (64 / w)).all fun i => bits en (i * w) w == 0 || bits en (i * w) w == 2 ^ w - 1

/-- The checks of R147 on the request itself. -/
def AtomReq.legal (a : AtomReq) : Bool :=
  a.fmt.atomic && !(a.fmt == .raw8 && a.atop == .add) && wholeLanes a.fmt.bytes a.en &&
  (a.fmt.isFloat || a.rnd == .rne) &&
  (a.atop != .cswap || (decide (popCount 64 a.en ≤ 32) && (a.en % 2 ^ 32 == 0 || a.en / 2 ^ 32 == 0)))

/-- The random word of the lane at byte o of the line at `dpa` (R150). -/
def AtomReq.uniform (a : AtomReq) (dpa o : Nat) : Nat :=
  let e := (dpa + o) / a.fmt.bytes
  mixWord a.key (a.salt % 2 ^ 16) 5 (e / 4) false (e % 4)

/-- The new value of the lane at byte o (Table 4-5). (DEDUCED, log entry 38) -/
def AtomReq.lane (a : AtomReq) (dpa o old : Nat) : Nat :=
  let new := leAt a.opnd o a.fmt.bytes
  match a.atop with
  | .add => a.fmt.addLane a.rnd a.sat (if a.rnd == .stoch then a.uniform dpa o else 0) old new
  | .swap => new
  | .cswap => if old = leAt a.cmp o a.fmt.bytes then new else old

/-- Granule g after the atomic, lane by lane. -/
def AtomReq.granule (a : AtomReq) (dpa g old : Nat) : Nat :=
  let w := a.fmt.bytes
  (List.range (8 / w)).foldl (fun acc i =>
    acc + (if a.en.testBit (8 * g + i * w) then a.lane dpa (8 * g + i * w) (bits old (8 * i * w) (8 * w))
           else bits old (8 * i * w) (8 * w)) * 2 ^ (8 * i * w)) 0

/-- Apply the atomic to each granule of the line it read (R152). -/
def State.atomFrom (b l : Nat) (a : AtomReq) (scrub : Bool) (dpa : Nat) :
    Nat → List GranRd → WrOut → State → WrOut × State
  | _, [], o, s => (o, s)
  | g, r :: rs, o, s =>
    let s := s.granNote b l g r
    if bits a.en (8 * g) 8 = 0 then
      atomFrom b l a scrub dpa (g + 1) rs o (if scrub then s.granScrub b l g r else s)
    else if r.cls.bad then
      let s := ((s.granWrite b l g r.data true).poisonWritten b (s.isInjected b l g)).spendInject b l g true
      atomFrom b l a scrub dpa (g + 1) rs ⟨o.poison + 2 ^ g, o.corr⟩ s
    else
      let s := (s.granWrite b l g (a.granule dpa g r.data) false).spendInject b l g false
      atomFrom b l a scrub dpa (g + 1) rs ⟨o.poison, o.corr + b2n (r.cls == .corrected) * 2 ^ g⟩ s

/-- Whether a mixer of the gallery is in service (R527). -/
def State.mixerUp (s : State) (g : Nat) : Bool := s.get ⟨.MIX, g⟩ F.MIX_MIX_STATUS_IN_SERVICE != 0

/-- A bank's atomic: none where R147 or R527 refuses it, which leaves the line unchanged. The old line is as read. (DEDUCED, log entry 43) -/
def State.bankAtomic (s : State) (b l : Nat) (a : AtomReq) : Option (LineRd × WrOut) × State :=
  if !a.legal then (none, s.raise (bnkPage b) Err.BNK_ATOMIC_ERROR)
  else if a.atop == .add && a.rnd == .stoch && !s.mixerUp (b / 64) then (none, s)
  else
    let r := s.linePeek b l
    let o := State.atomFrom b l a (s.flag (bnkPage b) F.BNK_BNK_CTRL_SCRUB_ON_READ) (s.lineDpa b l) 0 r.grans {} s
    (some (r, o.1), o.2.count (bnkPage b) F.BNK_ATOMIC_COUNT)

/-- The atomic returns old values: SWAP, CSWAP, or FETCH (Table 4-5). -/
def AtomReq.returns (a : AtomReq) : Bool := a.fetch || a.atop != .add

/-! ### The tinker (R156 to R163, R168 to R171) -/

def State.tinker (s : State) (g : Nat) : Tinker := (find s.tinkers g).getD {}
def State.setTinker (s : State) (g : Nat) (t : Tinker) : State := { s with tinkers := put s.tinkers g t }

/-- Queue a region ahead of the sweep; ignored with TARGET_IGNORED when the queue is full or no region has the number
(R161, R163). -/
def State.queueTarget (s : State) (g b r : Nat) : State :=
  let t := s.tinker g
  if 4 ≤ t.targets.length ∨ 48 < r then s.raise (tnkPage g) Err.TNK_TARGET_IGNORED
  else s.setTinker g { t with targets := t.targets ++ [(b, r)] }

/-- The repair of a line that failed RETEST: the slot it is restored to is then the spare's (R159, R170). (DEDUCED, log entry 179) -/
def State.tinkerRepair (s : State) (b l : Nat) : State :=
  let g := b / 64
  let p := tnkPage g
  let last (slot : Nat) (ok : Bool) (s : State) : State :=
    s.wr p F.TNK_TNK_REPAIR_LAST_BANK.off (BitVec.ofNat 32 (b % 64 + l * 2 ^ 6 + slot * 2 ^ 18 + b2n ok * 2 ^ 23 + 2 ^ 31))
  let det := detMem (s.lineDpa b l) 0 0 b l
  match s.freeSlot b with
  | none => (last 0 false s).raise p Err.TNK_REPAIR_EXHAUSTED det
  | some k =>
    if !s.flag p F.TNK_TNK_CTRL_AUTO_REPAIR then (last 0 false s).raise p Err.TNK_REPAIR_NEEDED det
    else
      let s := match s.spareOf b l with
        | some j => s.setSpare b j { s.spare b j with failed := true }
        | none => s
      let s := s.setSpare b k ⟨l, true, false, false⟩
      (last k true (s.count p F.TNK_REPAIR_COUNT)).raise p Err.TNK_REPAIRED det true

/-- A granule of the save buffer that fails its check on restore: its data and its syndrome are free values (R171). -/
def State.saveBroken (s : State) (r : GranRd) : GranRd × State :=
  let v := s.free
  ({ r with cls := .uncorrectable, data := v.1 / 256 % 2 ^ 64, synd := v.1 % 256 }, v.2)

/-- Restore one line from its saved copy, granule by granule (R156 phase 4, R171). -/
def State.tinkerRestore (b l saveBad : Nat) : Nat → List GranRd → State → State
  | _, [], s => s
  | g, r :: rs, s =>
    let q := if saveBad.testBit g then s.saveBroken r else (r, s)
    let s := if saveBad.testBit g then (q.2.granNote b l g q.1).raise (tnkPage (b / 64)) Err.TNK_SAVE_BUF_ERROR else s
    tinkerRestore b l saveBad (g + 1) rs (s.granWrite b l g q.1.data q.1.cls.bad)

/-- March leaves the background in all 72 stored bits of each granule of a slot (R156). -/
def State.slotFill (s : State) (b slot bg : Nat) : State :=
  (List.range 8).foldl (fun s g => s.granStore (granKey b slot g) (bg * 0x0101010101010101) bg) s

/-- The test of one line of a region: save, march outcome, repair, restore. The slot that a repaired line leaves keeps the
background. (DEDUCED, log entry 179) -/
def State.tinkerLine (s : State) (b l bg : Nat) (f : Option LineTest) : State :=
  let r := s.linePeek b l
  let s := State.lineNote b l (fun _ => false) 0 r.grans s
  let p := tnkPage (b / 64)
  let s := match f with
    | none => s
    | some f =>
      if !f.march then s
      else if f.retest then (s.slotFill b (s.slotOf b l) bg).tinkerRepair b l
      else (s.count p F.TNK_MARCH_TRANSIENT).logRec p 0x1F (detMem (s.lineDpa b l) 0 0 b l) false false
  State.tinkerRestore b l ((f.map (·.saveBad)).getD 0) 0 r.grans s

/-- March the unused spare slots of a bank: they keep the background, and one that fails is FAILED (R158, R159). -/
def State.tinkerSpares (b : Nat) (bg : Nat) (fails : List LineTest) : List Nat → State → State
  | [], s => s
  | k :: ks, s =>
    let e := s.spare b k
    if e.valid then tinkerSpares b bg fails ks s
    else
      let s := s.slotFill b (3072 + k) bg
      tinkerSpares b bg fails ks
        (if fails.any fun f => f.line == k && f.march then s.setSpare b k { e with failed := true } else s)

/-- Bank accesses that a region test makes (R131, R156, R158): one a line in SAVE and in RESTORE, ten in MARCH and ten in
RETEST; ten for each unused spare slot. -/
def State.tinkerLines (s : State) (b r : Nat) (faults : List LineTest) : Nat :=
  if r < 48 then 64 * 12 + 10 * ((List.range 64).filter fun i => (faults.find? fun f => f.line == i).any (·.march)).length
  else 10 * ((List.range 24).filter fun k => !(s.spare b k).valid).length

/-- One region test of gallery g, whole: the queue's region or the sweep's next (R156 to R161). (DESIGN CHOICE, log entry 44) -/
def State.tinkerRegionStart (g : Fin 8) (faults : List LineTest) (s : State) : State :=
  let t := s.tinker g
  let p := tnkPage g
  if s.phase ≠ 6 ∨ !s.running p ∨ !s.running pgMMAP ∨ !s.flag p F.TNK_TNK_CTRL_EN ∨ s.ticks < t.nextAt then s
  else
    let (b, r, t') : Nat × Nat × Tinker := match t.targets with
      | (b, r) :: rest => (b, r, { t with targets := rest })
      | [] => (t.sweepBank, t.sweepRegion,
          if t.sweepBank < 63 then { t with sweepBank := t.sweepBank + 1 }
          else if t.sweepRegion < 48 then { t with sweepBank := 0, sweepRegion := t.sweepRegion + 1 }
          else { t with sweepBank := 0, sweepRegion := 0, bg55 := !t.bg55 })
    let wrapped := t.targets.isEmpty && t.sweepBank == 63 && t.sweepRegion == 48
    let gb := 64 * g.val + b
    let bg := if t.bg55 then 0x55 else 0
    let n := s.tinkerLines gb r faults
    let s := s.granted g 0 (s.get p F.TNK_TNK_CTRL_CLASS) (64 * n) n
    let s := if r < 48 then
        foldS (fun i s => s.tinkerLine gb (64 * r + i) bg (faults.find? fun f => f.line == i)) (List.range 64) s
      else State.tinkerSpares gb bg faults (List.range 24) s
    let s := s.setTinker g { t' with nextAt := s.ticks + s.get p F.TNK_TNK_INTERVAL_US }
    if wrapped then s.count p F.TNK_SWEEP_COUNT else s

/-- A bank has reached CE_TRIGGER corrections in its 1 ms window: its last corrected line's region is queued (R162). (DEDUCED, log entry 45) -/
def State.ceTrigger (b : Fin 512) (s : State) : State :=
  let g := b.val / 64
  let t := s.tinker g
  match find s.ceWindow b with
  | none => s
  | some w =>
    if t.trigger = 0 ∨ w.queued ∨ w.n < t.trigger then s
    else
      let r := (b.val % 64, w.line / 64)
      let s := { s with ceWindow := put s.ceWindow b { w with queued := true } }
      if 4 ≤ t.targets.length ∨ r ∈ t.targets then s else s.setTinker g { t with targets := t.targets ++ [r] }

/-- The start of a 1 ms window: counts clear and CE_TRIGGER is taken over (R162, Table 4-8). -/
def State.ceWindowStart (s : State) : State :=
  foldS (fun g s => s.setTinker g { s.tinker g with trigger := s.get ⟨.BNK, g⟩ F.BNK_BNK_CTRL_CE_TRIGGER })
    (List.range 8) { s with ceWindow := [] }

/-! ### SPARE_ENTRY (R178) -/

/-- The entry that SPARE_INDEX selects, as the register reads. -/
def State.spareWord (s : State) (g : Nat) : Word :=
  let p := tnkPage g
  let k := s.get p F.TNK_SPARE_INDEX_SLOT
  if 24 ≤ k then 0
  else
    let e := s.spare (64 * g + s.get p F.TNK_SPARE_INDEX_BANK) k
    BitVec.ofNat 32 (e.line + b2n e.valid * 2 ^ 12 + b2n e.factory * 2 ^ 13 + b2n e.failed * 2 ^ 14)

/-- A write of SPARE_ENTRY; one that changes nothing sets no flag (R755). -/
def State.spareWrite (s : State) (g : Nat) (w : Word) : State :=
  let p := tnkPage g
  let k := s.get p F.TNK_SPARE_INDEX_SLOT
  if 24 ≤ k then s.raise p Err.TNK_BAD_VALUE
  else if (w ^^^ s.spareWord g) &&& 0x5FFF#32 = 0 then s
  else if !s.halted p then s.raise p Err.WRITE_WHILE_RUN
  else
      let b := 64 * g + s.get p F.TNK_SPARE_INDEX_BANK
      let e : SpareEnt := ⟨wbits w 0 12, w.getLsbD 12, false, w.getLsbD 14⟩
      let clash := e.valid && !e.failed && (List.range 24).any fun j => j != k && (s.spare b j).maps e.line
      if (s.spare b k).factory then s
      else if clash || (e.valid && decide (3071 < e.line)) then s.raise p Err.TNK_BAD_VALUE
      else s.setSpare b k e

end Sys2Proof.Machine
end

