-- ==== Sys2Proof/Machine/Mirror.lean ====
section
/-! DEFINITION. The mirror path of twin mode (R589 to R608): which operations are mirrored, the messages that carry them
and the operations in flight. -/

namespace Sys2Proof.Machine

def State.twinState (s : State) : Nat := s.get pgTWN F.TWN_TWN_STATUS_STATE
def twOFF : Nat := 0
def twJOINING : Nat := 1
def twPAIRED : Nat := 2
def twSOLO : Nat := 3
def twFENCED : Nat := 4
def twSRC : Nat := 5
def twTGT : Nat := 6
def twUNPAIRED : Nat := 7

/-- This die is the sequencer (R588). -/
def State.sequencer (s : State) : Bool := s.flag pgTWN F.TWN_TWN_STATUS_SEQUENCER
/-- Mirrored operations are sent to a peer. -/
def State.mirroring (s : State) : Bool := s.twinState == twPAIRED || s.twinState == twSRC
/-- Mirrored operations of this die's requesters go to the sequencer first (R593). -/
def State.forwards (s : State) : Bool := s.twinState == twPAIRED && !s.sequencer

/-- The enabled mirrored region that names a DPA (R604). -/
def State.mirRegion (s : State) (dpa : Nat) : Option Nat :=
  (List.range 16).find? fun k =>
    s.flag pgTWN (F.TWN_MIR_SIZE_EN.at k) &&
    decide (s.get pgTWN (F.TWN_MIR_BASE_BASE.at k) * 2 ^ 16 ≤ dpa ∧
      dpa < (s.get pgTWN (F.TWN_MIR_BASE_BASE.at k) + s.get pgTWN (F.TWN_MIR_SIZE_SIZE.at k)) * 2 ^ 16)

/-- The origin of a mirrored operation (Table 14-3): OKIND, OID, OTAG, and the class and context of the request. -/
structure MirOrg where
  okind : Nat := 3
  oid : Nat := 0
  otag : Nat := 0
  sc : Nat := 0
  ctx : Nat := 0
  deriving DecidableEq, Repr

def mkTALLY : Nat := 0
def mkTAKE : Nat := 1
def mkLINE : Nat := 2
def mkATOM : Nat := 3
def mkCONFIG : Nat := 4
def mkREALIGN : Nat := 5
def mkCONTEXT : Nat := 6
def mkCOPY_TALLY : Nat := 7
def mkCOPY_CONFIG : Nat := 8
def mkCOPY_LINE : Nat := 9

/-- The origin slot (Table 14-3). -/
def originSlot (mkind : Nat) (o : MirOrg) (odie ftag byteEn kspec : Nat) : List Byte :=
  leBytes 16 (mkind % 16 + o.okind % 4 * 2 ^ 4 + o.oid % 128 * 2 ^ 6 + o.otag % 512 * 2 ^ 13 + odie % 2 * 2 ^ 22 +
    ftag % 512 * 2 ^ 23 + byteEn % 2 ^ 64 * 2 ^ 32 + kspec % 2 ^ 32 * 2 ^ 96)

/-- A message for the peer leaves on VC0 of M15 (R606). -/
def State.twinSend (s : State) (opc tag sc ctx st len addr poison xf : Nat) (data : List Byte) : State :=
  s.send 15 ⟨⟨mkHdr opc tag sc 0 ctx st len addr poison xf, data⟩, 0, ctx, .plain⟩

/-- A mirror tag that no operation in flight holds, the next in turn first; none with all 512 in use (R607, Table 18-8). (DESIGN CHOICE, log entry 183) -/
def State.mirTag (s : State) : Option Nat :=
  ((List.range 512).map fun i => (s.twin.nextTag + i) % 512).find? fun t => !s.twin.ops.any (·.tag == t)

/-- A message built with TAG 0 gets its tag. -/
def Msg.tagged (m : Msg) (t : Nat) : Msg := { m with hdr := m.hdr ||| BitVec.ofNat 128 (t * 2 ^ 8) }

/-- A tagged message leaves on VC0 of M15 (R606). -/
def State.mirOut (s : State) (t : Nat) (m : Msg) : State :=
  let s := s.send 15 ⟨m, 0, hCtx m.hdr, .plain⟩
  { s with twin := { s.twin with nextTag := (t + 1) % 512 } }

/-- An operation with its message, built with TAG 0, is in flight; the message waits while no tag is free. (DESIGN CHOICE, log entry 183) -/
def State.mirSend (s : State) (fwd : Bool) (mseq : Nat) (m : Msg) (fin : MirDone) : State :=
  let add (t : Nat) (m : Msg) (s : State) : State := { s with twin := { s.twin with ops := s.twin.ops ++ [⟨t, fwd, mseq, m, fin⟩] } }
  match s.mirTag with
  | some t => if s.twin.ops.any (·.tag == 512) then add 512 m s else add t (m.tagged t) (s.mirOut t (m.tagged t))
  | none => add 512 m s

/-- The oldest message that waits for a tag goes out with a free one. (DESIGN CHOICE, log entry 183) -/
def State.mirNext (s : State) : State :=
  match s.twin.ops.find? (·.tag == 512) with
  | none => s
  | some o => match s.mirTag with
    | none => s
    | some t =>
      let m := o.msg.tagged t
      let s := s.mirOut t m
      { s with twin := { s.twin with ops := modAt (fun o => { o with tag := t, msg := m }) (s.twin.ops.findIdx (·.tag == 512)) s.twin.ops } }

/-- What a mirrored operation carries: MKIND, the ADDR field as 48 bits, LEN, POISON, byte enables, KSPEC, and the slots
after the origin slot. -/
structure MirBody where
  mkind : Nat
  addr : Nat
  len : Nat := 0
  poison : Nat := 0
  en : Nat := 0
  kspec : Nat := 0
  slots : List Byte := []
  /-- The sequencer's status, in the STATUS field of the M_APPLY. -/
  st : Nat := 0
  deriving DecidableEq, Repr

/-- The ADDR field of a tally operation as the VTL TALLY request places it (Table 6-6). -/
def tallyAddr (top phys n : Nat) : Nat := top % 16 + phys % 2 ^ 13 * 2 ^ 8 + n % 2 ^ 24 * 2 ^ 24

/-- The number of this die: 0 A, 1 B. -/
def State.dieNo (s : State) : Nat := s.get pgTWN F.TWN_TWN_STATUS_ROLE

/-- The next MSEQ is taken: the operation is applied on this die (R591). -/
def State.takeMseq (s : State) (line : Bool) : State :=
  let s := (s.set pgTWN F.TWN_MSEQ_LAST ((s.get pgTWN F.TWN_MSEQ_LAST + 1) % 2 ^ 32)).countW pgTWN F.TWN_MIRROR_OPS
  if line then s.countW pgTWN F.TWN_MIRROR_LINES else s

/-- The copy has passed the item: a tally, or a line by its DPA in a region still being copied (R605, R626).
Configuration is copied first. `front` is the next item to copy, in the first region of `copying`. -/
def State.pastFront (s : State) (mkind item : Nat) : Bool :=
  if mkind = mkLINE ∨ mkind = mkATOM then
    match s.mirRegion item with
    | none => true
    | some k => !s.twin.copying.contains k ||
      ((s.twinState == twPAIRED || decide (2 ≤ s.twin.pass)) && s.twin.copying.head? == some k && decide (item < s.twin.front))
  else s.twinState == twPAIRED ||
    (if mkind = mkCONFIG ∨ mkind = mkCONTEXT then decide (1 ≤ s.twin.pass)
     else decide (2 ≤ s.twin.pass) || (s.twin.pass == 1 && decide (item < s.twin.front)))

/-- The sequencer sends an operation it has applied: M_APPLY, and the operation waits for its M_ACK (R591, R593). With
no peer, or for an operation of its own ahead of the copy front, nothing is sent: the answer is that nothing waits. -/
def State.mirApply (s : State) (o : MirOrg) (b : MirBody) (odie ftag item : Nat) (fin : MirDone) : Bool × State :=
  let line := b.mkind == mkLINE || b.mkind == mkATOM
  let s := if s.twinState = twOFF then s else s.takeMseq line
  let s := if s.twinState ≠ twOFF ∧ s.twinState ≠ twPAIRED then s.set pgTWN F.TWN_TWN_STATUS_HOLDS_STATE 1 else s
  if s.mirroring && (odie != s.dieNo || s.pastFront b.mkind item) then
    let mseq := s.get pgTWN F.TWN_MSEQ_LAST
    let data := originSlot b.mkind o odie ftag b.en b.kspec ++ b.slots
    (true, s.mirSend false mseq ⟨mkHdr opM_APPLY 0 o.sc 0 o.ctx b.st b.len b.addr b.poison mseq, data⟩ fin)
  else (false, s)

/-- The non-sequencer sends an operation to the sequencer: M_FWD (R593). -/
def State.mirForward (s : State) (o : MirOrg) (b : MirBody) (fin : MirDone) : State :=
  let data := originSlot b.mkind o s.dieNo 0 b.en b.kspec ++ b.slots
  s.mirSend true 0 ⟨mkHdr opM_FWD 0 o.sc 0 o.ctx 0 b.len b.addr b.poison 0, data⟩ fin

end Sys2Proof.Machine
end

