-- ==== Sys2Proof/Machine/Errand.lean ====
section
/-! DEFINITION. The errand path's entries (R385, R386): pieces of a request, their completion and the response. -/

namespace Sys2Proof.Machine

def State.path (s : State) (g : Nat) : ErrandPath := (find s.paths g).getD {}
def State.setPath (s : State) (g : Nat) (p : ErrandPath) : State := { s with paths := put s.paths g p }
def State.modPath (s : State) (g : Nat) (f : ErrandPath → ErrandPath) : State := s.setPath g (f (s.path g))

/-- A status from its code. -/
def Status.ofCode : Nat → Status
  | 0 => .ok | 1 => .okCorrected | 2 => .okOrphaned | 3 => .poisoned | 4 => .fault | 5 => .denied | 6 => .retired
  | 7 => .underflow | 8 => .timeout | 9 => .aborted | _ => .error

/-- The answer of an errand whose pieces are complete (R139, R143, R246, R252, R389); RETIRED if its context ended before
one of them was granted (R266). (DEDUCED, log entry 37; DEDUCED, log entry 53) -/
def State.finishErrand (s : State) (e : Errand) : State :=
  let st := if e.pieces.any (·.st == 6) then Status.retired else e.pieces.foldl (fun a p => a.worst (Status.ofCode p.st)) Status.ok
  let bytes := e.pieces.flatMap (·.bytes)
  let mask := unitMask 8 bytes
  let h := e.msg.hdr
  let op := hOpc h
  let detail := if st == .error then dtTarget else 0
  let returns := op == opRD || (op == opATOM && (hb h 100 3 != 0 || hb h 106 1 == 1))
  let s := if st == .error || st == .retired then s
    else if op = opRD then s.countW (tctPage (hCtx h)) F.TCT_RD_BYTES (hLen h)
    else if op = opATOM then s.countW (tctPage (hCtx h)) F.TCT_ATOMICS
    else s.countW (tctPage (hCtx h)) F.TCT_WR_BYTES (if e.merged.isEmpty then hLen h else (e.merged.map (·.n)).sum)
  if e.merged.isEmpty then
    if e.discard then s
    else s.respond e.m h st.code detail (if st == .error then 0 else mask) 0 (if st.hasData && returns then bytes.map (·.1) else [])
  else
    e.merged.foldl (fun s w =>
      if w.mute then s else s.respond w.m w.msg.hdr st.code detail (if st == .error then 0 else unitMask 8 ((bytes.drop w.off).take w.n)) 0 []) s

/-- A piece of an errand is complete; with its last piece the errand answers and leaves its entry. -/
def State.pieceDone (s : State) (g id piece st : Nat) (bytes : List PByte) : State :=
  let p := s.path g
  match p.entries.find? (·.id == id) with
  | none => s
  | some e =>
    let e := { e with pieces := modAt (fun q => { q with fin := true, st := st, bytes := bytes }) piece e.pieces }
    if e.pieces.all (·.fin) then
      (s.setPath g { p with entries := p.entries.filter (·.id != id) }).finishErrand e
    else s.setPath g { p with entries := p.entries.map fun x => if x.id == id then e else x }

end Sys2Proof.Machine
end

