-- ==== Sys2Proof/Machine/Draw.lean ====
section
/-! DEFINITION. The draw (R181 to R185, R190 to R192, R218, R793): LFSRs, seeds, tickets and the lottery. -/

namespace Sys2Proof.Machine

/-- The LFSR shifted n times (R181). -/
def lfsrShift : Nat → Nat → Nat
  | 0, s => s
  | n + 1, s => lfsrShift n (if s % 2 = 1 then s / 2 ^^^ 0x80200003 else s / 2)

/-- The gallery whose ARB page owns an arbiter: a central arbiter counts on gallery 0 (R792). -/
def arbGallery (id : Nat) : Nat :=
  let t := id / 4096
  let i := id % 4096
  if t = 1 then i / 64 else if t = 2 then i / 3 else if t = 3 then i / 2 else if t = 4 then 0
  else if t = 6 then i / 32 else if t = 7 ∨ t = 0xB then i / 2
  else if t = 0xA then (if i < 0x800 then i / 256 else 0)
  else i % 8

/-- The arbiter is a central one (R792). -/
def arbCentral (id : Nat) : Bool := id / 4096 == 4 || (id / 4096 == 0xA && decide (0x800 ≤ id % 4096))

/-- Whether a mixer that may compute an arbiter's seed is in service (R185). -/
def State.seedMixer (s : State) (id : Nat) : Bool :=
  if arbCentral id then (List.range 8).any s.mixerUp else s.mixerUp (arbGallery id)

/-- The seed of an arbiter from its inputs (R185), or the fallback seed when no mixer can compute it (R527). -/
def seedFrom (id : Nat) (snap : SeedSnap) : Nat :=
  if snap.up then (mixWord 0 id 0 snap.pos false 0) / 2 ^ 16 * 2 ^ 16 + id
  else id * 2 ^ 16 + id
/-- The inputs of an arbiter's seed as they stand. -/
def State.seedNow (s : State) (id : Nat) : SeedSnap := ⟨s.get (arbPage (arbGallery id)) F.ARB_SEED_POS_POS, s.seedMixer id⟩
/-- The seed that an arbiter took or takes: of the inputs sampled last, or of those at its next draw (R217). -/
def State.seedOf (s : State) (id : Nat) : Nat :=
  seedFrom id ((find s.seeds (if arbCentral id then 8 else arbGallery id)).getD (s.seedNow id))

/-- Seed every LFSR (R185): the inputs are sampled now. -/
def State.seedAll (s : State) : State :=
  let snap (k : Nat) : Nat × SeedSnap :=
    (k, ⟨s.get (arbPage (k % 8)) F.ARB_SEED_POS_POS, s.seedMixer (if k = 8 then 0x4000 else 0x5000 + k)⟩)
  { s with lfsrs := [], seeds := (List.range 9).map snap }

/-- The LFSR of an arbiter; unlisted, it holds its seed. -/
def State.lfsr (s : State) (id : Nat) : Nat := (find s.lfsrs id).getD (s.seedOf id)

/-- Tickets of a class in a group with an urgency stamp (R190, R192). -/
def State.tickets (s : State) (g group k urg : Nat) : Nat :=
  let f := if group = 0 then F.ARB_TICKETS_LOCAL_LIVE else if group = 1 then F.ARB_TICKETS_STAIR_LIVE else F.ARB_TICKETS_STACK_LIVE
  s.get (arbPage g) (f.at k) * (if urg = 0 then 1 else if urg = 1 then 2 else 4)

/-- The group of an arbiter type (R190). -/
def arbGroup (t : Nat) : Nat := if t = 2 ∨ t = 3 ∨ t = 4 then 1 else if t = 5 ∨ t = 6 then 2 else 0

/-- The first requester whose running sum exceeds x. -/
def pickTicket : List (Nat × Nat) → Nat → Option Nat
  | [], _ => none
  | (i, t) :: rest, x => if x < t then some i else pickTicket rest (x - t)

/-- The winner of r among requesters (index, tickets) in ascending index (R182, R183). -/
def lottery (reqs : List (Nat × Nat)) (r : Nat) : Option Nat :=
  let w := (reqs.map (·.2)).sum
  if w = 0 then pickTicket (reqs.map fun p => (p.1, 1)) (r * reqs.length / 2 ^ 16)
  else pickTicket reqs (r * w / 2 ^ 16)

/-- One draw of an arbiter (R181 to R183); an LFSR found at zero is seeded again first (R218). -/
def State.draw (s : State) (id : Nat) (reqs : List (Nat × Nat)) : Option Nat × State :=
  if reqs.isEmpty then (none, s)
  else
    let x := s.lfsr id
    let s := if x = 0 then s.raise (arbPage (arbGallery id)) Err.ARB_LFSR_ZERO (detVal id 0) true else s
    let x := lfsrShift 16 (if x = 0 then seedFrom id (s.seedNow id) else x)
    (lottery reqs (bits x 16 16), { s with lfsrs := put s.lfsrs id x, emerged := s.emerged.filter (· ≠ id) })

/-- The gallery whose ticket values a requester takes: its own spoke's at a central arbiter (R190). -/
def Req.gallery (r : Req) (id : Nat) : Nat :=
  if id / 4096 = 4 then r.index / 16 % 8
  else if arbCentral id then (if r.index < 16 then r.index / 2 else 0)
  else arbGallery id

/-- The requesters that an arbiter can have (R180, Table 5-13): its sources by class, at most 128 of them. -/
def reqFits (id : Nat) (r : Req) : Bool :=
  let t := id / 4096
  let n := if t = 1 ∨ t = 5 then 80 else if t = 2 then 32 else if t = 3 then (if id % 2 = 0 then 24 else 16) else if t = 4 then 128
    else if t = 6 ∨ t = 7 ∨ t = 0xB ∨ t = 0xC then 8 else if t = 8 then 16 else if t = 9 then 24 else if t = 0xA then 17 else 0
  decide (r.index < n ∧ r.cls < 8 ∧ r.urg < 4) && (t == 7 || t == 0xA || t == 0xB || t == 0xC || r.index % 8 == r.cls)

/-- A requester as it takes part: the TAP draws with the base tickets of SC0 (R190). -/
def Req.norm (id : Nat) (r : Req) : Req := if id / 4096 = 0xA ∧ r.index = 16 then { r with cls := 0, urg := 0 } else r

/-- Requesters of an arbiter in ascending order of index, one for each index. -/
def orderReqs (id : Nat) (reqs : List Req) : List Req :=
  (((reqs.filter (reqFits id)).map (Req.norm id)).foldl (fun m r => put m r.index r) []).map (·.2)

/-- A draw among requesters by their tickets; those that lose are noted for the regulation window (R200). -/
def State.drawAmong (s : State) (id : Nat) (reqs : List Req) : Option Nat × State :=
  let grp := arbGroup (id / 4096)
  let d := s.draw id (reqs.map fun r => (r.index, s.tickets (Req.gallery r id) grp r.cls r.urg))
  let lost := reqs.filter fun r => d.1 != some r.index
  (d.1, foldS (fun r s => let g := Req.gallery r id; s.setArb g { s.arb g with lost := (s.arb g).lost ||| 2 ^ (grp * 8 + r.cls % 8) }) lost d.2)

/-- The arbiter grants requester `idx` among those that wait: the winner drawn before, or the winner of a draw made now,
which otherwise keeps its win. A drawn winner that no longer waits has withdrawn: a dead turn, and a draw (R186, R187). At
engine issue the winner may be a line request of another queue. -/
def State.grantTo (s : State) (id idx : Nat) (reqs : List Req) : Bool × State :=
  let go (s : State) : Bool × State :=
    let d := s.drawAmong id reqs
    match d.1 with
    | none => (false, d.2)
    | some w => if w = idx then (true, { d.2 with grants := del d.2.grants id }) else (false, { d.2 with grants := put d.2.grants id ⟨w⟩ })
  match find s.grants id with
  | none => go s
  | some w =>
    if reqs.any fun r => r.index == w.winner then
      if w.winner = idx then (true, { s with grants := del s.grants id }) else (false, s)
    else go (if id / 4096 = 7 then s else s.count (arbPage (arbGallery id)) F.ARB_DEAD_TURNS)

end Sys2Proof.Machine
end

