-- ==== Sys2Proof/Machine/Stack.lean ====
section
/-! DEFINITION. The HBM stacks (chapter 7): stored lines and their check, queueing and order, scheduling, patrol,
refresh, clears, parity events and failures. -/

namespace Sys2Proof.Machine

def hcPage (g : Nat) : Page := ⟨.HC, g⟩
def State.hc (s : State) (g : Nat) : Hc := (find s.hcs g).getD {}
def State.setHc (s : State) (g : Nat) (h : Hc) : State := { s with hcs := put s.hcs g h }
def State.modHc (s : State) (g : Nat) (f : Hc → Hc) : State := s.setHc g (f (s.hc g))

/-- HC_STATUS.STATE: 0 DOWN, 1 TRAINING, 2 UP, 3 RETRAINING, 4 FAILED, 5 SELF_REFRESH (Table 7-7). -/
def State.hcState (s : State) (g : Nat) : Nat := s.get (hcPage g) F.HC_HC_STATUS_STATE
/-- The stack gives ERROR (R39, R311). -/
def State.hcGone (s : State) (g : Nat) : Bool := s.hcState g == 4 || s.hcState g == 0 || s.hcState g == 1
/-- Admission is open: UP, not halting, no clear, and a throttled stack has lines left in its tick (R285, R316, R318,
R683). -/
def State.hcOpen (s : State) (g : Nat) : Bool :=
  s.hcState g == 2 && s.running (hcPage g) && !s.flag (hcPage g) F.HC_HC_STATUS_CLEARING &&
    (!(s.hc g).throttled || decide (0 < (s.hc g).cap))
/-- A refresh is owed on a channel: after a rise in the rate, after self-refresh exit, or because a bank of it has met the
stack's refresh-management threshold (R295, R296). (DESIGN CHOICE, log entry 173) -/
def State.hcOwes (s : State) (g ch : Nat) : Bool :=
  let h := s.hc g
  (find h.owed ch).getD 0 != 0 || (h.rfmAt != 0 && h.acts.any fun a => a.1 / 128 == ch && decide (h.rfmAt ≤ a.2))
/-- A channel carries ordinary bursts: it is not in retrain (R310) and owes no refresh (R295). (DESIGN CHOICE, log entry 173) -/
def State.hcChanOpen (s : State) (g ch : Nat) : Bool := !(s.hc g).retraining.contains ch && !s.hcOwes g ch
/-- Refreshes fall due at once on every channel of a stack, back to back: how many is a free value of at most one for each
bank. (DESIGN CHOICE, log entry 173) -/
def State.hcOwe (s : State) (g : Nat) : State :=
  let f := s.free
  f.2.modHc g fun h => { h with owed := (List.range 32).map fun ch => (ch, f.1 / 129 ^ ch % 129) }
/-- A stack leaves self-refresh (R295, R317, R318). -/
def State.hcWake (s : State) (g : Nat) : State := (s.set (hcPage g) F.HC_HC_STATUS_STATE 2).hcOwe g
/-- The rate of a training: the highest that the stack supports, capped by MAX_RATE (Table 7-1). -/
def State.hcRate (s : State) (g : Nat) : State :=
  s.set (hcPage g) F.HC_HC_STATUS_RATE (min (s.hc g).best (s.get (hcPage g) F.HC_HC_CTRL_MAX_RATE))
/-- One line admitted counts against the tick's lines of a throttled stack (R683). -/
def State.hcSpend (s : State) (g : Nat) : State := if (s.hc g).throttled then s.modHc g fun h => { h with cap := h.cap - 1 } else s
/-- The capacity found in training, in lines. -/
def State.hcLines (s : State) (g : Nat) : Nat := s.get pgMMAP (F.MMAP_HBM_CAP_GIB.at g) * 2 ^ 24

/-! ### Address fields (R283, Table 7-2) -/

structure HbmAddr where
  chan : Nat
  pc : Nat
  bank : Nat
  row : Nat
  deriving DecidableEq, Repr

/-- Channel, pseudo-channel, bank (with bank group and SID) and row of a line of a stack. -/
def State.hbmAddr (s : State) (g line : Nat) : HbmAddr :=
  let a := line * 64
  let hash := s.flag (hcPage g) F.HC_HC_MAP_HASH
  let ch := bits a 7 5 ^^^ (if hash then bits a 20 5 else 0)
  let bg := bits a 16 2 ^^^ (if hash then bits a 25 2 else 0)
  ⟨ch, bits a 6 1, bg + bits a 18 2 * 4 + bits a 34 2 * 16, bits a 20 14⟩

/-- The key of a bank of a pseudo-channel in `Hc.rows`. -/
def HbmAddr.key (a : HbmAddr) : Nat := (a.chan * 2 + a.pc) * 64 + a.bank

/-! ### Stored lines (R290) -/

def hbmKey (g line gran : Nat) : Nat := (g * 2 ^ 30 + line) * 8 + gran

/-- The location word of a granule of a stack: A[26:3] ⊕ (A[35:27] << 15). -/
def hbmLoc (line gran : Nat) : Nat :=
  let a := line * 64 + gran * 8
  bits a 3 24 ^^^ (bits a 27 9 * 2 ^ 15)

/-- What an unlisted cell of a stack reads as. -/
def hbmDflt (base : List (Nat × StackBase)) (k : Nat) : Byte :=
  match (find base (k / 72 / 2 ^ 30)).getD (.undef 0) with
  | .undef e => Config.hbmInit e k
  | .zeros => if k % 9 = 8 then BitVec.ofNat 8 (checkByte (hbmLoc (k / 72 % 2 ^ 30) (k / 9 % 8)) 0) else 0

def State.hbmCell (s : State) (k : Nat) : Byte := (find s.hbm k).getD (hbmDflt s.hbmBase k)

/-- A cell written: over lost contents every written cell is listed; over zeros the list stays canonical. -/
def hbmPut (base : List (Nat × StackBase)) (m : List Host.Cell) (k : Nat) (v : Byte) : List Host.Cell :=
  match (find base (k / 72 / 2 ^ 30)).getD (.undef 0) with
  | .undef _ => put m k v
  | .zeros => cellPut m k v (hbmDflt base k)

def hbmPut9 (base : List (Nat × StackBase)) (gk : Nat) : Nat → List Byte → List Host.Cell → List Host.Cell
  | _, [], m => m
  | i, v :: vs, m => hbmPut9 base gk (i + 1) vs (hbmPut base m (gk * 9 + i) v)

def State.hbmGranStore (s : State) (gk data check : Nat) : State :=
  { s with hbm := hbmPut9 s.hbmBase gk 0 (leBytes 8 data ++ [BitVec.ofNat 8 check]) s.hbm }

def State.hbmGranPeek (s : State) (g line gran : Nat) : GranRd :=
  let gk := hbmKey g line gran
  classify (hbmLoc line gran) (leNat ((List.range 8).map fun i => s.hbmCell (gk * 9 + i))) (s.hbmCell (gk * 9 + 8)).toNat

/-- A line of a stack as read, without effect. -/
def State.hbmPeek (s : State) (g line : Nat) : LineRd := ⟨(List.range 8).map (s.hbmGranPeek g line)⟩

/-- Write one granule with fresh check bits or the stored poison code. -/
def State.hbmGranWrite (s : State) (g line gran data : Nat) (poison : Bool) : State :=
  let gk := hbmKey g line gran
  let c := checkByte (hbmLoc line gran) data
  let s := s.hbmGranStore gk data (if poison then c ^^^ 0xFF else c)
  if poison then s else { s with injected := s.injected.filter (· ≠ gk + 2 ^ 40) }

/-- The row of a line is opened: an activation unless it is open already (R296). -/
def State.hcOpenRow (s : State) (g line : Nat) : State :=
  let a := s.hbmAddr g line
  s.modHc g fun h =>
    { h with rows := put h.rows a.key a.row, asleep := h.asleep.filter (· ≠ a.chan)
             acts := if find h.rows a.key = some a.row then h.acts else put h.acts a.key ((find h.acts a.key).getD 0 + 1) }

/-- Rows and wake-up of one column burst (R287, R298, ROW_HITS). -/
def State.hcBurst (s : State) (g line : Nat) : State :=
  let a := s.hbmAddr g line
  let hit := find (s.hc g).rows a.key == some a.row
  let s := s.hcOpenRow g line
  if hit then s.countW (hcPage g) F.HC_ROW_HITS else s

/-- The next line write to the armed pseudo-channel spends the injection (HC_INJECT, Table 7-7). -/
def State.hcInject (s : State) (g line : Nat) : State :=
  let p := hcPage g
  let a := s.hbmAddr g line
  if s.flag p F.HC_HC_INJECT_ARM && s.get p F.HC_HC_INJECT_CHANNEL == a.chan && s.get p F.HC_HC_INJECT_PC == a.pc then
    let gran := s.get p F.HC_HC_INJECT_GRANULE
    let gk := hbmKey g line gran
    let r := s.hbmGranPeek g line gran
    let c := (s.hbmCell (gk * 9 + 8)).toNat
    let x := c * 2 ^ 64 + r.data ^^^ injectBits (s.get p F.HC_HC_INJECT_BIT1) (s.get p F.HC_HC_INJECT_BIT2)
    let s := if s.flag p F.HC_HC_INJECT_POISON then s.hbmGranWrite g line gran r.data true
      else s.hbmGranStore gk (x % 2 ^ 64) (x / 2 ^ 64)
    { s with injected := (gk + 2 ^ 40) :: s.injected.filter (· ≠ gk + 2 ^ 40) }.set p F.HC_HC_INJECT_ARM 0
  else s

/-- Write a whole line to a stack: 64 bytes, granules in `pois` with the poison code. Its slot keeps it (R309). -/
def State.hcStore (s : State) (g line : Nat) (data : List Byte) (pois : Nat) (inject : Bool := true) : State :=
  let s := foldS (fun j s => s.hbmGranWrite g line j (leAt data (8 * j) 8) (pois.testBit j)) (List.range 8) s
  let s := (s.hcBurst g line).countW (hcPage g) F.HC_WR_LINES
  let s := s.modHc g fun h => { h with wrote := put h.wrote (s.hbmAddr g line).chan ⟨line, data, pois⟩ }
  if inject then s.hcInject g line else s

/-! ### Checked reads (R291 to R293) -/

/-- HC_ECC_LAST (Table 7-7). -/
def State.hcEccLast (s : State) (g line gran synd : Nat) (sev : Bool) : State :=
  let p := hcPage g
  let a := line * 64
  (s.wr p 0x120 (BitVec.ofNat 32 a)).wr p 0x124
    (BitVec.ofNat 32 (a / 2 ^ 32 % 16 + gran * 2 ^ 8 + synd * 2 ^ 16 + b2n sev * 2 ^ 24 + 2 ^ 31))

def State.hcGranNote (s : State) (g line gran : Nat) (r : GranRd) : State :=
  let p := hcPage g
  let inj := s.injected.contains (hbmKey g line gran + 2 ^ 40)
  let det := detStack (line * 64) g gran r.synd
  match r.cls with
  | .corrected => (s.count p F.HC_CE_COUNT).raise p Err.HC_CE det false inj
  | .uncorrectable => ((s.count p F.HC_UE_COUNT).hcEccLast g line gran r.synd false).raise p Err.HC_UE det true inj
  | _ => s

/-- The line as the requester sees it under the stack's own report: 0 none, 1 corrected, 2 uncorrected (R292). -/
def underReport (sev : Nat) (r : LineRd) : LineRd :=
  if sev = 2 then ⟨r.grans.map fun g => if g.cls.bad then g else { g with cls := .storedPoison }⟩ else r

/-- SCRUB_ON_READ, which a read takes as it is granted (Table 7-7). -/
def State.scrubOn (s : State) (g : Nat) : Bool := s.flag (hcPage g) F.HC_HC_CTRL_SCRUB_ON_READ

/-- A line that a read burst has brought: checked, counted, logged, combined with the report, and written back where
`scrub` says so (R291 to R293). -/
def State.hcCheck (s : State) (g line sev : Nat) (scrub : Bool) : LineRd × State :=
  let p := hcPage g
  let raw := s.hbmPeek g line
  let s := s.countW p F.HC_RD_LINES
  let s := foldS (fun j s => s.hcGranNote g line j (raw.grans.getD j ⟨0, .good, 0⟩)) (List.range 8) s
  let s := if sev = 1 then s.count p F.HC_SEV_CE else s
  let s := if sev = 2 then
      let bad := ((List.range 8).find? raw.poison).getD 0
      let synd := if raw.poison bad then (raw.grans.getD bad ⟨0, .good, 0⟩).synd else 0
      ((s.count p F.HC_SEV_UE).hcEccLast g line bad synd true).raise p Err.HC_SEV_UE (detStack (line * 64) g bad synd) true
    else s
  let r := underReport sev raw
  let dirty := sev = 2 ∨ raw.grans.any fun x => x.cls == .corrected || x.cls == .uncorrectable
  if scrub ∧ dirty then
    (r, s.hcStore g line r.bytes ((List.range 8).foldl (fun n j => n + b2n (r.poison j) * 2 ^ j) 0) false)
  else (r, s)

/-- A read burst and its return within one step. -/
def State.hcRead (s : State) (g line sev : Nat) (scrub : Bool := true) : LineRd × State :=
  (s.hcBurst g line).hcCheck g line sev (scrub && s.scrubOn g)

/-! ### Partial writes (R289) -/

/-- The merged line of a partial write: its bytes, its poisoned granules, and what the write reports. -/
structure MergeOut where
  data : List Byte
  pois : Nat
  out : WrOut
  deriving DecidableEq, Repr

def mergeLine (r : LineRd) (en : Nat) (data : List Byte) (pois : Nat) : MergeOut :=
  let gran (j : Nat) : GranRd := r.grans.getD j ⟨0, .good, 0⟩
  let e (j : Nat) : Nat := bits en (8 * j) 8
  let bad (j : Nat) : Bool :=
    if e j = 255 then pois.testBit j else (gran j).cls.bad || (e j != 0 && pois.testBit j)
  let told (j : Nat) : Bool := if e j = 0 then false else bad j
  let corr (j : Nat) : Bool := e j != 0 && e j != 255 && (gran j).cls == .corrected
  let mask (f : Nat → Bool) : Nat := (List.range 8).foldl (fun n j => n + b2n (f j) * 2 ^ j) 0
  ⟨(List.range 8).flatMap fun j => leBytes 8 (mergeBytes (e j) (gran j).data (leAt data (8 * j) 8)), mask bad,
   ⟨mask told, mask corr⟩⟩

/-- The write covers its whole line. -/
def wholeLine (en : Nat) : Bool := en % 2 ^ 64 == 2 ^ 64 - 1

/-! ### Answers -/

/-- Answer the piece that a read serves. -/
def State.answerRead (s : State) (org : StackOrg) (r : LineRd) : State :=
  match org with
  | .errand eg id k =>
    match ((s.path eg).entries.find? (·.id == id)).bind fun e => e.pieces[k]? with
    | some p => s.pieceDone eg id k (r.status p.off p.n).code (r.slice p.off p.n)
    | none => s
  | _ => s

/-- Answer the piece that a write serves. -/
def State.answerWrite (s : State) (org : StackOrg) (w : WrOut) : State :=
  match org with
  | .errand eg id k =>
    match ((s.path eg).entries.find? (·.id == id)).bind fun e => e.pieces[k]? with
    | some p => s.pieceDone eg id k w.status.code (w.marks p.off p.n)
    | none => s
  | _ => s

def State.answerError (s : State) (org : StackOrg) : State :=
  match org with
  | .errand eg id k => s.pieceDone eg id k Status.error.code []
  | _ => s

/-! ### Queue and order (R285 to R289, R302, R308) -/

/-- A write whose line sits complete in its slot: a whole-line write, or a merged partial one (R288). -/
def StackReq.complete (r : StackReq) : Bool := r.write && (r.merged || wholeLine r.en)

/-- A line held in a slot, as a read takes it (R288). -/
def StackReq.slotLine (r : StackReq) : LineRd :=
  ⟨(List.range 8).map fun j => ⟨leAt r.data (8 * j) 8, if r.pois.testBit j then .storedPoison else .good, 0⟩⟩

/-- The youngest write to a line in the queue. -/
def lastWrite (q : List StackReq) (line : Nat) : Option StackReq := (q.filter fun r => r.line == line && r.write).getLast?

/-- The switch input port by which a request comes to stack g: the errand path, or the stair node (Table 5-13). -/
def StackReq.source (r : StackReq) (g : Nat) : Nat :=
  match r.org with
  | .errand eg _ _ => if eg = g then 9 else 5
  | _ => 9

/-- Enter a request that admission has granted; it wakes its channel (R298). -/
def State.hcEnter (s : State) (g : Nat) (r : StackReq) (n : Nat) : State :=
  let s := (s.hcSpend g).modHc g fun h => { h with asleep := h.asleep.filter (· ≠ (s.hbmAddr g r.line).chan) }
  let h := s.hc g
  let s := match r.org with
    | .errand eg _ _ => s.served ⟨eg, r.cls, r.ctx, r.urg⟩ g 2 n (!r.write) r.write
    | _ => s
  if r.write then
    let s := s.setHc g { h with queue := h.queue ++ [r] }
    if wholeLine r.en then s.answerWrite r.org ⟨r.pois, 0⟩ else s
  else match lastWrite h.queue r.line with
    | some w => if w.complete then s.answerRead r.org w.slotLine else s.setHc g { h with queue := h.queue ++ [r] }
    | none => s.setHc g { h with queue := h.queue ++ [r] }

/-- The shares let a class into the regulated slots of a stack (R193 to R195). -/
def State.hcAdmits (s : State) (g k urg : Nat) : Bool :=
  s.admits g 2048 (fun j => ((s.hc g).queue.filter fun r => r.cls == j).length) k urg

/-- A request reaches stack admission: refused by a stack that is gone, held while admission is closed, full, or has
others of its source and class waiting, and otherwise admitted. `n` is the bytes it names. -/
def State.hcRequest (s : State) (g : Nat) (r : StackReq) (n : Nat) : State :=
  if s.hcGone g then s.answerError r.org
  else if s.hcOpen g && s.hcAdmits g r.cls r.urg && !((s.hc g).waiting.any fun w => w.cls == r.cls && w.source g == r.source g) then
    s.hcEnter g r n
  else (s.refuse g r.cls r.ctx r.held).modHc g fun h => { h with waiting := h.waiting ++ [{ r with held := true }] }

/-- The read or partial write of the queue at hand is checked: its data answers, and a merged line serves the reads
that wait behind it (R289, R302). -/
def serveBehind (line : Nat) : List StackReq → List StackReq × List StackReq
  | [] => ([], [])
  | r :: rs =>
    if r.line ≠ line then let x := serveBehind line rs; (x.1, r :: x.2)
    else if r.write then ([], r :: rs)
    else let x := serveBehind line rs; (r :: x.1, x.2)

/-- The stack's own report for a read that is performed within one step: no command carries it, so it is a free value
(R292; assumption log entry 2). -/
def State.stackReport (s : State) : Nat × State := let f := s.free; (f.1 % 3, f.2)

/-- One request performed at once, in order of the queue (used when an ordered access to its line follows inline). -/
def State.hcPerform (s : State) (g : Nat) (r : StackReq) : State :=
  if r.complete then s.hcStore g r.line r.data r.pois
  else
    let v := s.stackReport
    let x := v.2.hcRead g r.line v.1 (!r.write)
    if r.write then
      let m := mergeLine x.1 r.en r.data r.pois
      ((x.2.hcStore g r.line m.data m.pois).count (hcPage g) F.HC_RMW_COUNT).answerWrite r.org m.out
    else x.2.answerRead r.org x.1

/-- Every queued request of a line is performed in order, so that an access admitted now finds the line in the stack. -/
def State.hcDrain (s : State) (g line : Nat) : State :=
  let h := s.hc g
  let mine := h.queue.filter fun r => r.line == line
  foldS (fun r s => s.hcPerform g r) mine (s.setHc g { h with queue := h.queue.filter fun r => r.line != line })

/-- Every queued request is performed (R316 to R318). -/
def State.hcDrainAll (s : State) (g : Nat) : State :=
  let h := s.hc g
  foldS (fun r s => s.hcPerform g r) h.queue (s.setHc g { h with queue := [] })

/-- An access that is admitted and performed whole in this step: a read, or a write of the enabled bytes. (DESIGN CHOICE, log entry 78) -/
def State.hbmReadNow (s : State) (g line : Nat) (a : Acc) (n : Nat) (dst : Nat) : LineRd × State :=
  let v := (((s.hcDrain g line).hcSpend g).servedTo a g 2 n true false dst).stackReport
  v.2.hcRead g line v.1
def State.hbmWriteNow (s : State) (g line en : Nat) (data : List Byte) (pois : Nat) (a : Acc) (n : Nat) : WrOut × State :=
  let s := ((s.hcDrain g line).hcSpend g).served a g 2 n false true
  if wholeLine en then (⟨pois, 0⟩, s.hcStore g line data pois)
  else
    let v := s.stackReport
    let x := v.2.hcRead g line v.1 false
    let m := mergeLine x.1 en data pois
    (m.out, (x.2.hcStore g line m.data m.pois).count (hcPage g) F.HC_RMW_COUNT)

/-! ### Failure (R311) -/

/-- The stack becomes FAILED: queued and waiting requests answer ERROR, queued writes that were complete are lost and
logged. -/
def State.hcFail (s : State) (g : Nat) : State :=
  let p := hcPage g
  let h := s.hc g
  let s := s.setHc g { h with queue := [], waiting := [], rows := [], retraining := [], asleep := [], training := false, owed := [], wrote := [] }
  let s := (s.set p F.HC_HC_STATUS_STATE 4).set pgMMAP (F.MMAP_HBM_CAP_TRAINED.at g) 0
  let s := s.raise p Err.HC_STACK_FAILED {} true
  let s := foldS (fun r s => if r.complete then s.logRec p 0x1F (detStack (r.line * 64) g 0 0) false false else s.answerError r.org) h.queue s
  foldS (fun r s => s.answerError r.org) h.waiting s

/-! ### Scheduling (R282, R286) -/

/-- The requests that may be offered: ungranted, first of their line, on a channel not in retrain, on a pseudo-channel
whose burst can start. -/
def offered (q : List StackReq) (ok : StackReq → Bool) : List StackReq → List Nat → List StackReq
  | [], _ => []
  | r :: rs, seen =>
    if seen.contains r.line then offered q ok rs seen
    else if !r.granted && ok r then r :: offered q ok rs (r.line :: seen)
    else offered q ok rs (r.line :: seen)

/-- The candidate of a class among the offered requests of a channel: the oldest, or a younger row hit (R286). -/
def State.hcCandidate (s : State) (g ch k : Nat) (offer : List StackReq) : Option StackReq :=
  let h := s.hc g
  let mine := offer.filter (·.cls == k)
  let hit (r : StackReq) : Bool := let a := s.hbmAddr g r.line; find h.rows a.key == some a.row
  match mine.head? with
  | none => none
  | some o =>
    if (find h.passes (ch * 8 + k)).getD 0 < s.get (hcPage g) F.HC_HC_SCHED_HIT_RUN then (mine.find? hit).or (some o)
    else some o

/-- The burst of a request: a complete write reaches the stack and leaves the queue, another request's read burst is
granted and opens its row (R286). -/
def State.hcIssue (s : State) (g : Nat) (r : StackReq) : State :=
  if r.complete then (s.modHc g fun h => { h with queue := h.queue.erase r }).hcStore g r.line r.data r.pois
  else (s.hcBurst g r.line).modHc g fun h =>
    { h with queue := modAt (fun x => { x with granted := true, scrub := s.scrubOn g }) (h.queue.idxOf r) h.queue }

/-- One column burst of a channel: the write burst of a partial write whose read is checked (R289), or the winner of the
lottery among the classes' candidates. `busy` names pseudo-channels whose burst cannot start. (DEDUCED, log entry 76) -/
def State.stackBurst (g : Fin 8) (ch : Fin 32) (busy : BitVec 2) (s : State) : State :=
  let h := s.hc g
  let onCh (r : StackReq) : Bool := let a := s.hbmAddr g r.line; a.chan == ch.val && !busy.getLsbD a.pc
  if s.hcGone g ∨ !s.hcChanOpen g ch then s
  else match h.queue.find? fun r => r.merged && onCh r with
  | some r => s.hcIssue g r
  | none =>
    let offer := offered h.queue onCh h.queue []
    let cands := (List.range 8).filterMap fun k => (s.hcCandidate g ch k offer).map fun r => (k, r)
    let d := s.drawAmong (0x6000 + 32 * g.val + ch.val) (cands.map fun c => ⟨c.1, c.1, c.2.urg⟩)
    let s := d.2
    match d.1.bind fun k => cands.find? (·.1 == k) with
    | none => s
    | some (k, r) =>
      let oldest := offer.find? (·.cls == k)
      let passed := if oldest == some r then 0 else (find h.passes (ch.val * 8 + k)).getD 0 + 1
      (s.modHc g fun h => { h with passes := put h.passes (ch.val * 8 + k) passed }).hcIssue g r

/-- A granted read burst of a line returns: check, report, answer; a partial write's line is merged in its slot, and
the reads behind it are served from there (R289, R291, R302). (DEDUCED, log entry 77) -/
def State.stackReadDone (g : Fin 8) (line : Fin (2 ^ 30)) (sev : Fin 3) (s : State) : State :=
  let h := s.hc g
  match h.queue.find? fun r => r.line == line.val && r.granted with
  | none => s
  | some r =>
    let x := s.hcCheck g line sev (!r.write && r.scrub)
    if r.write then
      let m := mergeLine x.1 r.en r.data r.pois
      let r' := { r with merged := true, granted := false, data := m.data, pois := m.pois, en := 2 ^ 64 - 1 }
      let i := h.queue.idxOf r
      let b := serveBehind line (h.queue.drop (i + 1))
      let s := x.2.modHc g fun h => { h with queue := h.queue.take i ++ [r'] ++ b.2 }
      let s := (s.count (hcPage g) F.HC_RMW_COUNT).answerWrite r.org m.out
      foldS (fun q s => s.answerRead q.org r'.slotLine) b.1 s
    else (x.2.modHc g fun h => { h with queue := h.queue.erase r }).answerRead r.org x.1

/-! ### Patrol, refresh, rows and power-down (R287, R294 to R298) -/

def State.patrolPos (s : State) (g : Nat) : Nat :=
  (s.rd (hcPage g) 0x12C).toNat + (s.rd (hcPage g) 0x130).toNat * 2 ^ 32
def State.setPatrol (s : State) (g a : Nat) : State :=
  (s.wr (hcPage g) 0x12C (BitVec.ofNat 32 a)).wr (hcPage g) 0x130 (BitVec.ofNat 32 (a / 2 ^ 32))

/-- The next line of the patrol, within the tick's lines; `sev` is the stack's report. Its read takes a slot in the class
of HC_PATROL. (DESIGN CHOICE, log entry 174) -/
def State.patrolRead (g : Fin 8) (sev : Fin 3) (s : State) : State :=
  let p := hcPage g
  let line := s.patrolPos g / 64
  let queued := (s.hc g).queue.any (·.line == line)
  if !s.hcOpen g ∨ !s.flag p F.HC_HC_CTRL_PATROL_EN ∨ (s.hc g).patLeft = 0 ∨ s.hcLines g = 0 ∨
     (!queued ∧ !(s.hcChanOpen g (s.hbmAddr g line).chan && s.hcAdmits g (s.get p F.HC_HC_PATROL_CLASS) 0)) then s
  else
    let s := s.modHc g fun h => { h with patLeft := h.patLeft - 1 }
    let s := if queued then s else (s.hcRead g line sev).2
    if line + 1 < s.hcLines g then s.setPatrol g ((line + 1) * 64)
    else (s.setPatrol g 0).count p F.HC_PATROL_SWEEPS

/-- An emergency beat at a channel scheduler: counted as a cut when an ordinary request waits there (R188). -/
def State.hcCut (s : State) (g ch : Nat) : State :=
  if (s.hc g).queue.any fun r => (s.hbmAddr g r.line).chan == ch then s.count (arbPage g) F.ARB_EMERG_CUTS else s

/-- A bank is refreshed: its row closes, its channel wakes, its activations fall by the stack's threshold (R287, R296, R298). (PRESUMED, log entry 175) -/
def State.hcRefresh (s : State) (g ch key : Nat) : State :=
  (s.hcCut g ch).modHc g fun h =>
    let n := (find h.acts key).getD 0 - h.rfmAt
    { h with rows := del h.rows key, asleep := h.asleep.filter (· ≠ ch), acts := if n = 0 then del h.acts key else put h.acts key n }

/-- A per-bank refresh; one of those that its channel owes, if it owes any (R295). (DEDUCED, log entry 82) -/
def State.refreshDue (g : Fin 8) (ch : Fin 32) (pc : Fin 2) (bank : Fin 64) (s : State) : State :=
  if s.hcState g ≠ 2 then s
  else
    let s := s.modHc g fun h => { h with owed := let n := (find h.owed ch.val).getD 0 - 1; if n = 0 then del h.owed ch else put h.owed ch n }
    (s.hcRefresh g ch ((ch.val * 2 + pc.val) * 64 + bank.val)).countW (hcPage g) F.HC_REFRESHES

/-- A refresh-management command for a bank whose activations have met the threshold (R296). (PRESUMED, log entry 175) -/
def State.rfmDue (g : Fin 8) (ch : Fin 32) (pc : Fin 2) (bank : Fin 64) (s : State) : State :=
  let key := (ch.val * 2 + pc.val) * 64 + bank.val
  if s.hcState g ≠ 2 ∨ (find (s.hc g).acts key).getD 0 < max 1 (s.hc g).rfmAt then s
  else (s.hcRefresh g ch key).count (hcPage g) F.HC_RFM_COUNT

/-- A row that no queued request hits is closed (R287). -/
def State.rowClose (g : Fin 8) (ch : Fin 32) (pc : Fin 2) (bank : Fin 64) (s : State) : State :=
  let h := s.hc g
  let key := (ch.val * 2 + pc.val) * 64 + bank.val
  let hit (r : StackReq) : Bool := let a := s.hbmAddr g r.line; a.key == key && find h.rows key == some a.row
  if h.queue.any hit then s else s.setHc g { h with rows := del h.rows key }

/-- An idle channel enters power-down (R298). -/
def State.powerDown (g : Fin 8) (ch : Fin 32) (s : State) : State :=
  let h := s.hc g
  if !s.flag (hcPage g) F.HC_HC_CTRL_PD_EN ∨ s.hcState g ≠ 2 ∨ h.asleep.contains ch.val ∨
     h.queue.any (fun r => (s.hbmAddr g r.line).chan == ch.val) then s
  else s.setHc g { h with asleep := h.asleep ++ [ch.val] }

/-! ### Parity events, retrains and failure (R309 to R311) -/

/-- A channel starts a retrain; the fourth within one second fails the stack. (DEDUCED, log entry 167) -/
def State.chanRetrain (s : State) (g ch : Nat) : State :=
  let recent := (s.hc g).retrains.filter fun t => s.ticks < t + 1000000
  if 3 ≤ recent.length then s.hcFail g
  else
    let s := s.modHc g fun h =>
      { h with retrains := recent ++ [s.ticks], retraining := h.retraining ++ [ch], parity := h.parity.filter (·.1 ≠ ch) }
    (s.count (hcPage g) F.HC_CHAN_RETRAINS).raise (hcPage g) Err.HC_CHAN_RETRAIN (detVal ch 0)

/-- One parity event of a channel: the fourth within 1 ms retrains it (R310). -/
def State.parityEvent (s : State) (g ch : Nat) : State :=
  let s := s.modHc g fun h => { h with parity := (h.parity.filter fun e => s.ticks < e.2 + 1000) ++ [(ch, s.ticks)] }
  if 4 ≤ ((s.hc g).parity.filter (·.1 == ch)).length ∧ !(s.hc g).retraining.contains ch then s.chanRetrain g ch else s

/-- A command and address parity report: every bank of the channel closes, and the commands of the read bursts that are
out are issued again (R309). (DEDUCED, log entry 176) -/
def State.caParity (g : Fin 8) (ch : Fin 32) (s : State) : State :=
  let s := s.modHc g fun h => { h with rows := h.rows.filter fun e => e.1 / 128 ≠ ch.val }
  let s := foldS (fun (r : StackReq) s => s.hcOpenRow g r.line)
    ((s.hc g).queue.filter fun r => r.granted && (s.hbmAddr g r.line).chan == ch.val) s
  ((s.count (hcPage g) F.HC_CA_PARITY_COUNT).raise (hcPage g) Err.HC_CA_PARITY (detVal ch 0)).parityEvent g ch

/-- A write data parity report: the last line written on the channel is written again from its slot (R309). -/
def State.wrParity (g : Fin 8) (ch : Fin 32) (s : State) : State :=
  match find (s.hc g).wrote ch.val with
  | none => s
  | some w =>
    let s := (s.hcStore g w.line w.data w.pois).count (hcPage g) F.HC_WR_PARITY_COUNT
    (s.raise (hcPage g) Err.HC_WR_PARITY (detVal ch 0)).parityEvent g ch

/-- A channel's retrain ends; a failed one fails the stack (R310, R311). -/
def State.chanRetrainDone (g : Fin 8) (ch : Fin 32) (ok : Bool) (s : State) : State :=
  let h := s.hc g
  if !h.retraining.contains ch.val then s
  else if !ok then s.hcFail g
  else
    let rest := h.retraining.filter (· ≠ ch.val)
    let s := s.setHc g { h with retraining := rest, training := h.training && !rest.isEmpty }
    if rest.isEmpty ∧ s.hcState g = 3 then
      let s := s.hcRate g
      if s.running (hcPage g) then s.hcWake g else s.set (hcPage g) F.HC_HC_STATUS_STATE 5
    else s

/-- The stack's PHY loses lock, or the stack shuts itself down (R311); in training that is a failed training (R314). (DEDUCED, log entry 80) -/
def State.stackFailed (s : State) (g : Nat) : State :=
  if s.hcState g = 1 then
    (((s.set (hcPage g) F.HC_HC_STATUS_STATE 4).set pgMMAP (F.MMAP_HBM_CAP_TRAINED.at g) 0).modHc g fun h =>
      { h with training := false }).raise (hcPage g) Err.HC_TRAIN_FAIL
  else if s.hcState g = 4 ∨ s.hcState g = 0 then s else s.hcFail g

/-- HC_CTRL.RETRAIN: every channel retrains while the page is HALTED; ignored otherwise (R310, Table 7-7). -/
def State.hcRetrain (s : State) (g : Nat) : State :=
  if !s.halted (hcPage g) ∨ s.hcState g ≠ 5 then s
  else (s.modHc g fun h => { h with retraining := List.range 32, training := true }).set (hcPage g) F.HC_HC_STATUS_STATE 3

/-! ### Clear (R316) -/

/-- HC_CTRL.CLEAR: holds new requests from now on. -/
def State.stackClear (s : State) (g : Nat) : State :=
  let p := hcPage g
  if s.hcState g ≠ 2 ∨ !s.running p ∨ s.flag p F.HC_HC_STATUS_CLEARING then s.raise p Err.HC_BAD_VALUE
  else s.set p F.HC_HC_STATUS_CLEARING 1

/-- The clear ends: what was queued is complete, every line is zero with normal check bits, admission reopens. -/
def State.stackClearDone (s : State) (g : Nat) : State :=
  let p := hcPage g
  if !s.flag p F.HC_HC_STATUS_CLEARING ∨ !(s.hc g).retraining.isEmpty then s
  else
    let s := (s.hcDrainAll g).countW p F.HC_WR_LINES (s.hcLines g)
    let lo := hbmKey g 0 0
    let hi := hbmKey (g + 1) 0 0
    { s with hbm := delRange s.hbm (lo * 9) (hi * 9), hbmBase := put s.hbmBase g .zeros
             injected := s.injected.filter fun k => ¬ (lo + 2 ^ 40 ≤ k ∧ k < hi + 2 ^ 40) }.set p F.HC_HC_STATUS_CLEARING 0

/-! ### Training (R314, R317) -/

/-- The contents of a stack are lost: a new epoch of free values (R315). (DEDUCED, log entry 79) -/
def State.hbmLose (s : State) (g : Nat) : State :=
  let e := s.hbmEpoch + 1
  { s with hbm := delRange s.hbm (hbmKey g 0 0 * 9) (hbmKey (g + 1) 0 0 * 9)
           hbmBase := put s.hbmBase g (.undef e), hbmEpoch := e
           injected := s.injected.filter fun k => ¬ (hbmKey g 0 0 + 2 ^ 40 ≤ k ∧ k < hbmKey (g + 1) 0 0 + 2 ^ 40) }

/-- Training of one controller ends well: SID count, rate, repaired lanes (R314); the refresh-management threshold that the
stack reports is a free value (R296; assumption log entry 2). A soft reset of a FAILED stack must
find the capacity it had (R317). (PRESUMED, log entry 175) -/
def State.stackTrained (g : Fin 8) (sids : Fin 4) (rate : Fin 3) (lanes : BitVec 8) (s : State) : State :=
  let p := hcPage g
  let gib := 16 * (sids.val + 1)
  if s.hcState g = 3 ∧ s.phase = 4 then
    let f := s.free
    ((((f.2.modHc g fun h => { h with best := rate, rfmAt := f.1 + 1, trained := true }).hcWake g).hcRate g).set p F.HC_HC_STATUS_SIDS
      (s.get pgMMAP (F.MMAP_HBM_CAP_GIB.at g) / 16 - 1)).set p F.HC_HC_STATUS_REPAIRED_LANES lanes.toNat
  else if s.hcState g ≠ 1 then s
  else
    let known := s.get pgMMAP (F.MMAP_HBM_CAP_GIB.at g)
    if (s.hc g).training && known != gib then ((s.set p F.HC_HC_STATUS_STATE 4).modHc g fun h => { h with training := false }).raise p Err.HC_TRAIN_FAIL
    else
      let lost := (s.hc g).training
      let f := s.free
      let s := f.2.modHc g fun h => { h with training := false, best := rate, rfmAt := f.1 + 1, trained := true }
      let s := if lost then s.hbmLose g else s
      let s := (s.set pgMMAP (F.MMAP_HBM_CAP_GIB.at g) gib).set pgMMAP (F.MMAP_HBM_CAP_TRAINED.at g) 1
      (((s.set p F.HC_HC_STATUS_STATE 2).hcRate g).set p F.HC_HC_STATUS_SIDS sids).set p F.HC_HC_STATUS_REPAIRED_LANES lanes.toNat

end Sys2Proof.Machine
end

