-- ==== Sys2Proof/Machine/Mem.lean ====
section
/-! DEFINITION. Memory by device physical address: targets and their refusals (R87 to R94, R39), line reads, writes and
atomics at SRAM and HBM, mirrored where twin mode asks for it (R593 to R596). -/

namespace Sys2Proof.Machine

/-- Where a line lies: a bank's line, or a stack's line. -/
inductive Tgt where
  | sram (b l : Nat)
  | hbm (g line : Nat)
  deriving DecidableEq, Repr

/-- Why a DPA names no line: reserved or not memory (R88), beyond the capacity or the alias (R89, R93), on a stack that
is not UP (R39). -/
inductive TgtErr where
  | reserved | range | gone
  deriving DecidableEq, Repr

/-- The line of a stack offset, if the stack has it (R89) and serves it (R39). -/
def State.stackTgt (s : State) (g off : Nat) : Except TgtErr Tgt :=
  if s.hcLines g * 64 ≤ off then .error .range
  else if s.hcGone g then .error .gone
  else .ok (.hbm g (off / 64))

/-- The line that a DPA names. -/
def State.target (s : State) (dpa : Nat) : Except TgtErr Tgt :=
  match region dpa with
  | .sram => let x := s.locate dpa; .ok (.sram x.1 x.2)
  | .hbm g off => s.stackTgt g off
  | .aliasHbm a =>
    if s.get pgMMAP F.MMAP_HBM_ALIAS_SIZE_GIB * 2 ^ 30 ≤ a then .error .range
    else let x := aliasLocate a; if s.hcGone x.1 then .error .gone else s.stackTgt x.1 x.2
  | _ => .error .reserved

/-- The flags of a refused target (R88, R89). (DEDUCED, log entry 35) -/
def State.flagTarget (s : State) (dpa : Nat) (e : TgtErr) : State :=
  match e with
  | .reserved => s.raise pgMMAP Err.MMAP_RESERVED_DPA (detMem dpa 0 0 0 0) true
  | .range => s.raise pgMMAP Err.MMAP_HBM_OUT_OF_RANGE (detMem dpa 0 0 0 0)
  | .gone => s

/-- A target serves accesses now: the MMAP page does not hold SRAM (R122), the stack's admission is open (R318) and its
channel carries ordinary bursts (R295, R310). (DEDUCED, log entry 51) -/
def State.tgtOpen (s : State) (t : Tgt) : Bool :=
  match t with
  | .sram _ _ => s.running pgMMAP
  | .hbm g line => s.hcOpen g && s.hcChanOpen g (s.hbmAddr g line).chan

/-- The gallery whose block serves a target. -/
def Tgt.gallery : Tgt → Nat
  | .sram b _ => b / 64
  | .hbm g _ => g

/-- A target serves the steward now, the emergency requester of stack admission: with a slot free, whatever the shares
(R188, R194, Table 5-1). -/
def State.stwOpen (s : State) (t : Tgt) : Bool :=
  s.tgtOpen t && (match t with
    | .sram _ _ => true
    | .hbm g _ => decide ((s.hc g).queue.length < 2048))

/-- Two addresses name the same stored line, by either name that a line of a stack has (R94). -/
def State.sameLine (s : State) (a b : Nat) : Bool :=
  alignDown a 64 == alignDown b 64 || (match s.target a, s.target b with
    | .ok x, .ok y => x == y
    | _, _ => false)

/-- The regulated queues on an access's way admit it: the request buffer of its first hop (R33), and stack admission, where
it stays behind the waiting requests of its source and class (R194, R208, R285). -/
def State.tgtAdmits (s : State) (t : Tgt) (a : Acc) : Bool :=
  s.routeFree a t.gallery && (match t with
    | .sram _ _ => true
    | .hbm g _ => s.hcAdmits g a.cls a.urg && !(a.remote g && (s.hc g).waiting.any fun w => w.cls == a.cls && w.source g == 5))

/-- A target serves an access now: it is open, its gallery's limiter lets the line through (R671) unless the access is
exempt (R206), and every queue on the way admits it. -/
def State.tgtFree (s : State) (t : Tgt) (a : Acc) (exempt : Bool := false) : Bool :=
  s.tgtOpen t && (exempt || s.limOpen t.gallery) && s.tgtAdmits t a

/-- A request of the requester `key` for the line at `dpa` is refused admission, and counted once until it is served
(R196). -/
def State.admHold (s : State) (a : Acc) (g key dpa : Nat) : State :=
  let again := (s.arb g).admWait.contains (key, alignDown dpa 64)
  let s := s.refuse g a.cls a.ctx again
  if again then s else s.setArb g { s.arb g with admWait := (key, alignDown dpa 64) :: (s.arb g).admWait }

/-- A requester found a target not free: counted once where the limiter held it, or where a queue refused it. -/
def State.tgtHold (s : State) (t : Tgt) (a : Acc) (key dpa : Nat) (exempt : Bool := false) : State :=
  if !s.tgtOpen t then s
  else if !exempt && !s.limOpen t.gallery then s.limHold t.gallery key
  else if s.routeFree a t.gallery then s.admHold a t.gallery key dpa
  else
    let again := (s.arb a.src).admWait.contains (key, alignDown dpa 64)
    let s := s.admHold a a.src key dpa
    if again then s else s.count (gswPage a.src) (F.GSW_STAIR_HELD.at (stairHop ((t.gallery + 8 - a.src) % 8)))

/-- A request that was refused is served, or withdrawn. -/
def State.admDone (s : State) (g key dpa : Nat) : State :=
  if (s.arb g).admWait.contains (key, alignDown dpa 64) then
    s.setArb g { s.arb g with admWait := (s.arb g).admWait.erase (key, alignDown dpa 64) }
  else s
def State.tgtGo (s : State) (t : Tgt) (a : Acc) (key dpa : Nat) : State := (s.admDone t.gallery key dpa).admDone a.src key dpa

/-- Read the line of a target, for a gallery: requester and named bytes for the accounts (R198). -/
def State.tgtReadTo (s : State) (t : Tgt) (a : Acc) (n : Nat) (dst : Nat) : LineRd × State :=
  match t with
  | .sram b l => (s.servedTo a (b / 64) 0 n true false dst).bankRead b l
  | .hbm g line => s.hbmReadNow g line a n dst
/-- Read the line of a target for its requester. -/
def State.tgtRead (s : State) (t : Tgt) (a : Acc) (n : Nat) : LineRd × State := s.tgtReadTo t a n a.src

/-- A line of a stack after a queued write of it: the slot's line, or the line merged with a partial write (R288, R289). -/
def StackReq.after (l : LineRd) (r : StackReq) : LineRd :=
  if r.complete then r.slotLine
  else
    let m := mergeLine l r.en r.data r.pois
    { r with data := m.data, pois := m.pois }.slotLine

/-- The line of a target as read, without effect: of a stack, after every queued write of the line (R288). -/
def State.tgtPeek (s : State) (t : Tgt) : LineRd :=
  match t with
  | .sram b l => s.linePeek b l
  | .hbm g line => ((s.hc g).queue.filter fun r => r.line == line && r.write).foldl StackReq.after (s.hbmPeek g line)

/-- Write enabled bytes of the line of a target on this die. -/
def State.tgtWrite (s : State) (t : Tgt) (en : Nat) (data : List Byte) (pois : Nat) (a : Acc) (n : Nat) : WrOut × State :=
  match t with
  | .sram b l => (s.served a (b / 64) 0 n false true).bankWrite b l en data pois
  | .hbm g line => s.hbmWriteNow g line en data pois a n

/-- Bytes of a line placed at an offset, zeros elsewhere; and the enables of bytes `[off, off + n)`. -/
def atOffset (off : Nat) (bs : List Byte) : List Byte := padTo 64 (List.replicate off 0 ++ bs)
def enables (off n : Nat) : Nat := (2 ^ n - 1) * 2 ^ off

/-- Enables widened to whole granules. -/
def wholeGranules (en : Nat) : Nat :=
  (List.range 8).foldl (fun a j => a + (if bits en (8 * j) 8 = 0 then 0 else 255 * 2 ^ (8 * j))) 0

/-- The granules of a line that hold poison, as a mask. -/
def LineRd.poisonMask (r : LineRd) : Nat := (List.range 8).foldl (fun n j => n + b2n (r.poison j) * 2 ^ j) 0

/-- The body of the M_APPLY of a line as it now stands (R594). -/
def State.lineBody (s : State) (mkind dpa : Nat) (t : Tgt) (en kspec : Nat) (old : List Byte) : MirBody :=
  let r := s.tgtPeek t
  let en := wholeGranules en
  { mkind := mkind, addr := alignDown dpa 64, len := 63, en := en, kspec := kspec, slots := r.bytes ++ old
    poison := (List.range 8).foldl (fun n j => n + b2n (r.poison j && bits en (8 * j) 8 != 0) * 2 ^ j) 0 }

/-- A write of the line at `dpa` by a requester of this die. In a pair the sequencer applies it and sends it; the other
die only sends it. The report is there at once, or comes with `fin` when the peer answers (R593, R594). -/
def State.memWrite (s : State) (dpa : Nat) (t : Tgt) (en : Nat) (data : List Byte) (pois : Nat) (a : Acc) (n : Nat) (o : MirOrg)
    (fin : WrOut → MirDone) : Option WrOut × State :=
  match s.mirRegion dpa with
  | none => let w := s.tgtWrite t en data pois a n; (some w.1, w.2)
  | some _ =>
    if s.forwards then
      (none, s.mirForward o { mkind := mkLINE, addr := alignDown dpa 64, len := 63, poison := pois, en := en, slots := data } (fin {}))
    else
      let w := s.tgtWrite t en data pois a n
      let r := w.2.mirApply o { w.2.lineBody mkLINE dpa t en 0 [] with st := w.1.status.code } w.2.dieNo 0 (alignDown dpa 64) (fin w.1)
      (if r.1 then none else some w.1, r.2)

/-! ### Atomics -/

/-- What an atomic returns: its status and old values with poison marks. -/
structure AtomOut where
  st : Nat
  bytes : List PByte
  deriving DecidableEq, Repr

/-- The enabled range of an atomic: bytes `[off, off + n)` of the old line, marked where a granule was poisoned. -/
def atomOut (r : LineRd) (w : WrOut) (off n : Nat) : AtomOut :=
  ⟨w.status.code, ((List.range n).map fun i => (r.bytes.getD (off + i) 0, w.poison.testBit ((off + i) / 8)))⟩

/-- KSPEC of an atomic (Table 14-3). -/
def AtomReq.kspec (a : AtomReq) : Nat :=
  let fmt := match a.fmt with
    | .raw8 => 0 | .fp32 => 1 | .bf16 => 2 | .fp16 => 3 | .e4m3 => 4 | .e5m2 => 5 | .int8 => 6 | .int4 => 7 | .int16 => 8 | .int32 => 9
  let op := match a.atop with
    | .add => 0 | .swap => 1 | .cswap => 2
  let rnd := match a.rnd with
    | .rne => 0 | .rtz => 1 | .stoch => 2
  fmt + op * 2 ^ 4 + rnd * 2 ^ 7 + b2n a.sat * 2 ^ 9 + b2n a.fetch * 2 ^ 10 + a.salt * 2 ^ 16

/-- The operand bytes of an atomic in the order of R249: from the first byte `off`; compare values from byte 0 and new
values from byte 32 for CSWAP. -/
def AtomReq.wire (a : AtomReq) (off : Nat) : List Byte :=
  if a.atop == .cswap then padTo 32 (a.cmp.drop off) ++ padTo 32 (a.opnd.drop off) else padTo 64 (a.opnd.drop off)

/-- An atomic request from its fields and operand bytes in the order of R249. (DEDUCED, log entry 39) -/
def mkAtom (kspec key off n : Nat) (data : List Byte) : Option AtomReq :=
  match Atop.ofCode (bits kspec 4 3), Fmt.ofCode (bits kspec 0 4), Rnd.ofCode (bits kspec 7 2) with
  | some op, some f, some r =>
    let c := op == .cswap
    some { atop := op, fmt := f, rnd := r, sat := bit kspec 9, fetch := bit kspec 10, salt := bits kspec 16 16, key := key
           en := enables off n, opnd := atOffset off (if c then (data.drop 32).take n else data.take n)
           cmp := if c then atOffset off (data.take n) else [] }
  | _, _, _ => none

/-- An atomic on the line at `dpa`, whose enabled range is `[off, off + n)`: refused, done, or on its way to the
sequencer (R147, R596). -/
inductive AtomRes where
  | refused
  | done (o : AtomOut)
  | later
  deriving DecidableEq, Repr

def State.memAtomic (s : State) (dpa : Nat) (t : Tgt) (a : AtomReq) (off n : Nat) (who : Acc) (o : MirOrg) (fin : AtomOut → MirDone) :
    AtomRes × State :=
  match t with
  | .hbm g _ => (.refused, s.raise ⟨.BNK, g⟩ Err.BNK_ATOMIC_ERROR)
  | .sram b l =>
    match s.mirRegion dpa with
    | none =>
      let r := (s.served who (b / 64) 0 n a.returns true).bankAtomic b l a
      match r.1 with
      | none => (.refused, r.2)
      | some (old, w) => (.done (atomOut old w off n), r.2)
    | some _ =>
      if s.forwards then
        if !a.legal then (.refused, s.raise (bnkPage b) Err.BNK_ATOMIC_ERROR)
        else (.later, s.mirForward o { mkind := mkATOM, addr := alignDown dpa 64, len := 63, en := a.en, kspec := a.kspec, slots := a.wire off }
          (fin ⟨0, []⟩))
      else
        let r := (s.served who (b / 64) 0 n a.returns true).bankAtomic b l a
        match r.1 with
        | none => (.refused, r.2)
        | some (old, w) =>
          let out := atomOut old w off n
          let m := r.2.mirApply o { r.2.lineBody mkATOM dpa t a.en a.kspec [] with st := out.st } r.2.dieNo 0 (alignDown dpa 64) (fin out)
          (if m.1 then .later else .done out, m.2)

end Sys2Proof.Machine
end

