-- ==== Sys2Proof/Machine/Xlt.lean ====
section
/-! DEFINITION. Translation (R95 to R107, R119, R125): the cache of a gallery, walks, faults and invalidation. -/

namespace Sys2Proof.Machine

def State.xl (s : State) (g : Nat) : Xlt := (find s.xlt g).getD {}
def State.setXl (s : State) (g : Nat) (x : Xlt) : State := { s with xlt := put s.xlt g x }

/-- A leaf maps a TVA of a context. -/
def Leaf.covers (l : Leaf) (ctx tva : Nat) : Bool := l.ctx == ctx && l.tva / 2 ^ l.size == tva / 2 ^ l.size

/-- The DPA of a TVA under a leaf (R98). -/
def Leaf.dpa (l : Leaf) (tva : Nat) : Nat := l.base + tva % 2 ^ l.size

/-- The level at which a leaf of a size stands. -/
def Leaf.level (l : Leaf) : Nat := if l.size = 30 then 1 else if l.size = 21 then 2 else 3

/-- The set of a leaf of size `sz` for a TVA (R100). -/
def xltSet (tva sz : Nat) : Nat := bits tva sz 8

/-- The cached leaf for a TVA: the three sets, one for each leaf size. -/
def Xlt.find (x : Xlt) (ctx tva : Nat) : Option Leaf :=
  [16, 21, 30].findSome? fun sz => ((Machine.find x.cache (xltSet tva sz)).getD []).find? fun l => l.size == sz && l.covers ctx tva

/-- The cache with a leaf entered, or made the most recently used of its set (R100). (DEDUCED, log entry 48) -/
def Xlt.use (x : Xlt) (l : Leaf) : Xlt :=
  let k := xltSet l.tva l.size
  let rest := ((Machine.find x.cache k).getD []).filter fun m => !(m.ctx == l.ctx && m.size == l.size && m.tva == l.tva)
  { x with cache := put x.cache k ((l :: rest).take 4) }

/-- One lookup, counted as a hit or a miss (R100, R101). -/
def State.lookup (s : State) (g ctx tva : Nat) : Option Leaf × State :=
  match (s.xl g).find ctx tva with
  | some l => (some l, (s.setXl g ((s.xl g).use l)).count pgMMAP (F.MMAP_XLT_HIT.at g))
  | none => (none, s.count pgMMAP (F.MMAP_XLT_MISS.at g))

/-- The root of a context (Table 3-15). -/
def State.rootOf (s : State) (c : Nat) : Nat :=
  s.get pgMMAP (F.MMAP_XLT_ROOT_LO_ROOT.at c) * 2 ^ 12 + s.get pgMMAP (F.MMAP_XLT_ROOT_HI_ROOT.at c) * 2 ^ 32

/-- The miss of a waiter joins the running walk of its page, starts one, or waits for a walker (R101, R119). -/
def State.startWalk (s : State) (g ctx tva cls urg : Nat) (w : XWait) : State :=
  let x := s.xl g
  let page := tva / 2 ^ 16
  if x.walks.any fun k => k.running && k.ctx == ctx && k.page == page then
    s.setXl g { x with walks := x.walks.map fun k =>
      if k.running && k.ctx == ctx && k.page == page then { k with waiters := if k.waiters.contains w then k.waiters else k.waiters ++ [w] } else k }
  else
    let run := decide ((x.walks.filter (·.running)).length < 8)
    let s := if run then s else s.count pgMMAP (F.MMAP_XLT_WALK_WAIT.at g)
    s.setXl g { x with walks := x.walks ++ [⟨ctx, page, s.rootOf ctx, cls, urg, run, false, [w]⟩] }

/-- The translation of one access of a waiter that may have waited for it: its lookup is counted once (R101), and a miss
starts, joins or waits for a walk. -/
def State.lookupFor (s : State) (g ctx tva cls urg : Nat) (w : XWait) : Option Leaf × State :=
  let x := s.xl g
  let page := tva / 2 ^ 16
  if x.walked.contains (w, ctx, page) then
    let x := { x with walked := x.walked.erase (w, ctx, page) }
    match x.find ctx tva with
    | some l => (some l, s.setXl g (x.use l))
    | none => (none, (s.setXl g x).startWalk g ctx tva cls urg w)
  else if x.walks.any fun k => k.ctx == ctx && k.page == page && k.waiters.contains w then (none, s)
  else
    let r := s.lookup g ctx tva
    match r.1 with
    | some l => (some l, r.2)
    | none => (none, r.2.startWalk g ctx tva cls urg w)

/-! ### The walk (R96, R97, R99, R107) -/

/-- A translation fault: its kind (Table 3-4) and level. -/
structure XFault where
  kind : Nat
  level : Nat
  deriving DecidableEq, Repr

/-- How a walk ends: a leaf, a fault, or it is held because the table at an address cannot be read yet. -/
inductive WalkRes where
  | leaf (l : Leaf)
  | fault (f : XFault)
  | held (t : Tgt) (a : Nat)
  deriving DecidableEq, Repr

/-- A range lies wholly inside SRAM, the fitted capacity of one stack, or HBM_ALIAS_SIZE (R99). (DEDUCED, log entry 46) -/
def State.inside (s : State) (base size : Nat) : Bool :=
  let last := base + size - 1
  match region base with
  | .sram => decide (last < 0x6000000)
  | .hbm g off => decide (off + size ≤ s.hcLines g * 64)
  | .aliasHbm a => decide (a + size ≤ s.get pgMMAP F.MMAP_HBM_ALIAS_SIZE_GIB * 2 ^ 30)
  | _ => false

/-- Index of a TVA at a level; log2 size of a leaf there; log2 size of the table below (Table 3-2). -/
def xltIndex (level tva : Nat) : Nat := if level = 3 then bits tva 16 5 else bits tva (39 - 9 * level) 9
def leafSize (level : Nat) : Nat := if level = 1 then 30 else if level = 2 then 21 else 16
def tableSize (level : Nat) : Nat := if level = 3 then 8 else 12

/-- The rules of BAD_ENTRY (Tables 3-3, 3-4) for a present entry of a level. -/
def badEntry (level e : Nat) : Bool :=
  let leaf := bit e 1
  let addr := bits e 8 40 * 2 ^ 8
  bits e 4 4 != 0 || bits e 48 16 != 0 || (leaf && level == 0) || (!leaf && level == 3) ||
  (!leaf && (bit e 2 || bit e 3)) ||
  addr % 2 ^ (if leaf then leafSize level else tableSize (level + 1)) != 0

/-- One table read and what it leads to, level by level; `fuel` counts the levels left. Every table must admit the read as
the walk begins, in s0: a read follows the answer of the one before it, whose message has left its buffer by then.
(DESIGN CHOICE, log entry 10) -/
def walkFrom (s0 : State) (g ctx tva cls urg : Nat) : Nat → Nat → Nat → State → WalkRes × State
  | 0, level, _, s => (.fault ⟨2, level⟩, s)
  | fuel + 1, level, table, s =>
    let a := table + xltIndex level tva * 8
    match s.target a with
    | .error _ => (.fault ⟨7, level⟩, s.raise pgMMAP Err.MMAP_WALK_ERROR (detMem a 0 0 0 0))
    | .ok t =>
      let who : Acc := ⟨g, cls, ctx, urg⟩
      if !s0.tgtFree t who then (.held t a, s)
      else
        let r := (s.tgtGo t who (4096 + g) a).tgtRead t who 8
        let s := r.2
        let j := a % 64 / 8
        if r.1.poison j then (.fault ⟨6, level⟩, s.raise pgMMAP Err.MMAP_WALK_POISON (detMem a j 0 0 0))
        else
          let e := (r.1.grans.getD j ⟨0, .good, 0⟩).data
          let addr := bits e 8 40 * 2 ^ 8
          if !bit e 0 then (.fault ⟨1, level⟩, s)
          else if badEntry level e then (.fault ⟨2, level⟩, s)
          else if bit e 1 then
            if s.inside addr (2 ^ leafSize level) then
              (.leaf ⟨ctx, alignDown tva (2 ^ leafSize level), leafSize level, addr, bit e 2, bit e 3⟩, s)
            else (.fault ⟨5, level⟩, s)
          else if s.inside addr (2 ^ tableSize (level + 1)) then walkFrom s0 g ctx tva cls urg fuel (level + 1) addr s
          else (.fault ⟨5, level⟩, s)

/-- A whole walk from a root (R107). -/
def State.walk (s : State) (g ctx tva cls urg root : Nat) : WalkRes × State :=
  if s.inside root 4096 then walkFrom s g ctx tva cls urg 4 0 root s else (.fault ⟨5, 0⟩, s)

/-- A walker of gallery g whose table read at an address is held (R671, R196). -/
def State.walkHold (s : State) (g ctx cls urg : Nat) (t : Tgt) (a : Nat) : State := s.tgtHold t ⟨g, cls, ctx, urg⟩ (4096 + g) a

/-- The permission an access needs: read, write, or both for an atomic (R98, Table 3-4). -/
inductive Need where
  | rd | wr | both
  deriving DecidableEq, Repr

def Need.writes : Need → Bool
  | .rd => false
  | _ => true

/-- The permission fault of a leaf, if any. -/
def Leaf.denies (l : Leaf) (n : Need) : Option XFault :=
  match n with
  | .rd => if l.rd then none else some ⟨3, l.level⟩
  | .wr => if l.wr then none else some ⟨4, l.level⟩
  | .both => if !l.wr then some ⟨4, l.level⟩ else if !l.rd then some ⟨3, l.level⟩ else none

/-- The fault's count in the gallery (R107). -/
def State.countFault (s : State) (g : Nat) : State := s.count pgMMAP (F.MMAP_XLT_FAULT.at g)

/-! ### Walks that end -/

/-- The invalidation in progress overlaps a leaf (R104, R105). -/
def Inval.hits (i : Inval) (l : Leaf) : Bool :=
  if i.scope = 2 then true
  else l.ctx == i.ctx && (i.scope == 1 || decide (l.tva < (i.base + i.count) * 2 ^ 16 ∧ i.base * 2 ^ 16 < l.tva + 2 ^ l.size))

/-- Start waiting walks while a walker is free: each samples its root when it starts (R101, R119). (DEDUCED, log entry 47) -/
def startWaiting (root : Nat → Nat) : List Walk → Nat → List Walk
  | [], _ => []
  | w :: ws, n =>
    if w.running then w :: startWaiting root ws n
    else if 0 < n then { w with running := true, root := root w.ctx } :: startWaiting root ws (n - 1)
    else w :: startWaiting root ws 0

/-- Running walk k of a gallery ends: its result and the walk itself, the leaf entered unless an invalidation that began
during the walk overlaps it (R103, R105). None if no such walk runs or a table is held. -/
def State.endWalk (s : State) (g k : Nat) : Option (WalkRes × Walk) × State :=
  let x := s.xl g
  match (x.walks.filter (·.running))[k]? with
  | none => (none, s)
  | some w =>
    let r := s.walk g w.ctx (w.page * 2 ^ 16) w.cls w.urg w.root
    match r.1 with
    | .held t a => (none, s.walkHold g w.ctx w.cls w.urg t a)
    | .fault _ | .leaf _ =>
      let s := r.2
      let x := s.xl g
      let rest := x.walks.erase w
      let x := { x with walks := startWaiting s.rootOf rest (8 - (rest.filter (·.running)).length) }
      let x := match r.1 with
        | .leaf l =>
          let x := { x with walked := x.walked ++ w.waiters.filterMap fun v => match v with
            | .errand _ => none
            | _ => some (v, w.ctx, w.page) }
          if w.stale && (s.inval.any fun i => i.hits l) then x else x.use l
        | _ => x
      (some (r.1, w), s.setXl g x)

/-- A waiter forgets the walks that it waited for. -/
def State.dropWalked (s : State) (g : Nat) (p : XWait → Bool) : State :=
  if (s.xl g).walked.any fun e => p e.1 then s.setXl g { s.xl g with walked := (s.xl g).walked.filter fun e => !p e.1 } else s

/-- The miss of a page starts its walk at once: none of the page runs, fewer than 8 run, none waits (R101). -/
def Xlt.free (x : Xlt) (ctx page : Nat) : Bool :=
  x.walks.all (·.running) && decide (x.walks.length < 8) && !(x.walks.any fun k => k.ctx == ctx && k.page == page)

/-- A translation made whole in this step: lookup, then a walk on a miss (R421, R734); none while the miss joins or awaits a
walk (R101) or a table is held. (DEDUCED, log entry 49) -/
def State.translateNow (s : State) (g ctx tva cls : Nat) (need : Need) (who : XWait) : Option (Except XFault Nat) × State :=
  let ans (l : Leaf) (s : State) : Option (Except XFault Nat) × State :=
    match l.denies need with
    | some f => (some (.error f), s.countFault g)
    | none => (some (.ok (l.dpa tva)), s)
  if ((s.xl g).find ctx tva).isNone && (s.xl g).free ctx (tva / 2 ^ 16) then
    let c := if (s.xl g).walked.contains (who, ctx, tva / 2 ^ 16) then s.dropWalked g (· == who) else (s.lookup g ctx tva).2
    let w := c.walk g ctx tva cls 0 (s.rootOf ctx)
    match w.1 with
    | .leaf l => ans l (w.2.setXl g ((w.2.xl g).use l))
    | .fault f => (some (.error f), w.2.countFault g)
    | .held t a => (none, s.walkHold g ctx cls 0 t a)
  else
    let r := s.lookupFor g ctx tva cls 0 who
    match r.1 with
    | some l => ans l r.2
    | none => (none, r.2)

/-! ### Invalidation (R104 to R106) -/

/-- Drop matching cache entries of every gallery and mark the walks that run (R105). -/
def State.invalidate (s : State) (i : Inval) : State :=
  foldS (fun g s =>
    let x := s.xl g
    let x' : Xlt := { x with cache := (x.cache.map fun e => (e.1, e.2.filter fun l => !i.hits l)).filter fun e => !e.2.isEmpty,
                             walks := x.walks.map fun w => if w.running && (i.scope == 2 || w.ctx == i.ctx) then { w with stale := true } else w }
    s.setXl g x')
    (List.range 8) { s with inval := some i }

/-- A write of XLT_INVAL_CTRL: ignored while BUSY, with the reserved scope, or with RANGE and COUNT 0 (R106). -/
def State.invalWrite (s : State) (ctx scope : Nat) : State :=
  let base := s.get pgMMAP F.MMAP_XLT_INVAL_BASE_LO_TVA + s.get pgMMAP F.MMAP_XLT_INVAL_BASE_HI_TVA * 2 ^ 16
  let count := s.get pgMMAP F.MMAP_XLT_INVAL_COUNT_PAGES
  if s.inval.isSome ∨ scope = 3 ∨ (scope = 0 ∧ count = 0) then s.raise pgMMAP Err.MMAP_INVAL_IGNORED
  else (s.set pgMMAP F.MMAP_XLT_INVAL_STATUS_BUSY 1).invalidate ⟨scope, ctx, base, count⟩


/-- What an access keeps of the walk that translated it: the leaf, or, of a walk that an invalidation of its context found
running, one that any scope of the context overlaps (R105). -/
def Leaf.kept (l : Leaf) (stale : Bool) : Leaf := if stale then { l with tva := 0, size := 48 } else l

/-- The invalidation completes: no matching entry, no walk that ran when it began, no access still in flight (R105). (DEDUCED, log entry 50) -/
def State.xltInvalDone (s : State) : State :=
  match s.inval with
  | none => s
  | some i =>
    let busy := (List.range 8).any fun g =>
      (s.xl g).walks.any (fun w => w.stale && (i.scope == 2 || w.ctx == i.ctx)) || ((s.path g).entries.any fun e => e.via.any i.hits) || (s.path g).combs.any fun c => c.via.any i.hits
    if busy then s
    else ({ s with inval := none }.set pgMMAP F.MMAP_XLT_INVAL_STATUS_BUSY 0).set pgMMAP F.MMAP_XLT_INVAL_STATUS_DONE 1

end Sys2Proof.Machine
end

