-- ==== Sys2Proof/Machine/ErrandRun.lean ====
section
/-! DEFINITION. The errand path at work (R250, R251, R385 to R390): translation of each line, admission, the write
combiner, and the line accesses. -/

namespace Sys2Proof.Machine

def erpPage (g : Nat) : Page := ⟨.ERP, g⟩

/-! ### The lines of a request -/

/-- The lines of `n` bytes from an address: address of the first byte, offset in the line, length, position. -/
def linesOf (a n : Nat) : List (Nat × Nat × Nat × Nat) :=
  let n1 := min n (64 - a % 64)
  if n ≤ n1 then [(a, a % 64, n, 0)] else [(a, a % 64, n1, 0), ((a + n1) % 2 ^ 48, 0, n - n1, n1)]

def Errand.lines (e : Errand) : List (Nat × Nat × Nat × Nat) := linesOf (hAddr e.msg.hdr) (hLen e.msg.hdr)
def Errand.opc (e : Errand) : Nat := hOpc e.msg.hdr
def Errand.ctx (e : Errand) : Nat := hCtx e.msg.hdr
def Errand.need (e : Errand) : Need := if e.opc = opRD then .rd else if e.opc = opWR then .wr else .both
def Errand.acc (e : Errand) (g : Nat) : Acc := ⟨g, e.cls, e.ctx, e.urg⟩
def Errand.org (e : Errand) : MirOrg := ⟨0, e.m, hTag e.msg.hdr, e.cls, e.ctx⟩
/-- Every line of the request is translated. -/
def Errand.ready (e : Errand) : Bool := decide (e.lines.length ≤ e.dpas.length)

def State.errand (s : State) (g id : Nat) : Option Errand := (s.path g).entries.find? (·.id == id)
def State.putErrand (s : State) (g : Nat) (e : Errand) : State :=
  s.modPath g fun p => { p with entries := p.entries.map fun x => if x.id == e.id then e else x }
def State.dropErrand (s : State) (g id : Nat) : State :=
  s.modPath g fun p => { p with entries := p.entries.filter (·.id != id) }

/-- A request answers without having entered: its buffer space returns to the fabric (R241). -/
def State.refuseErrand (s : State) (e : Errand) (st detail : Nat) : State :=
  let s := if e.active then s else s.giveBack e.m e.msg
  if e.discard then s else s.respond e.m e.msg.hdr st detail 0 0 []

/-- A translation fault of an errand: FAULT, its record, its count (R107, R732). -/
def State.errandFault (s : State) (g : Nat) (e : Errand) (tva : Nat) (f : XFault) : State :=
  let body := e.m * 2 ^ 8 + hTag e.msg.hdr * 2 ^ 16 + e.opc * 2 ^ 32 + tva * 2 ^ 64
  let s := (s.countFault g).faultRec e.ctx 1 e.need.writes f.kind f.level 4 body
  (s.dropErrand g e.id).refuseErrand e 4 f.kind

/-! ### The combiner (R387 to R390) -/

/-- A write may be merged (R387). -/
def State.mergeable (s : State) (g : Nat) (e : Errand) : Bool :=
  e.opc == opWR && e.merged.isEmpty && s.flag (erpPage g) F.ERP_CMB_CTRL_EN &&
  (s.get (erpPage g) F.ERP_CMB_CTRL_MERGE_CTX).testBit e.ctx && e.lines.length == 1 && hPoison e.msg.hdr == 0

/-- The line DPA of the first line of a translated errand. -/
def Errand.line0 (e : Errand) : Nat := alignDown (e.dpas.getD 0 0) 64

/-- Two requests touch a line in common. -/
def State.shareLine (s : State) (x y : Errand) : Bool := x.dpas.any fun a => y.dpas.any (s.sameLine a)

/-- The write's bytes put into a combiner entry (R388). -/
def Comb.absorb (c : Comb) (e : Errand) : Comb :=
  let off := hAddr e.msg.hdr % 64
  let n := hLen e.msg.hdr
  let data := (List.range 64).map fun i => if off ≤ i ∧ i < off + n then e.msg.data.getD (i - off) 0 else c.data.getD i 0
  let writes := c.writes ++ [⟨e.m, e.msg, off, n, false⟩]
  { c with data := data, en := c.en ||| enables off n, writes := writes, closed := c.closed || decide (16 ≤ writes.length), via := c.via ++ e.via }

/-- Errand entries of gallery g in use by class k (R385). -/
def State.errandsHeld (s : State) (g k : Nat) : Nat := ((s.path g).entries.filter fun e => e.active && e.cls == k).length
def State.errandsUsed (s : State) (g : Nat) : Nat := ((s.path g).entries.filter (·.active)).length

/-! ### Line accesses -/

/-- Poisoned granules that a WR's POISON mask asks for in one line (R251). -/
def wrPoison (mask off n pos : Nat) : Nat :=
  (List.range n).foldl (fun a i => if mask.testBit ((pos + i) / 8) then a ||| 2 ^ ((off + i) / 8) else a) 0

/-- The atomic request that an ATOM header makes (R249, Table 6-6). -/
def atomOf (e : Errand) : Option AtomReq :=
  mkAtom (hXf e.msg.hdr) e.key (hAddr e.msg.hdr % 64) (hLen e.msg.hdr) e.msg.data

/-- One piece of a read or write goes to its line: at once in a bank or a mirrored line, through the queue of a stack. -/
def State.runPiece (s : State) (g : Nat) (e : Errand) (k : Nat) (p : Piece) : State :=
  match s.target p.dpa with
  | .error _ => s.pieceDone g e.id k Status.error.code []
  | .ok t =>
    let data := if e.merged.isEmpty then atOffset p.off ((e.msg.data.drop p.pos).take p.n) else e.msg.data
    let en := if e.merged.isEmpty then enables p.off p.n else leNat ((e.msg.data.drop 64).take 8)
    let pois := if e.merged.isEmpty then wrPoison (hPoison e.msg.hdr) p.off p.n p.pos else byteAt e.msg.data 72
    let rd := e.opc == opRD
    -- bytes that the access names (R198)
    let nb := popCount 64 en
    match t with
    | .sram _ _ =>
      if rd then
        let r := s.tgtRead t (e.acc g) p.n
        r.2.pieceDone g e.id k (r.1.status p.off p.n).code (r.1.slice p.off p.n)
      else
        let w := s.memWrite p.dpa t en data pois (e.acc g) nb e.org fun w => .errand g e.id k w.status.code (w.marks p.off p.n)
        match w.1 with
        | some o => w.2.pieceDone g e.id k o.status.code (o.marks p.off p.n)
        | none => w.2
    | .hbm hg line =>
      if !rd && (s.mirRegion p.dpa).isSome then
        let w := s.memWrite p.dpa t en data pois (e.acc g) nb e.org fun w => .errand g e.id k w.status.code (w.marks p.off p.n)
        match w.1 with
        | some o => w.2.pieceDone g e.id k o.status.code (o.marks p.off p.n)
        | none => w.2
      else
        s.hcRequest hg { line := line, write := !rd, en := en, data := data, pois := pois, cls := e.cls, urg := e.urg,
                         ctx := e.ctx, org := .errand g e.id k } nb

/-- The pieces of an errand from its translated lines; a write-out covers its whole line. -/
def Errand.mkPieces (e : Errand) : List Piece :=
  if e.merged.isEmpty then (e.lines.zip e.dpas).map fun x => { dpa := x.2, off := x.1.2.1, n := x.1.2.2.1, pos := x.1.2.2.2 }
  else e.dpas.map fun d => { dpa := d, off := 0, n := 64, pos := 0 }

/-- The accesses of an admitted errand: the targets of every line first (R143), then the lines, or the atomic. -/
def State.runErrand (s : State) (g : Nat) (e : Errand) : State :=
  let bad := e.dpas.findSome? fun d => match s.target d with
    | .error x => some (d, x)
    | .ok _ => none
  if e.opc = opATOM then
    let off := hAddr e.msg.hdr % 64
    let n := hLen e.msg.hdr
    let dpa := e.dpas.getD 0 0
    let refuse (s : State) : State :=
      ((s.dropErrand g e.id).raise ⟨.BNK, g⟩ Err.BNK_ATOMIC_ERROR).refuseErrand e 10 dtAtomic
    match e.dpas, s.target dpa, atomOf e with
    | [_], .ok t, some a =>
      let s := s.putErrand g { e with pieces := [{ dpa := dpa, off := off, n := n, pos := 0 }] }
      let r := s.memAtomic dpa t a off n (e.acc g) e.org fun o => .errand g e.id 0 o.st o.bytes
      match r.1 with
      | .refused => (r.2.dropErrand g e.id).refuseErrand e 10 dtAtomic
      | .done o => r.2.pieceDone g e.id 0 o.st o.bytes
      | .later => r.2
    | _, _, _ => refuse s
  else match bad with
    | some (d, x) =>
      let e' := { e with pieces := e.mkPieces.map fun p => { p with fin := true, st := 10 } }
      ((s.flagTarget d x).dropErrand g e.id).finishErrand e'
    | none =>
      let ps := e.mkPieces
      let s := s.putErrand g { e with pieces := ps }
      foldS (fun i s => match ps[i]? with
        | some p => s.runPiece g e i p
        | none => s) (List.range ps.length) s

/-- The module's traffic in the request's direction is below its PACE value in force, so the limiter does not meter it
(R206, R671). -/
def State.inPace (s : State) (e : Errand) : Bool := s.belowPace e.m (e.opc == opWR)

/-- The stair admits every line of the request towards another gallery (R33). -/
def State.errandRoute (s : State) (g : Nat) (e : Errand) : Bool :=
  e.dpas.all fun d => match s.target d with
    | .ok t => s.routeFree (e.acc g) t.gallery
    | .error _ => true
/-- Every bank line of the request may be served now (R122), and the pace limiter of every target lets it through (R671). -/
def State.errandOpen (s : State) (e : Errand) : Bool :=
  e.dpas.all fun d => match s.target d with
    | .ok t => (match t with | .sram _ _ => s.tgtOpen t | .hbm _ _ => true) && (s.limOpen t.gallery || s.inPace e)
    | .error _ => true

/-- The data that a request asks of its module's read bucket (R207). -/
def Errand.paceRead (e : Errand) : Nat := if e.opc = opWR then 0 else hLen e.msg.hdr
/-- A metered module's read enters only while its bucket covers the data (R207). -/
def State.paceLets (s : State) (e : Errand) : Bool := !s.metered e.m || decide (e.paceRead ≤ (s.link e.m).bktRd)

/-- The regulated queues on the request's way admit it (R194, R33). -/
def State.errandAdmits (s : State) (g : Nat) (e : Errand) : Bool := s.admits g 32 (s.errandsHeld g) e.cls e.urg && s.errandRoute g e

/-- The requests of one module, virtual channel and class enter in order of arrival (R154, R245): e has nothing ahead of it
but reads that their bucket holds, when it is a write of other lines (R207). -/
def State.errandOrder (s : State) (g : Nat) (e : Errand) : Bool :=
  !((s.path g).entries.any fun x => !x.active && x.m == e.m && x.cls == e.cls && hVc x.msg.hdr == hVc e.msg.hdr && decide (x.id < e.id) &&
    !(x.ready && !s.paceLets x && e.opc == opWR && !s.shareLine x e))

/-- The combiner entries held for any of the lines of an errand (R390), by either name of a line (R94). -/
def State.combsOf (s : State) (g : Nat) (e : Errand) : List Comb := (s.path g).combs.filter fun c => e.dpas.any (s.sameLine c.dpa)

/-- The requests that wait at errand entry of gallery g and may enter: the first of each module and class (R194). -/
def State.errandHeads (s : State) (g : Nat) : List Errand :=
  (List.range 16).filterMap fun i => (s.path g).entries.find? fun e =>
    !e.active && e.ready && e.m == 2 * g + i / 8 && e.cls == i % 8 && s.errandOrder g e && s.errandAdmits g e && s.errandOpen e && s.paceLets e

/-- Errand entry: the entry is taken and the accesses run. -/
def State.enterErrand (s : State) (g : Nat) (e : Errand) : State :=
  let e := { e with active := true }
  let s := if e.merged.isEmpty then s.giveBack e.m e.msg else s
  let s := s.modLink e.m fun l => { l with bktRd := l.bktRd - e.paceRead }
  ((s.putErrand g e).countW (erpPage g) F.ERP_ERRANDS).runErrand g e

/-- An ordinary request waits at errand entry that needs no write-out first: after one write-out it is granted before the
next (R188). -/
def State.errandTurn (s : State) (g : Nat) : Bool :=
  s.emerged.contains (0x8000 + g) && (s.errandHeads g).any fun e => (s.combsOf g e).isEmpty

/-- The write-out of a closed combiner entry takes the first free errand entry (R389); false while none is free. -/
def State.writeOut (s : State) (g : Nat) (c : Comb) : Bool × State :=
  if 32 ≤ s.errandsUsed g ∨ s.errandTurn g ∨ !(match s.target c.dpa with | .ok t => s.tgtOpen t | .error _ => true) then (false, s)
  else match c.writes.head? with
    | none => (true, s)
    | some w =>
      let p := s.path g
      let e : Errand := { id := p.nextId, m := w.m, msg := ⟨w.msg.hdr, c.data ++ leBytes 8 c.en ++ [BitVec.ofNat 8 c.bad]⟩, cls := c.cls,
                          urg := 0, dpas := [c.dpa], via := c.via, active := true, merged := c.writes }
      let s := { s.setPath g { p with nextId := p.nextId + 1, combs := p.combs.erase c, entries := p.entries ++ [e] } with
        emerged := (0x8000 + g) :: s.emerged.filter (· ≠ 0x8000 + g) }
      let s := if c.bad ≠ 0 then s.raise (erpPage g) Err.ERP_CMB_DATA_PARITY else s
      (true, ((s.count (erpPage g) F.ERP_WRITEOUTS).countW (erpPage g) F.ERP_ERRANDS).runErrand g e)

/-- A combiner entry closes and writes out, or waits closed for an errand entry (R389). -/
def State.closeComb (s : State) (g : Nat) (c : Comb) : State :=
  let w := s.writeOut g c
  if w.1 then w.2.modPath g fun p => { p with combs := p.combs.filter (· != c) }
  else s.modPath g fun p => { p with combs := p.combs.map fun x => if x == c then { x with closed := true } else x }

/-- Closed combiner entries take the errand entries that are free, ahead of every draw (R389). -/
def State.flushCombs (s : State) (g : Nat) : State := foldS (fun c s => if c.closed then s.closeComb g c else s) (s.path g).combs s

/-- A request that an open entry does not absorb closes its window at once (R390). -/
def State.forceClose (s : State) (g : Nat) (c : Comb) : State :=
  (if c.closed then s else s.count (erpPage g) F.ERP_FORCED_CLOSE).closeComb g c

/-- A request waits; one that a regulated queue refuses is counted once (R196), at the stair too (Table 1-13); one that the
pace limiter holds is counted there (R671). -/
def State.holdErrand (s : State) (g : Nat) (e : Errand) : State :=
  let s := if s.inPace e then s else foldS (fun d s => match s.target d with
    | .ok t => s.limHold t.gallery (256 + e.id)
    | .error _ => s) e.dpas s
  if s.errandAdmits g e then s
  else
    let s := if e.held ∨ s.errandRoute g e then s else foldS (fun d s => match s.target d with
      | .ok t => if s.routeFree (e.acc g) t.gallery then s
        else s.count (gswPage g) (F.GSW_STAIR_HELD.at (stairHop ((t.gallery + 8 - g) % 8)))
      | .error _ => s) e.dpas s
    (s.refuse g e.cls e.ctx e.held).putErrand g { e with held := true }

/-- Admission of a translated request (R194, R385, R387 to R390). `drawn` says the errand entry arbiter chose it. (DEDUCED, log entry 96) -/
def State.admitErrand (s : State) (g : Nat) (e : Errand) (drawn : Bool) : State :=
  let room (s : State) : Bool := s.errandOrder g e && s.errandAdmits g e && s.errandOpen e && s.paceLets e &&
    (drawn || !((s.path g).entries.any fun x => !x.active && x.ready && x.cls == e.cls && decide (x.id < e.id)))
  let enter (s : State) : State :=
    if room s then
      if s.mergeable g e then
        if (s.path g).combs.length < 16 then
          let c : Comb := { dpa := e.line0, ctx := e.ctx, cls := e.cls, en := 0, data := List.replicate 64 0, bad := 0, writes := [], closed := false }
          (((s.countW (erpPage g) F.ERP_ERRANDS).giveBack e.m e.msg).dropErrand g e.id).modPath g fun p => { p with combs := p.combs ++ [c.absorb e] }
        else (s.count (erpPage g) F.ERP_CMB_FULL).enterErrand g e
      else s.enterErrand g e
    else s.holdErrand g e
  if !s.errandOrder g e then s.holdErrand g e
  else
    let s := s.flushCombs g
    match (s.combsOf g e).find? fun c => s.mergeable g e && c.ctx == e.ctx && c.cls == e.cls && !c.closed && decide (c.writes.length < 16) with
    | some c =>
      let s := ((s.giveBack e.m e.msg).dropErrand g e.id).count (erpPage g) F.ERP_ABSORBED
      (s.modPath g fun p => { p with combs := p.combs.map fun x => if x == c then c.absorb e else x }).flushCombs g
    | none =>
      let s := foldS (fun c s => s.forceClose g c) (s.combsOf g e) s
      if (s.combsOf g e).isEmpty then enter s else s.holdErrand g e

/-- Translate the next lines of a request by lookups; a miss waits for a walk, a fault answers, and a request with every
line translated goes to admission. `fuel` is the number of lines. (DEDUCED, log entry 63) -/
def State.stepErrand (g id : Nat) : Nat → State → State
  | 0, s => s
  | fuel + 1, s =>
    match s.errand g id with
    | none => s
    | some e =>
      match e.lines[e.dpas.length]? with
      | none => s.admitErrand g e false
      | some (tva, _, _, _) =>
        let r := s.lookup g e.ctx tva
        match r.1 with
        | none => r.2.startWalk g e.ctx tva e.cls e.urg (.errand id)
        | some l => match l.denies e.need with
          | some f => r.2.errandFault g e tva f
          | none => stepErrand g id fuel (r.2.putErrand g { e with dpas := e.dpas ++ [l.dpa tva], via := e.via ++ [l] })

/-- A walk that an errand waited for has ended: the leaf serves its line, or the fault answers it. -/
def State.errandWalked (s : State) (g id : Nat) (stale : Bool) (r : WalkRes) : State :=
  match s.errand g id with
  | none => s
  | some e =>
    match e.lines[e.dpas.length]? with
    | none => s
    | some (tva, _, _, _) =>
      match r with
      | .held _ _ => s
      | .fault f => s.errandFault g e tva f
      | .leaf l => match l.denies e.need with
        | some f => s.errandFault g e tva f
        | none => State.stepErrand g id 3 (s.putErrand g { e with dpas := e.dpas ++ [l.dpa tva], via := e.via ++ [l.kept stale] })

/-- A fabric memory request enters the interior, stamped (R95, R191, R250). -/
def State.beginErrand (s : State) (m : Nat) (msg : Msg) (key : Nat) : State :=
  let g := m / 2
  let p := s.path g
  let l := s.link m
  let lines := (linesOf (hAddr msg.hdr) (hLen msg.hdr)).length
  let urg := s.urgOf m
  let e : Errand := { id := p.nextId, m := m, msg := msg, cls := hSc msg.hdr, urg := urg, dpas := [], key := key }
  let s := s.setLink m (if hOpc msg.hdr = opWR then { l with dWr := l.dWr + lines } else { l with dRd := l.dRd + lines })
  State.stepErrand g e.id 3 (s.setPath g { p with nextId := p.nextId + 1, entries := p.entries ++ [e] })

/-- A combiner entry's window of 16 turns ends (R389, R399): entry i of the gallery closes and writes out. -/
def State.combinerWindowExpiry (g : Fin 8) (i : Fin 16) (s : State) : State :=
  match (s.path g).combs[i.val]? with
  | none => s
  | some c => s.closeComb g c

end Sys2Proof.Machine
end

