-- ==== Sys2Proof/Machine/Hall.lean ====
section
/-! DEFINITION. The tally hall (chapter 11): numbering, operations, waits and grants, barriers, links, locks and
orphans, and their mirroring (R597 to R601). -/

namespace Sys2Proof.Machine

def ttvPage (c : Nat) : Page := ⟨.TTV, c⟩
def tallyMax : Nat := 16777215

def State.modHall (s : State) (f : Hall → Hall) : State := { s with hall := f s.hall }
def State.tally (s : State) (p : Nat) : Tally := (find s.hall.tallies p).getD {}
def State.setTally (s : State) (p : Nat) (t : Tally) : State := s.modHall fun h => { h with tallies := put h.tallies p t }

/-! ### Numbering (R454, R455) -/

def State.tallyCount (s : State) (c : Nat) : Nat := 64 * s.get pgTHL (F.THL_TALLY_ALLOC_COUNT.at c)
def State.tallyBase (s : State) (c : Nat) : Nat := 64 * s.get pgTHL (F.THL_TALLY_ALLOC_BASE.at c)

/-- The share entry that redirects a virtual number of a guest. -/
def State.shareOf (s : State) (c v : Nat) : Option Nat :=
  (List.range 64).find? fun k =>
    s.flag pgTHL (F.THL_TALLY_SHARE_EN.at k) && s.get pgTHL (F.THL_TALLY_SHARE_GUEST.at k) == c &&
    s.get pgTHL (F.THL_TALLY_SHARE_GUEST_V.at k) == v

/-- The physical tally of a virtual number, if the context has it. -/
def State.physOf (s : State) (c v : Nat) : Option Nat :=
  if s.tallyCount c ≤ v then none
  else match s.shareOf c v with
    | some k => some (s.get pgTHL (F.THL_TALLY_SHARE_PHYS.at k))
    | none => some (s.tallyBase c + v)

/-- The context whose block range holds a physical tally. -/
def State.ownerOf (s : State) (p : Nat) : Option Nat :=
  (List.range 16).find? fun c => decide (s.tallyBase c ≤ p ∧ p < s.tallyBase c + s.tallyCount c)

/-! ### Links (R471 to R473) -/

/-- The enabled link of the owning context that holds a tally: the physical numbers of A and B. -/
def State.linksOf (s : State) (c : Nat) : List (Nat × Nat) :=
  (List.range 16).filterMap fun k =>
    if s.flag (ttvPage c) (F.TTV_LINK_EN.at k) then
      match s.physOf c (s.get (ttvPage c) (F.TTV_LINK_A.at k)), s.physOf c (s.get (ttvPage c) (F.TTV_LINK_B.at k)) with
      | some a, some b => some (a, b)
      | _, _ => none
    else none
def State.partner (s : State) (p : Nat) : Option Nat :=
  ((List.range 16).flatMap s.linksOf).findSome? fun l => if l.1 = p then some l.2 else if l.2 = p then some l.1 else none

/-- A WAIT_GE N holds on a tally (R464, R471). -/
def State.geHolds (s : State) (p n : Nat) : Bool :=
  match s.partner p with
  | some q => decide (toSigned 24 n ≤ ((s.tally p).val : Int) - ((s.tally q).val : Int))
  | none => decide (n ≤ (s.tally p).val)

/-! ### Answers (R452, R461) -/

/-- The outcome that reads a tally as it stands. -/
def State.resOf (s : State) (p : Nat) (st : Status) (detail : Nat := 0) : TallyRes :=
  let t := s.tally p
  ⟨st.code, detail, t.val, t.sat, t.orph⟩

/-- Deliver an outcome to its requester: a module's TALLY_RSP, or an answer kept for the queue, ring or crier. -/
def State.tallyAnswer (s : State) (r : TallyReq) (phys : Nat) (a : TallyRes) : State :=
  match r.who with
  | .module m _ =>
    if r.hdr = 0 then s
    else s.respond m r.hdr a.st a.detail 0 (a.val + b2n a.sat * 2 ^ 24 + b2n a.orph * 2 ^ 25) []
  | .steward => if r.hdr = 0 then s else s.portDone (r.hdr.toNat - 1) 0 0 0 []
  | w => s.modHall fun h => { h with answers := h.answers ++ [⟨w, r.ctx, r.top, phys, a, r.tag⟩] }

/-- Number and kind of a requester (Table 11-5), and the gallery of its spoke. -/
def Who.kind : Who → Nat
  | .queue _ => 0 | .ring _ => 1 | .module _ _ => 2 | .crier _ => 3 | .steward => 2
def Who.num : Who → Nat
  | .queue q => q | .ring r => r | .module m _ => m | .crier g => g | .steward => 0
def Who.tag : Who → Nat
  | .module _ t => t
  | _ => 0

def fmnPage (g : Nat) : Page := ⟨.FMN, g⟩

/-- Enabled slots that name a ring, as gallery * 8 + slot. -/
def State.slotsOf (s : State) (r : Nat) : List Nat :=
  (List.range 64).filter fun k =>
    s.flag (fmnPage (k / 8)) (F.FMN_RING_SLOT_EN.at (k % 8)) && s.get (fmnPage (k / 8)) (F.FMN_RING_SLOT_RING.at (k % 8)) == r

/-- The gallery and slot that serve a ring: exactly one enabled slot names it (R410). -/
def State.ringHome (s : State) (r : Nat) : Option (Nat × Nat) :=
  match s.slotsOf r with
  | [k] => some (k / 8, k % 8)
  | _ => none

/-- The gallery whose spoke a source's operations take: a ring's is its home gallery (R16, R21). -/
def State.whoGallery (s : State) : Who → Nat
  | .queue q => q / 16
  | .ring r => ((s.ringHome r).map (·.1)).getD 0
  | .module m _ => m / 2
  | .crier g => g
  | .steward => 0

/-- Holders of a module are identified by the module alone (R474). -/
def Who.holder : Who → Who
  | .module m _ => .module m 0
  | w => w

/-- The origin of a mirrored tally operation (Table 14-3). -/
def TallyReq.org (r : TallyReq) : MirOrg :=
  match r.who with
  | .module m t => ⟨0, m, t, r.sc, r.ctx⟩
  | .queue q => ⟨1, q, 0, r.sc, r.ctx⟩
  | .ring k => ⟨2, k, 0, r.sc, r.ctx⟩
  | _ => ⟨3, 0, 0, r.sc, r.ctx⟩

def TallyReq.detail (r : TallyReq) (phys amount : Nat) : Detail :=
  detTally r.ctx r.virt phys r.who.kind r.who.num r.who.tag r.top amount

/-- One operation applied: counted and traced (Table 15-10). -/
def State.opApplied (s : State) (r : TallyReq) (phys : Nat) (st : Nat) : State :=
  (s.countW pgTHL F.THL_OPS).traceEv 3 (s.whoGallery r.who) r.ctx (r.top + phys * 2 ^ 4 + st * 2 ^ 17 + r.n % 2 ^ 16 * 2 ^ 21)

/-- A refusal with ERROR, DETAIL 0x07, logged (R497). -/
def State.tallyRefuse (s : State) (r : TallyReq) (phys : Nat) : State :=
  (s.logRec pgTHL 0x1F (r.detail phys r.n) false false).tallyAnswer r phys ⟨10, dtTally, 0, false, false⟩

/-! ### Value changes (R462, R477) -/

/-- Add to a tally, saturating (R462): `c` is the context counted. -/
def State.tallyPlus (s : State) (r : TallyReq) (p n : Nat) : State :=
  let t := s.tally p
  let s := s.setTally p { t with val := min (t.val + n) tallyMax, sat := t.sat || decide (tallyMax < t.val + n), touched := s.ticks }
  if tallyMax < t.val + n then
    ((s.count pgTHL F.THL_SATURATIONS).count (ttvPage r.ctx) F.TTV_SATURATIONS).raise pgTHL Err.THL_SAT (r.detail p n) true
  else s

/-- Release up to n of what a source holds on a tally, oldest record first (R475). -/
def releaseHeld (p : Nat) (w : Who) (c : Nat) (peer : Bool) : List Holder → Nat → List Holder
  | [], _ => []
  | h :: hs, n =>
    if h.phys = p ∧ h.who = w ∧ h.ctx = c ∧ h.peer = peer then
      if h.n ≤ n then releaseHeld p w c peer hs (n - h.n) else { h with n := h.n - n } :: hs
    else h :: releaseHeld p w c peer hs n

/-! ### Grants (R465, R471, R474, R478, R486, R598) -/

/-- A change to a context's waits ends its deadlock episode (R481). -/
def State.clearDl (s : State) (c : Nat) : State := s.set (ttvPage c) F.TTV_TTV_STATUS_DL_ACTIVE 0

/-- Grant every WAIT_GE on a tally whose condition holds, in the order of the records. -/
def State.grantGe (p : Nat) : List Waiter → State → State
  | [], s => s
  | w :: ws, s =>
    if w.phys = p ∧ w.req.top = 2 ∧ s.geHolds p w.req.n then
      let s := s.modHall fun h => { h with waiters := h.waiters.erase w }
      grantGe p ws ((s.clearDl w.req.ctx).tallyAnswer w.req p (s.resOf p .ok))
    else grantGe p ws s

/-- What a granted WAIT_TAKE does to the record: the value, the holder (R464, R474). -/
def State.takeEffect (s : State) (r : TallyReq) (p : Nat) (peer : Bool) : State :=
  let t := s.tally p
  let s := s.setTally p { t with val := t.val - r.n }
  if t.lock then s.modHall fun h => { h with holders := h.holders ++ [⟨p, r.who.holder, r.ctx, r.n, peer⟩] } else s

/-- Grant takes from the head of the order while the value suffices; `fuel` bounds the waiters. On a die that forwards,
the head asks the sequencer instead. -/
def State.grantTakes (p : Nat) : Nat → State → State
  | 0, s => s
  | fuel + 1, s =>
    match s.hall.waiters.find? fun w => w.phys == p && w.req.top == 3 with
    | none => s
    | some w =>
      let t := s.tally p
      if t.val < w.req.n ∨ w.asked then s
      else if s.forwards then
        let s := s.modHall fun h => { h with waiters := h.waiters.map fun x => if x == w then { x with asked := true } else x }
        s.mirForward w.req.org { mkind := mkTAKE, addr := tallyAddr 3 p w.req.n } (.take { w with asked := true })
      else if t.lock ∧ 256 ≤ s.hall.holders.length then
        if w.full then s
        else
          let s := s.modHall fun h => { h with waiters := h.waiters.map fun x => if x == w then { x with full := true } else x }
          (s.count pgTHL F.THL_HOLDER_FULL_COUNT).raise pgTHL Err.THL_HOLDER_FULL (w.req.detail p w.req.n)
      else
        let s := (s.modHall fun h => { h with waiters := h.waiters.erase w }).takeEffect w.req p false
        let a := s.resOf p (if t.orph then .okOrphaned else .ok)
        let s := (s.clearDl w.req.ctx).opApplied w.req p a.st
        let m := s.mirApply w.req.org { mkind := mkTAKE, addr := tallyAddr 3 p w.req.n, st := a.st } s.dieNo 0 p (.tally w.req p a)
        grantTakes p fuel (if m.1 then m.2 else m.2.tallyAnswer w.req p a)

/-- Evaluate the waiters of a tally and of its link partner (R465, R471). -/
def State.evalTally (s : State) (p : Nat) : State :=
  let s := State.grantGe p s.hall.waiters s
  let s := match s.partner p with
    | some q => State.grantGe q s.hall.waiters s
    | none => s
  State.grantTakes p s.hall.waiters.length s

/-! ### Barriers (R469, R470, R488) -/

/-- A release: value 0, GEN inverted, PART 0, and every waiter of the generation answers OK. -/
def State.releaseBarrier (s : State) (p : Nat) : State :=
  let t := s.tally p
  let mine := s.hall.waiters.filter fun w => w.phys == p && w.req.top == 6 && w.gen == t.gen && !w.asked
  let s := s.setTally p { t with val := 0, gen := !t.gen, part := 0 }
  let s := s.modHall fun h => { h with waiters := h.waiters.filter fun w => !(w.phys == p && w.req.top == 6 && w.gen == t.gen && !w.asked) }
  let s := s.count pgTHL F.THL_RELEASES
  foldS (fun w s => (s.clearDl w.req.ctx).tallyAnswer w.req p (s.resOf p .ok)) mine s

/-- One arrival counted; a full count releases. -/
def State.arriveEffect (s : State) (p n : Nat) : State :=
  let t := s.tally p
  let part := if t.part = 0 then n else t.part
  let s := s.setTally p { t with val := min (t.val + 1) tallyMax, part := part, touched := s.ticks }
  if part ≤ t.val + 1 then s.releaseBarrier p else s

/-! ### Operations -/

/-- The operations that end a deadlock episode when they touch an awaited tally (R481). -/
def State.touch (s : State) (p : Nat) : State :=
  foldS (fun w s => if w.phys = p then s.clearDl w.req.ctx else s) s.hall.waiters s

/-- The effect of a mirrored operation on the record and its waiters: ADD, SUB, SET, ARRIVE, CLEAR_ORPHAN. `peer` marks
an origin on the other die. -/
def State.tallyEffect (s : State) (r : TallyReq) (p : Nat) (peer : Bool) : State :=
  let t := s.tally p
  match r.top with
  | 0 =>
    let s := (s.tallyPlus r p r.n).modHall fun h => { h with holders := releaseHeld p r.who.holder r.ctx peer h.holders r.n }
    (s.touch p).evalTally p
  | 1 => if r.n ≤ t.val then (s.setTally p { t with val := t.val - r.n }).evalTally p else s
  | 5 =>
    let t := if t.broken then { t with broken := false, sat := false, orph := false } else { t with sat := false }
    ((s.setTally p { t with val := r.n, touched := s.ticks }).touch p).evalTally p
  | 6 => ((s.arriveEffect p r.n).touch p).evalTally p
  | 7 => s.setTally p { t with orph := false }
  | _ => s

/-- The deadline of a wait from its timeout code (R466): none for no timeout. (DEDUCED, log entry 106) -/
def State.deadlineOf (s : State) (c code : Nat) : Option Nat :=
  let us := if code = 0 then s.get pgTHL (F.THL_DEFAULT_TIMEOUT_US.at c) else code
  if us = 0xFFFFFFFF then none else some (s.ticks + us + 1)

def nowait : Nat := 0xFFFFFFFE

/-- A waiter record. -/
def State.pushWaiter (s : State) (r : TallyReq) (p : Nat) (gen : Bool) : State :=
  s.modHall fun h => { h with waiters := h.waiters ++ [⟨r, p, gen, s.ticks, s.deadlineOf r.ctx r.timeout, false, false⟩] }

/-- The record of an arrival that is on its way to the sequencer: no release ends it before it is counted. -/
def State.askWaiter (s : State) (r : TallyReq) (p : Nat) : State :=
  s.modHall fun h => { h with waiters := h.waiters ++ [⟨r, p, (s.tally p).gen, s.ticks, s.deadlineOf r.ctx r.timeout, true, false⟩] }

/-- A waiter record is made, or the wait is held for one (R451, R468). -/
def State.makeWaiter (s : State) (r : TallyReq) (p : Nat) (gen : Bool) : State :=
  if s.hall.waiters.length < 2048 then s.pushWaiter r p gen
  else
    ((s.modHall fun h => { h with held := h.held ++ [r] }).count pgTHL F.THL_WAITER_FULL_COUNT).raise pgTHL Err.THL_WAITER_FULL
      (r.detail p r.n)

/-- N and TOP as Table 11-4 and R460 allow them, for a linked or broken tally (R471, R494). -/
def State.tallyLegal (s : State) (r : TallyReq) (p : Nat) : Bool :=
  let linked := (s.partner p).isSome
  let t := s.tally p
  !(t.broken && r.top != 5) &&
  (match r.top with
   | 3 => r.n != 0 && !linked
   | 4 => r.n == 0
   | 6 => r.n != 0 && !linked && (t.part == 0 || t.part == r.n)
   | 7 => r.n == 0
   | n => decide (n < 8))

/-- An operation that changes the tally: applied here and mirrored, or sent to the sequencer (R593). (DEDUCED, log entry 104) -/
def State.tallyMutate (s : State) (r : TallyReq) (p : Nat) : State :=
  let body : MirBody := { mkind := mkTALLY, addr := tallyAddr r.top p r.n }
  if r.top = 6 ∧ r.timeout ≠ nowait ∧ 2048 ≤ s.hall.waiters.length then s.makeWaiter r p false
  else if s.forwards then
    let s := if r.top = 6 ∧ r.timeout ≠ nowait then s.askWaiter r p else s
    s.mirForward r.org body (.tally r p (s.resOf p .ok))
  else
    let under := r.top == 1 && decide ((s.tally p).val < r.n)
    let gen := (s.tally p).gen
    let s := if r.top = 6 ∧ r.timeout ≠ nowait then s.pushWaiter r p gen else s
    let s := s.tallyEffect r p false
    let st := if under then Status.underflow else Status.ok
    let s := if under then (s.count pgTHL F.THL_UNDERFLOWS).count (ttvPage r.ctx) F.TTV_UNDERFLOWS else s
    let a := s.resOf p st
    let s := s.opApplied r p a.st
    let waits := r.top == 6 && r.timeout != nowait
    if under then s.tallyAnswer r p a
    else
      let m := s.mirApply r.org { body with st := a.st } s.dieNo 0 p (if waits then .nobody else .tally r p a)
      if waits ∨ m.1 then m.2 else m.2.tallyAnswer r p a

/-- A wait on arrival: granted, refused for NOWAIT, or a record is made (R464 to R466). (DEDUCED, log entry 105) -/
def State.tallyWait (s : State) (r : TallyReq) (p : Nat) : State :=
  let t := s.tally p
  if r.top = 2 then
    if s.geHolds p r.n then (s.opApplied r p 0).tallyAnswer r p (s.resOf p .ok)
    else if r.timeout = nowait then (s.opApplied r p 8).tallyAnswer r p (s.resOf p .timeout)
    else s.makeWaiter r p t.gen
  else
    let queued := s.hall.waiters.any fun w => w.phys == p && w.req.top == 3
    let can := decide (r.n ≤ t.val) && !queued && !(t.lock && decide (256 ≤ s.hall.holders.length))
    if r.timeout = nowait ∧ !can then
      (((s.count pgTHL F.THL_UNDERFLOWS).count (ttvPage r.ctx) F.TTV_UNDERFLOWS).opApplied r p 7).tallyAnswer r p (s.resOf p .underflow)
    else if can then (s.pushWaiter r p t.gen).evalTally p
    else (s.makeWaiter r p t.gen).evalTally p

/-- A tally operation reaches the hall and is admitted (R450, R454, R459, R460). -/
def State.tallyIssue (s : State) (r : TallyReq) : State :=
  if 8 ≤ r.top then s.tallyAnswer r 0 ⟨10, dtUndefined, 0, false, false⟩
  else if r.top = 5 ∧ r.who ≠ .steward then s.tallyAnswer r 0 ⟨5, dtNotPermitted, 0, false, false⟩
  else match s.physOf r.ctx r.virt with
    | none => s.tallyRefuse r 0
    | some p =>
      if !s.tallyLegal r p then s.tallyRefuse r p
      else match r.top with
        | 2 => s.tallyWait r p
        | 3 => s.tallyWait r p
        | 4 => (s.opApplied r p 0).tallyAnswer r p (s.resOf p .ok)
        | _ => s.tallyMutate r p

/-- Waits held for a record enter while records are free; `fuel` bounds them. -/
def State.admitHeld : Nat → State → State
  | 0, s => s
  | fuel + 1, s =>
    match s.hall.held with
    | [] => s
    | r :: rs =>
      if s.hall.waiters.length < 2048 then admitHeld fuel ((s.modHall fun h => { h with held := rs }).tallyIssue r) else s

/-- After a change that may free records: takes that waited for a holder record are evaluated (R474), then waits that were held
for a waiter record enter (R468). -/
def State.hallSettle (s : State) : State :=
  let s := foldS (fun w s => if w.full && decide (s.hall.holders.length < 256) then s.evalTally w.phys else s) s.hall.waiters s
  State.admitHeld s.hall.held.length s

/-- An operation issued by any requester of this die. -/
def State.tallyOp (s : State) (r : TallyReq) : State := (s.tallyIssue r).hallSettle

/-! ### Steward operations through the window (R457, R488) -/

/-- A steward operation names a physical tally; a mirrored one is answered when both dies have applied it, and none is
applied while FENCED (R602, R619). (DEDUCED, log entry 111) -/
def State.stewardOp (s : State) (top p n : Nat) (handle : Option Nat := none) : State :=
  let r : TallyReq := ⟨.steward, (s.ownerOf p).getD 0, top, p, n, 0, 0, BitVec.ofNat 128 (match handle with | some h => h + 1 | none => 0), 0⟩
  if top ≠ 0 ∧ top ≠ 1 ∧ top ≠ 5 ∧ top ≠ 7 then (s.raise pgTHL Err.THL_BAD_VALUE).tallyAnswer r p ⟨0, 0, 0, false, false⟩
  else if s.twinState = twFENCED then s.tallyAnswer r p ⟨0, 0, 0, false, false⟩
  else
    if !s.tallyLegal r p then (s.logRec pgTHL 0x1F (r.detail p n) false false).tallyAnswer r p ⟨0, 0, 0, false, false⟩
    else (s.tallyMutate r p).hallSettle

/-- A write of the OP word of a tally's slot: an operation of the steward, or ERROR and a record for a reserved bit or an
undefined TOP (R10, R457, R459). -/
def State.opWord (s : State) (p : Nat) (w : Word) (handle : Option Nat := none) : State :=
  let top := wbits w 0 4
  let d := detTally 0 0 p 4 0 0 top (wbits w 8 24)
  let refuse (s : State) (code : Nat) : State := match handle with
    | some h => s.portDone h 10 code 0 []
    | none => s
  if wbits w 4 4 ≠ 0 then refuse (s.logRec pgTHL 0x1F d false false) dtReserved
  else if 8 ≤ top then refuse (s.raise pgTHL Err.THL_BAD_VALUE d true) dtUndefined
  else s.stewardOp top p (wbits w 8 24) handle

/-- The words of a tally slot (Table 11-3). -/
def State.tallyWord (s : State) (p word : Nat) : Word :=
  let t := s.tally p
  let waits := (s.hall.waiters.filter (·.phys == p)).length
  let shared := (List.range 64).any fun k => s.flag pgTHL (F.THL_TALLY_SHARE_EN.at k) && s.get pgTHL (F.THL_TALLY_SHARE_PHYS.at k) == p
  BitVec.ofNat 32 (match word with
  | 0 => t.val + b2n t.sat * 2 ^ 24 + b2n t.orph * 2 ^ 25 + b2n t.gen * 2 ^ 26 + b2n t.lock * 2 ^ 27 + b2n shared * 2 ^ 28 +
      b2n (s.partner p).isSome * 2 ^ 29 + b2n (decide (0 < waits)) * 2 ^ 30 + b2n t.broken * 2 ^ 31
  | 1 => t.part
  | 3 => (s.ownerOf p).getD 0 + b2n (s.ownerOf p).isSome * 2 ^ 4 + (s.hall.holders.filter (·.phys == p)).length * 2 ^ 8 + waits * 2 ^ 17
  | _ => 0)

/-! ### Orphans and cancellation (R476, R477, R489, R490, R493) -/

/-- One holder is orphaned on this die: its amount returns, ORPHANED is set and logged, waiters are evaluated (R477). -/
def State.orphanHere (s : State) (h : Holder) : State :=
  let r : TallyReq := ⟨h.who, h.ctx, 0, 0, h.n, 0, 0, 0, 0⟩
  let s := (s.modHall fun x => { x with holders := x.holders.erase h }).tallyPlus r h.phys h.n
  let t := s.tally h.phys
  let s := (s.setTally h.phys { t with orph := true }).count pgTHL F.THL_ORPHANS
  let s := (s.count (ttvPage h.ctx) F.TTV_ORPHANS).raise pgTHL Err.THL_LOCK_ORPHANED (r.detail h.phys h.n) true
  ((s.touch h.phys).evalTally h.phys).hallSettle

/-- The TOP code that marks an orphan return among mirrored tally operations (the model's own). (DESIGN CHOICE, log entry 123) -/
def topOrphan : Nat := 15

/-- An orphan return is a mirrored operation. -/
def State.orphan (s : State) (h : Holder) : State :=
  let r : TallyReq := ⟨h.who, h.ctx, 0, 0, h.n, 0, 0, 0, 0⟩
  let body : MirBody := { mkind := mkTALLY, addr := tallyAddr topOrphan h.phys h.n }
  if s.forwards then s.mirForward r.org body .nobody
  else ((s.orphanHere h).mirApply r.org body (if h.peer then 1 - s.dieNo else s.dieNo) 0 h.phys .nobody).2

/-- Orphan every holder that a test names. -/
def State.orphanAll (s : State) (p : Holder → Bool) : State := foldS (fun h s => s.orphan h) (s.hall.holders.filter p) s

/-- Cancel every waiter and held wait that a test names, answering with a status, or with nothing. (DEDUCED, log entry 108) -/
def State.cancelWaits (s : State) (p : TallyReq → Bool) (st : Option Status) : State :=
  let mine := s.hall.waiters.filter fun w => p w.req
  let held := s.hall.held.filter p
  let s := s.modHall fun h => { h with waiters := h.waiters.filter fun w => !p w.req, held := h.held.filter fun r => !p r }
  let s := match st with
    | some x => foldS (fun (w : Waiter) (s : State) => s.tallyAnswer w.req w.phys (s.resOf w.phys x)) mine
        (foldS (fun (r : TallyReq) (s : State) => s.tallyAnswer r 0 ⟨x.code, 0, 0, false, false⟩) held s)
    | none => s
  (foldS (fun (w : Waiter) (s : State) => if w.req.top = 3 then s.evalTally w.phys else s) mine s).hallSettle

/-! ### Timeouts (R466, R467, R484) -/

/-- Waiter i has passed its deadline: TIMEOUT, the counts and the records. A wait that is on its way to the sequencer waits
for its answer first. -/
def State.waitTimeout (s : State) (i : Nat) : State :=
  match s.hall.waiters[i]? with
  | none => s
  | some w =>
    match w.deadline with
    | none => s
    | some d =>
      if s.ticks < d ∨ w.asked then s
      else
        let r := w.req
        let s := s.modHall fun h => { h with waiters := h.waiters.erase w }
        let v := (s.tally w.phys).val
        let s := (s.count pgTHL F.THL_TIMEOUTS).count (ttvPage r.ctx) F.TTV_TIMEOUTS
        let s := s.raise pgTHL Err.THL_TIMEOUT (r.detail w.phys r.n) true
        let body := r.virt + w.phys * 2 ^ 16 + r.top * 2 ^ 32 + r.who.kind * 2 ^ 40 + r.who.num * 2 ^ 48 + r.who.tag * 2 ^ 64 +
          r.n * 2 ^ 96 + v * 2 ^ 128
        let s := s.faultRec r.ctx 6 false 0 0 8 body
        let s := s.tallyAnswer r w.phys (s.resOf w.phys .timeout)
        (if r.top = 3 then s.evalTally w.phys else s).hallSettle

/-! ### Realignment (R472, R487, R601) -/

/-- Rebase one link: the lower value leaves both tallies. -/
def State.realignLink (s : State) (c a b : Nat) : State :=
  let m := min (s.tally a).val (s.tally b).val
  let s := s.setTally a { s.tally a with val := (s.tally a).val - m }
  let s := s.setTally b { s.tally b with val := (s.tally b).val - m }
  let s := (s.count pgTHL F.THL_REALIGNS).count (ttvPage c) F.TTV_REALIGNS
  (s.mirApply ⟨3, 0, 0, 0, c⟩ { mkind := mkREALIGN, addr := tallyAddr 0 a m, kspec := b } s.dieNo 0 a .nobody).2

/-- Realign every enabled link of a context, on the sequencer only. -/
def State.realign (s : State) (c : Nat) : State :=
  if s.forwards then s else foldS (fun l s => s.realignLink c l.1 l.2) (s.linksOf c) s

/-- A context's realignment period has passed. (DEDUCED, log entry 110) -/
def State.realignDue (s : State) (c : Nat) : State :=
  let per := s.get (ttvPage c) F.TTV_REALIGN_CTRL_PERIOD
  let at0 := (find s.hall.realignAt c).getD 0
  if per = 0 ∨ s.ticks < at0 + per then s
  else (s.modHall fun h => { h with realignAt := put h.realignAt c s.ticks }).realign c

/-! ### LINK_k, TTV_ATTR and TTV_CMD (R473, R479, R501) -/

/-- A LINK_k word may be written (R473): checked when it enables, changes or disables an enabled link. (DEDUCED, log entry 107) -/
def State.linkLegal (s : State) (c k : Nat) (w : Word) : Bool :=
  let ok (a b : Nat) (self : Bool) : Bool :=
    match s.physOf c a, s.physOf c b with
    | some p, some q =>
      p != q && !(s.tally p).lock && !(s.tally q).lock &&
      (self || ((s.partner p).isNone && (s.partner q).isNone)) &&
      !(s.hall.waiters.any fun x => x.phys == p || x.phys == q)
    | _, _ => false
  let old := s.rd (ttvPage c) (0x140 + 4 * k)
  if old.getLsbD 13 then
    ok (wbits old 0 13) (wbits old 16 13) true &&
    (!w.getLsbD 13 || (wbits w 0 13 == wbits old 0 13 && wbits w 16 13 == wbits old 16 13))
  else !w.getLsbD 13 || ok (wbits w 0 13) (wbits w 16 13) false

/-- A configuration write to mirrored state: applied here and sent, or only sent to the sequencer; ignored while
FENCED (R602, R619). (DEDUCED, log entry 122) -/
def State.mirConfigTo (s : State) (dpa : Nat) (v : Word) (fin : MirDone) (apply : State → State) : Bool × State :=
  let body : MirBody := { mkind := mkCONFIG, addr := dpa, slots := leBytes 16 v.toNat }
  if s.twinState = twFENCED then (false, s)
  else if s.forwards then (true, s.mirForward {} body fin)
  else (apply s).mirApply {} body s.dieNo 0 0 fin
def State.mirConfig (s : State) (dpa : Nat) (v : Word) (apply : State → State) : State := (s.mirConfigTo dpa v .nobody apply).2

def State.linkSet (s : State) (c k : Nat) (w : Word) : State :=
  if s.linkLegal c k w then s.wr (ttvPage c) (0x140 + 4 * k) (w &&& 0x1FFF3FFF#32)
  else s.set (ttvPage c) F.TTV_TTV_STATUS_LINK_REJECT 1

/-- The tally that a port has selected on a TTV page, by physical number. -/
def State.ttvSel (s : State) (port : Port) (c : Nat) : Option Nat :=
  s.physOf c (wbits (s.portRd port (ttvPage c) 0x108) 0 13)

/-- LOCK set or cleared on a physical tally (R479). -/
def State.lockSet (s : State) (c p : Nat) (on : Bool) : State :=
  if (s.partner p).isSome then s.set (ttvPage c) F.TTV_TTV_STATUS_ATTR_REJECT 1
  else
    let s := s.setTally p { s.tally p with lock := on }
    if on then s else ((s.modHall fun h => { h with holders := h.holders.filter (·.phys ≠ p) }).evalTally p).hallSettle

/-- TTV_CMD.CLEAR_SAT for the tally that a port has selected (R458). -/
def State.clearSat (s : State) (port : Port) (c : Nat) : State :=
  match s.ttvSel port c with
  | none => s
  | some p => s.setTally p { s.tally p with sat := false }

/-! ### The context clear of the hall (R499) -/

def State.hallClear (s : State) (c : Nat) : State :=
  let lo := s.tallyBase c
  let hi := lo + s.tallyCount c
  let own (p : Nat) : Bool := decide (lo ≤ p ∧ p < hi)
  let s := s.cancelWaits (fun r => r.ctx == c) (some .retired)
  let s := foldS (fun h s => s.orphanHere h) (s.hall.holders.filter fun h => h.ctx == c && !own h.phys) s
  let guests := s.hall.waiters.filter fun w => own w.phys
  let s := s.modHall fun h => { h with waiters := h.waiters.filter fun w => !own w.phys, holders := h.holders.filter fun x => !own x.phys
                                       tallies := h.tallies.filter fun e => !own e.1, realignAt := del h.realignAt c }
  let s := foldS (fun w s => s.tallyAnswer w.req w.phys ⟨6, 0, 0, false, false⟩) guests s
  (s.clearPage (ttvPage c) fun off => off < 0x100 || off == 0x180).hallSettle

end Sys2Proof.Machine
end

