-- ==== Sys2Proof/Machine/Descr.lean ====
section
/-! DEFINITION. A stream descriptor as data (chapter 8): its fields (Table 8-1), the acceptance checks (Table 8-2), its
shape, element addresses, and the value of each element. A descriptor is its 128 bytes as one little-endian number. -/

namespace Sys2Proof.Machine

/-- A field of a descriptor: `w` bits from bit `lo` of the byte at `off`. -/
def dF (d off lo w : Nat) : Nat := bits d (8 * off + lo) w

def dOp (d : Nat) : Nat := dF d 0 0 4
def dSc (d : Nat) : Nat := dF d 0 4 3
def dQuick (d : Nat) : Bool := dF d 0 7 1 == 1
def dSrcFmt (d : Nat) : Nat := dF d 1 0 4
def dDstFmt (d : Nat) : Nat := dF d 1 4 4
def dRnd (d : Nat) : Nat := dF d 2 0 2
def dSat (d : Nat) : Bool := dF d 2 2 1 == 1
def dDropEn (d : Nat) : Bool := dF d 2 3 1 == 1
def dTileDims (d : Nat) : Nat := dF d 2 4 3
def dFlow (d : Nat) : Bool := dF d 2 7 1 == 1
def dRotate (d : Nat) : Bool := dF d 3 1 1 == 1
def dFill (d : Nat) : Nat := dF d 3 2 2
def dSrcPort (d : Nat) : Bool := dF d 3 4 1 == 1
def dDstPort (d : Nat) : Bool := dF d 3 5 1 == 1
def dSrcMod (d : Nat) : Nat := dF d 4 0 4
def dDstMod (d : Nat) : Nat := dF d 4 4 4
def dScale (d : Nat) : Int := toSigned 8 (dF d 5 0 8)
def dSrcAddr (d : Nat) : Nat := dF d 6 0 48
def dDstAddr (d : Nat) : Nat := dF d 0x0C 0 48
def dStream (d : Nat) : Nat := dF d 0x12 0 32
def dPosBase (d : Nat) : Nat := dF d 0x16 0 64
def dParamA (d : Nat) : Nat := dF d 0x1E 0 32
def dParamB (d : Nat) : Nat := dF d 0x22 0 32
def dDropP (d : Nat) : Nat := dF d 0x1E 0 16
def dWaitTally (d : Nat) : Nat := dF d 0x26 0 13
def dWaitMode (d : Nat) : Nat := dF d 0x26 13 2
def dWaitN (d : Nat) : Nat := dF d 0x26 16 16
def dWaitTimeout (d : Nat) : Nat := dF d 0x26 32 16
def dTileTally (d : Nat) : Nat := dF d 0x2C 0 13
def dTileEn (d : Nat) : Bool := dF d 0x2C 13 1 == 1
def dTileN (d : Nat) : Nat := dF d 0x2C 16 16
def dDoneTally (d : Nat) : Nat := dF d 0x30 0 13
def dDoneEn (d : Nat) : Bool := dF d 0x30 13 1 == 1
def dDoneN (d : Nat) : Nat := dF d 0x30 16 16
/-- C_d and the strides of dimension k (R324). -/
def dCount (d k : Nat) : Nat := dF d 0x35 (20 * k) 20 + 1
def dSrcStride (d k : Nat) : Int := toSigned 40 (dF d (0x44 + 5 * k) 0 40)
def dDstStride (d k : Nat) : Int := toSigned 40 (dF d (0x62 + 5 * k) 0 40)

def dIsFill (d : Nat) : Bool := dOp d == 2
def dSrc (d : Nat) : Fmt := (Fmt.ofCode (dSrcFmt d)).getD .raw8
def dDst (d : Nat) : Fmt := (Fmt.ofCode (dDstFmt d)).getD .raw8
def dRound (d : Nat) : Rnd := (Rnd.ofCode (dRnd d)).getD .rne

/-! ### Shape (R324 to R328) -/

def dims : List Nat := [0, 1, 2, 3, 4, 5]

/-- Elements in all, and elements of a tile. -/
def dTotal (d : Nat) : Nat := (dims.map (dCount d)).prod
def dTile (d : Nat) : Nat := ((dims.take (dTileDims d)).map (dCount d)).prod
def dTiles (d : Nat) : Nat := dTotal d / dTile d

/-- The indices of ordinal n, from a dimension on. -/
def dIdxFrom (d : Nat) : List Nat → Nat → List Nat
  | [], _ => []
  | k :: ks, n => n % dCount d k :: dIdxFrom d ks (n / dCount d k)
def dIdx (d n : Nat) : List Nat := dIdxFrom d dims n

/-- The byte address of an element at a side, exact (R324 to R326): an INT4 side packs dimension 0. -/
def sideAddr (base : Nat) (f : Fmt) (stride : Nat → Int) (idx : List Nat) : Int :=
  let at' (k : Nat) : Int := (idx.getD k 0 : Nat)
  (base : Int) + (if f == .int4 then ((idx.getD 0 0 / 2 : Nat) : Int) else at' 0 * stride 0) +
    at' 1 * stride 1 + at' 2 * stride 2 + at' 3 * stride 3 + at' 4 * stride 4 + at' 5 * stride 5

def dSrcAt (d n : Nat) : Nat := (sideAddr (dSrcAddr d) (dSrc d) (dSrcStride d) (dIdx d n)).toNat
def dDstAt (d n : Nat) : Nat := (sideAddr (dDstAddr d) (dDst d) (dDstStride d) (dIdx d n)).toNat

/-- Elements that share a byte of an INT4 side are staged and written together. -/
def dUnit (d : Nat) : Nat := if dDst d == .int4 || (!dIsFill d && dSrc d == .int4) then 2 else 1

/-! ### Acceptance (R323, Table 8-2) -/

/-- The extent check of a side (R325). (DEDUCED, log entry 86) -/
def extentOk (d base : Nat) (f : Fmt) (stride : Nat → Int) : Bool :=
  let term (k : Nat) : Int := ((dCount d k - 1 : Nat) : Int) * stride k
  let lo : Int := dims.foldl (fun a k => a + min 0 (term k)) base
  let hi : Int := dims.foldl (fun a k => a + max 0 (term k)) base
  let run : Int := if f == .int4 then ((dCount d 0 / 2 : Nat) : Int) - 1 else (f.bytes : Int) - 1
  decide (0 ≤ lo ∧ hi + run < 2 ^ 48)

/-- Natural alignment of a MEM side (R330). -/
def alignedOk (base : Nat) (f : Fmt) (stride : Nat → Int) : Bool :=
  base % f.bytes == 0 && dims.all fun k => stride k % (f.bytes : Int) == 0

def finite32 (x : Nat) : Bool := bits x 23 8 != 255

/-- The check of one code: `tallies` is the context's tally count. -/
def dBroken (d tallies code : Nat) : Bool :=
  let f := dIsFill d
  match code with
  | 1 => !((dOp d == 1 || f) && dRnd d != 3 && dWaitMode d != 3 && (f || dFill d == 0) &&
      decide (1 ≤ dTileDims d ∧ dTileDims d ≤ 6))
  | 2 => dF d 3 6 2 != 0 || dF d 0x26 15 1 != 0 || dF d 0x2C 14 2 != 0 || dF d 0x30 14 2 != 0 || dF d 0x34 0 8 != 0 ||
      (if f then dSrcFmt d != 0 else dF d 0x20 0 16 != 0)
  | 3 => decide (9 < dSrcFmt d ∨ 9 < dDstFmt d) || (!f && (dSrcFmt d == 0) != (dDstFmt d == 0))
  | 4 => !dRotate d &&
      ((!f && !dSrcPort d && !alignedOk (dSrcAddr d) (dSrc d) (dSrcStride d)) ||
       (!dDstPort d && !alignedOk (dDstAddr d) (dDst d) (dDstStride d)))
  | 5 =>
      let bad (fm : Fmt) (st : Int) : Bool := fm == .int4 && (st != 0 || dCount d 0 % 2 == 1)
      (!f && bad (dSrc d) (dSrcStride d 0)) || bad (dDst d) (dDstStride d 0)
  | 6 => (!f && !extentOk d (dSrcAddr d) (dSrc d) (dSrcStride d)) || !extentOk d (dDstAddr d) (dDst d) (dDstStride d)
  | 7 =>
      let bad (on : Bool) (v n : Nat) : Bool := on && (decide (tallies ≤ v) || n == 0)
      bad (dWaitMode d != 0) (dWaitTally d) (dWaitN d) || bad (dTileEn d) (dTileTally d) (dTileN d) ||
      bad (dDoneEn d) (dDoneTally d) (dDoneN d)
  | 8 => (dSrcPort d && dDstPort d) ||
      (f && (dSrcPort d || dSrcMod d != 0 || dSrcAddr d != 0 || dims.any (fun k => dSrcStride d k != 0) || dDropEn d))
  | 9 =>
      let raw := dDstFmt d == 0 || (!f && dSrcFmt d == 0)
      (!f && (bits (dParamB d) 31 1 == 1 || !finite32 (dParamB d))) ||
      (f && dScale d != 0) ||
      (f && dFill d == 0 && (dParamB d != 0 || dRnd d != 0 || dSat d)) ||
      (f && dFill d != 0 && !(finite32 (dParamA d) && finite32 (dParamB d))) ||
      (raw && (dScale d != 0 || dRnd d != 0))
  | _ => false

/-- The code of the first rule that a descriptor breaks, if any. (DEDUCED, log entry 85) -/
def dCheck (d tallies : Nat) : Option Nat := [1, 2, 3, 4, 5, 6, 7, 8, 9].find? (dBroken d tallies)

/-! ### Element values (R334 to R343) -/

/-- The position of ordinal n (R327). -/
def dPos (d n : Nat) : Nat := (dPosBase d + n) % 2 ^ 64

/-- The element takes the identity path (R334). -/
def dIdentity (d : Nat) : Bool :=
  dSrcFmt d == dDstFmt d && (dDstFmt d == 0 || (dScale d == 0 && !(dDropEn d && dParamB d != 0)))

/-- The element is dropped (R341). -/
def dDropped (d key n : Nat) : Bool :=
  dDropEn d && decide (drawWord key (dStream d) 2 (dPos d n) (dQuick d) < dDropP d * 2 ^ 16)

/-- The uniform of STOCH at an element (R339). -/
def dStoch (d key n : Nat) : Nat := if dRnd d = 2 then drawWord key (dStream d) 1 (dPos d n) (dQuick d) else 0

/-- A converted element of a COPY from its source bits; dropped and identity elements count nothing (R794). -/
def dCopyElem (d key n src : Nat) : Enc :=
  if dDropped d key n then { val := 0 }
  else if dIdentity d then { val := src }
  else
    let v := ((dSrc d).decode src).scale (dScale d)
    let v := if dDropEn d && dParamB d != 0 then v.mul (Fmt.fp32.decode (dParamB d)) else v
    (dDst d).encode (dRound d) (dSat d) (dSrc d).isInt (dStoch d key n) v

/-- The variate or uniform of a fill, exact (R343, R512 to R514). -/
def dFillValue (d key n : Nat) : FVal :=
  let p := dPos d n
  let a := Fmt.fp32.decode (dParamA d)
  let b := Fmt.fp32.decode (dParamB d)
  match dFill d with
  | 1 => a.add ((b.mul (.fin false (drawWord key (dStream d) 3 p (dQuick d)) (-32))))
  | 2 =>
    let blk := mixBlock key (dStream d) 3 (p / 2) (dQuick d)
    a.add (b.mul (Fmt.fp32.decode (normalT (blk.getD (2 * (p % 2)) 0) (blk.getD (2 * (p % 2) + 1) 0))))
  | _ => a.add (b.mul (Fmt.fp32.decode (normalTbl (drawWord key (dStream d) 3 p (dQuick d)))))

/-- An element of a FILL (R343). A RAW8 destination of a random fill has no stated value. -/
def dFillElem (d key n : Nat) : Enc :=
  if dFill d = 0 then { val := dParamA d % 2 ^ (dDst d).width }
  else if dDstFmt d = 0 then { val := Config.rawFill d (dPos d n) % 256 }
  else (dDst d).encode (dRound d) (dSat d) false (dStoch d key n) (dFillValue d key n)

/-- The descriptor draws on mixers (R362). -/
def dDraws (d : Nat) : Bool :=
  dDropEn d || (dIsFill d && dFill d != 0) || (dRnd d == 2 && !(!dIsFill d && dIdentity d))

/-- Each byte of ordinal n's element at the source or the destination: its addresses. -/
def bytesFrom (a n : Nat) : List Nat := (List.range n).map (a + ·)
def dSrcBytes (d n : Nat) : List Nat := bytesFrom (dSrcAt d n) (dSrc d).bytes
def dDstBytes (d n : Nat) : List Nat := bytesFrom (dDstAt d n) (dDst d).bytes

/-- The lines that ascending byte addresses of one element touch, each once. -/
def linesTouched (as : List Nat) : List Nat :=
  match as.head?, as.getLast? with
  | some a, some b => if a / 64 = b / 64 then [alignDown a 64] else [alignDown a 64, alignDown b 64]
  | _, _ => []

end Sys2Proof.Machine
end

