-- ==== Sys2Proof/Machine/Engine.lean ====
section
/-! DEFINITION. The stream engines (chapter 9): acceptance, the descriptor read, fetch and staging, conversion and the
destination writes, tally links, STOP and FLOW faults, resume, abort and the end of a descriptor. -/

namespace Sys2Proof.Machine

def engPage (e : Nat) : Page := ⟨.ENG, e⟩
def qPage (q : Nat) : Page := engPage (q / 8)

def State.queue (s : State) (q : Nat) : Queue := (find s.queues q).getD {}
def State.setQueue (s : State) (q : Nat) (x : Queue) : State := { s with queues := put s.queues q x }
def State.modQueue (s : State) (q : Nat) (f : Queue → Queue) : State := s.setQueue q (f (s.queue q))

/-- The state with one descriptor of a queue changed. -/
def State.modDesc (s : State) (q num : Nat) (f : Desc → Desc) : State :=
  s.modQueue q fun x => { x with descs := x.descs.map fun d => if d.num == num then f d else d }
def State.desc? (s : State) (q num : Nat) : Option Desc := (s.queue q).descs.find? (·.num == num)

def State.qCtx (s : State) (q : Nat) : Nat := s.get (qPage q) (F.ENG_QUEUE_CFG_CTX.at (q % 8))
def State.qBlocks (s : State) (q : Nat) : Nat := s.get (qPage q) (F.ENG_QUEUE_CFG_STAGE_BLOCKS.at (q % 8)) + 1

/-! ### Acceptance and slots (R364 to R367) -/

/-- The queue serves a context: enabled and bound to it (R365). -/
def State.queueServes (s : State) (q c : Nat) : Bool :=
  s.flag (qPage q) (F.ENG_QUEUE_CFG_EN.at (q % 8)) && s.qCtx q == c
/-- The queue holds fewer than DESC_LIMIT descriptors. -/
def State.queueRoom (s : State) (q : Nat) : Bool :=
  decide ((s.queue q).descs.length ≤ s.get (qPage q) (F.ENG_QUEUE_LIM_DESC_LIMIT.at (q % 8)))

/-- A descriptor reaches its queue. -/
def State.acceptDesc (s : State) (q tva sc ring cmd : Nat) : State :=
  s.modQueue q fun x => { x with descs := x.descs ++ [{ num := x.next, tva := tva, sc := sc, ring := ring, cmd := cmd }], next := x.next + 1 }

def Desc.active (d : Desc) : Bool := d.stage != .queued
/-- No queue of an engine holds a descriptor. -/
def State.engIdle (s : State) (e : Nat) : Bool := (List.range 8).all fun i => (s.queue (8 * e + i)).descs.isEmpty
/-- Active slots of an engine in use. -/
def State.slotsUsed (s : State) (e : Nat) : List Nat :=
  (List.range 8).flatMap fun i => ((s.queue (8 * e + i)).descs.filter (·.active)).map (·.slot)

/-- The fetch unit has handed off the last token (R366); a FILL has none. -/
def Desc.fetched (d : Desc) : Bool :=
  d.stage == .running && decide (dTotal d.word ≤ d.fetch) && d.tokens.all (·.handed)

/-- The queue's next descriptor may become active (R366). -/
def State.mayActivate (s : State) (q : Nat) : Bool :=
  let ds := (s.queue q).descs
  let act := ds.filter (·.active)
  (ds.any fun d => !d.active && d.ending.isNone) && (s.queue q).rr.isNone &&
  (if s.flag (qPage q) (F.ENG_QUEUE_CFG_SERIAL.at (q % 8)) then act.isEmpty
   else decide (act.length < 2) && act.all fun d => d.fetched || d.ending.isSome)

/-- Messages of a queue that wait to leave a module: its outstanding line requests (R374). -/
def TxKind.ofQueue : TxKind → Nat → Bool
  | .swr q _ _, k => q == k
  | .srd _ q, k => q == k
  | _, _ => false
def State.qLines (s : State) (q : Nat) : Nat :=
  ((List.range 16).map fun m => ((s.link m).tx.filter fun t => t.kind.ofQueue q).length).sum
def State.engLines (s : State) (e : Nat) : Nat := ((List.range 8).map fun i => s.qLines (8 * e + i)).sum
/-- The queue may present another line request (R374, R396). -/
def State.canIssue (s : State) (q : Nat) : Bool :=
  decide (s.qLines q ≤ s.get (qPage q) (F.ENG_QUEUE_LIM_LINE_LIMIT.at (q % 8)) ∧ s.engLines (q / 8) < 256)

/-! ### Ending -/

/-- Withdraw the queue's messages of one descriptor that have not left a module (R382). -/
def State.withdraw (s : State) (q num : Nat) : State :=
  let srds (l : Link) : List Nat := (l.srds.filter fun r => r.queue == q && r.desc == num).map (·.tag)
  let drop (l : Link) (t : TxMsg) : Bool := match t.kind with
    | .swr k d _ => k == q && d == num
    | .srd tag k => k == q && (srds l).contains tag
    | _ => false
  let gone := (((List.range 16).map fun m => ((s.link m).tx.filter fun t => match t.kind with
    | .swr k d _ => k == q && d == num
    | _ => false).length).sum)
  let s := foldS (fun m s =>
    let l := s.link m
    let tags := l.tx.filterMap fun t => match t.kind with
      | .srd tag k => if k == q && (srds l).contains tag then some tag else none
      | _ => none
    if l.tx.any (drop l) then
      (s.setLink m { l with tx := l.tx.filter (fun t => !drop l t), srds := l.srds.filter fun r => !tags.contains r.tag }).updStall m
    else s) (List.range 16) s
  (s.modDesc q num fun d =>
    { d with outs := d.outs.take (d.outs.length - gone)
             conv := ((d.outs.drop (d.outs.length - gone)).head?.map (·.1)).elim d.conv (min d.conv) }).dropWalked (q / 16)
    fun w => match w with
      | .queue k n _ => k == q && n == num
      | _ => false

/-- A descriptor's end is decided (Table 8-6); its requests that are not granted are withdrawn, its wait is cancelled,
and an ABORTED one orphans what its queue holds (R382, R476). -/
def State.endDesc (s : State) (q num st code : Nat) : State :=
  match s.desc? q num with
  | none => s
  | some d =>
    if d.ending.isSome then s
    else
      let s := s.modDesc q num fun d => { d with ending := some (st, code), tokens := [], work := [], fault := none, waiting := false, due := none }
      let s := s.withdraw q num
      let s := s.modQueue q fun x => { x with rr := match x.rr with
        | some r => if r.num == num then none else some r
        | none => none }
      let s := if d.waiting then s.cancelWaits (fun r => r.who == .queue q && (r.top == 2 || r.top == 3) && r.tag == num) none else s
      if st = 9 then s.orphanAll fun h => h.who == .queue q else s

/-- Leading elements known to be complete (R347, R384). -/
def Desc.complete (d : Desc) : Nat :=
  match d.outs with
  | [] => d.conv
  | o :: _ => min o.1 d.conv

/-! ### Activation and the descriptor read (R322, R323, R340, R367) -/

/-- A free slot of an engine, and the descriptor of a queue that may take it (R366, R367). -/
def State.nextActive (s : State) (q : Nat) : Option (Nat × Desc) :=
  if !s.running (qPage q) || !s.mayActivate q || !s.canIssue q then none
  else
    let used := s.slotsUsed (q / 8)
    match (List.range 4).find? (fun k => !used.contains k), (s.queue q).descs.find? (fun d => !d.active && d.ending.isNone) with
    | some k, some d => some (k, d)
    | _, _ => none

/-- The queues of an engine that wait for the grant of a descriptor read, each in its descriptor's class (R793). -/
def State.issueReqs (s : State) (e : Nat) : List Req :=
  (List.range 8).filterMap fun i => (s.nextActive (8 * e + i)).map fun x => ⟨i, x.2.sc, 0⟩

/-- A queue's next descriptor becomes active by the grant of engine issue (R793). The activation is the ENG page's decision boundary: a pending commit is live
in it (R396). (DESIGN CHOICE, log entry 169) -/
def State.activate (s : State) (q : Nat) : State :=
  let e := q / 8
  match s.nextActive q with
  | none => if s.running (engPage e) && s.mayActivate q && !s.canIssue q then s.count (engPage e) F.ENG_ISSUE_HELD else s
  | some (k, d) =>
    let x := s.grantTo (0x7000 + e) (q % 8) (s.issueReqs e)
    if x.1 then (x.2.commitNow (engPage e)).modDesc q d.num fun d => { d with stage := .reading, slot := k } else x.2

/-- The tally operation of a descriptor of a queue. -/
def State.qTally (s : State) (q num sc top virt n timeout : Nat) : State :=
  s.tallyOp ⟨.queue q, s.qCtx q, top, virt, n, timeout, sc, 0, num⟩

/-- The urgency stamp of a stream's line requests: the level of the module that is its source or destination (R191). -/
def State.descUrg (s : State) (w : Nat) : Nat :=
  if dDstPort w then s.urgOf (dDstMod w) else if !dIsFill w && dSrcPort w then s.urgOf (dSrcMod w) else 0
/-- The requester of a stream's line requests. -/
def State.qAcc (s : State) (q w : Nat) : Acc := ⟨q / 16, dSc w, s.qCtx q, s.descUrg w⟩
/-- The pace limiter does not hold the lines of a stream to or from a module whose traffic in that direction is below its
PACE value in force (R206). -/
def State.descExempt (s : State) (w : Nat) : Bool :=
  if dDstPort w then s.belowPace (dDstMod w) false else !dIsFill w && dSrcPort w && s.belowPace (dSrcMod w) true

/-- WAIT_TIMEOUT as a wait's timeout code (Table 8-7): 0xFFFF is none. -/
def linkTimeout (d : Nat) : Nat := if dWaitTimeout d = 0xFFFF then 0xFFFFFFFF else dWaitTimeout d

/-- The descriptor's 128 bytes are here: the checks, the key, and the wait of WAIT_GE (R323, R340, R344). (DEDUCED, log entry 84) -/
def State.startDesc (s : State) (q num word : Nat) (corr : Bool) : State :=
  let c := s.qCtx q
  match dCheck word (s.tallyCount c) with
  | some code => s.endDesc q num 10 code
  | none =>
    let tmk : Page := ⟨.TMK, c⟩
    let key := s.get tmk F.TMK_KEY_LO_K0 + s.get tmk F.TMK_KEY_HI_K1 * 2 ^ 32
    let s := s.modDesc q num fun d => { d with stage := .running, word := word, key := key, corrected := corr, missF := none
                                               fetch := if dIsFill word then dTotal word else 0 }
    if dWaitMode word = 1 then
      (s.modDesc q num fun d => { d with waiting := true }).qTally q num (dSc word) 2 (dWaitTally word) (dWaitN word) (linkTimeout word)
    else s

/-- The body of a stream's fault record (Table 18-6). -/
def streamBody (q desc tva idx : Nat) : Nat := q + desc % 2 ^ 48 * 2 ^ 64 + tva % 2 ^ 48 * 2 ^ 128 + idx % 2 ^ 120 * 2 ^ 192
def packIdx (d n : Nat) : Nat := ((dims.zip (dIdx d n)).map fun x => x.2 * 2 ^ (20 * x.1)).sum

/-- What a TVA translates to without effect: `over` is the result of a walk that has just ended on a page. -/
def State.peekX (s : State) (g ctx tva : Nat) (need : Need) (ovr : Option (Nat × XFault)) : Option (Except XFault Nat) :=
  match (s.xl g).find ctx tva with
  | some l => match l.denies need with
    | some f => some (.error f)
    | none => some (.ok (l.dpa tva))
  | none => match ovr with
    | some (pg, f) => if tva / 2 ^ 16 = pg then some (.error f) else none
    | none => none

/-- A line's class as read, and its bytes; an address that serves nothing reads as poison (R39, R369). -/
structure SrcLine where
  bytes : List Byte
  poison : Nat
  corr : Bool
  err : Bool
  deriving DecidableEq, Repr

/-- The target at a DPA, if it or a queue on the way holds an access now. -/
def State.lineHeld (s : State) (dpa : Nat) (a : Acc) (exempt : Bool := false) : Option Tgt :=
  match s.target dpa with
  | .error _ => none
  | .ok t => if s.tgtFree t a exempt then none else some t

/-- The read of a line at a DPA for gallery `dst`. -/
def State.lineGo (s : State) (dpa : Nat) (a : Acc) (key n dst : Nat) : SrcLine × State :=
  match s.target dpa with
  | .error x => (⟨List.replicate 64 0, 255, false, true⟩, s.flagTarget dpa x)
  | .ok t =>
    let r := (s.tgtGo t a key dpa).tgtReadTo t a n dst
    (⟨r.1.bytes, r.1.poisonMask, (List.range 8).any r.1.corr, false⟩, r.2)

/-- Read a line at a DPA for gallery `dst`; none while its target or a queue on the way holds the access. -/
def State.readLine (s : State) (dpa : Nat) (a : Acc) (key n dst : Nat) (exempt : Bool := false) : Option SrcLine × State :=
  match s.lineHeld dpa a exempt with
  | some t => (none, s.tgtHold t a key dpa exempt)
  | none =>
    let r := s.lineGo dpa a key n dst
    (some r.1, r.2)

/-- The read of a descriptor (R322): its two lines lie in one page, and both are admitted as the row begins.
(DESIGN CHOICE, log entry 10) -/
def State.readDesc (s : State) (q : Nat) (d : Desc) (ovr : Option (Nat × XFault)) : State :=
  let g := q / 16
  let c := s.qCtx q
  if d.tva % 128 ≠ 0 then s.endDesc q d.num 10 0x0A
  else match s.peekX g c d.tva .rd ovr with
  | none => (s.lookupFor g c d.tva d.sc 0 (.queue q d.num false)).2.modDesc q d.num fun d => { d with missF := some (d.tva / 2 ^ 16) }
  | some (.error f) =>
    ((s.countFault g).faultRec c 2 false f.kind f.level 4 (streamBody q d.tva d.tva 0)).endDesc q d.num 10 0x0A
  | some (.ok dpa) =>
    let who : Acc := ⟨g, d.sc, c, 0⟩
    match s.lineHeld dpa who, s.lineHeld (dpa + 64) who with
    | some t, _ => s.tgtHold t who q dpa
    | none, some t => s.tgtHold t who q (dpa + 64)
    | none, none =>
      let a := (s.lookupFor g c d.tva d.sc 0 (.queue q d.num false)).2.lineGo dpa who q 64 g
      let b := a.2.lineGo (dpa + 64) who q 64 g
      let s := b.2.countW (qPage q) F.ENG_LINES_IN 2
      if a.1.poison ≠ 0 ∨ b.1.poison ≠ 0 then s.endDesc q d.num 10 0x0A
      else s.startDesc q d.num (leNat (a.1.bytes ++ b.1.bytes)) (a.1.corr || b.1.corr)

/-- (DEDUCED, log entry 94) -/
def State.descRead (s : State) (q : Nat) (ovr : Option (Nat × XFault)) : State :=
  match (s.queue q).descs.find? (fun d => d.stage == .reading && d.ending.isNone) with
  | some d => s.readDesc q d ovr
  | none => s

/-! ### STOP faults (R378 to R381, R392) -/

/-- Note a STOP fault: the lowest ordinal is kept, a source fault before a destination fault (R392). -/
def Desc.noteStop (d : Desc) (f : StopAt) : Desc :=
  match d.fault with
  | none => { d with fault := some f }
  | some g => if f.n < g.n ∨ (f.n = g.n ∧ !f.write) then { d with fault := some f } else d

/-- The queue stops at the faulting element once every earlier one is complete and posted (R379). -/
def State.stopDesc (s : State) (q : Nat) (d : Desc) (f : StopAt) : State :=
  let w := d.word
  let rec' : ResumeRec :=
    { num := d.num, desc := d.tva, write := f.write, taken := dWaitMode w == 2 && decide (f.n / dTile w + 1 < d.takes), kind := f.kind
      flags := b2n d.corrected + 2 * b2n d.poisoned + 4 * b2n d.sat, tva := f.tva, idx := dIdx w f.n, part := f.n % dTile w }
  let s := if d.waiting then s.cancelWaits (fun r => r.who == .queue q && r.top == dWaitMode w + 1 && r.tag == d.num) none else s
  let s := s.modQueue q fun x => { x with rr := some rec' }
  let s := s.modDesc q d.num fun d => { d with tokens := [], work := [], workEnd := f.n, fetch := if dIsFill w then d.fetch else f.n, sent := 0, waiting := false, fault := none }
  let s := s.faultRec (s.qCtx q) 2 f.write f.kind f.level 4 (streamBody q d.tva f.tva (packIdx w f.n))
  s.raise (qPage q) Err.ENG_FAULT_STOP (detQueue q (s.qCtx q) 4 0 f.tva)

/-- Stop the descriptors whose fault is due; while the queue is FAULTED another one keeps its place. -/
def State.tryStop (s : State) (q : Nat) : State :=
  foldS (fun d s => match d.fault with
    | some f =>
      let tiles := f.n / dTile d.word
      if f.n ≤ d.conv ∧ d.sent = 0 ∧ d.outs.isEmpty ∧ (!dTileEn d.word ∨ (d.posted = tiles ∧ !d.posting)) ∧ d.ending.isNone ∧ (s.queue q).rr.isNone then
        s.stopDesc q d f
      else s
    | none => s) (s.queue q).descs s

/-- A fault of one line request in FLOW mode: its record, its counts (R383). (DEDUCED, log entry 90) -/
def State.flowFault (s : State) (q : Nat) (d : Desc) (n tva : Nat) (write : Bool) (f : XFault) : State :=
  let c := s.qCtx q
  let s := (s.countFault (q / 16)).faultRec c 3 write f.kind f.level 4 (streamBody q d.tva tva (packIdx d.word n))
  let s := (s.count (qPage q) F.ENG_FAULTS).raise (qPage q) Err.ENG_FAULT_FLOW (detQueue q c 4 0 tva) true
  s.modDesc q d.num fun d => { d with faulted := true }

/-! ### The fetch unit (R368 to R371) -/

/-- Enter one source line of the unit that starts at ordinal n; `a` and `b` bound the bytes used in it. -/
def addLine (n last line a b : Nat) : List StLine → List StLine
  | [] => [{ line := line, lo := a, hi := b, first := n, last := last }]
  | x :: xs =>
    if x.line = line ∧ n ≤ x.last + 1 then { x with lo := min x.lo a, hi := max x.hi b, last := last } :: xs
    else x :: addLine n last line a b xs

/-- The staged lines with those that one unit of elements needs. -/
def addUnit (d n u : Nat) (ls : List StLine) : List StLine :=
  (List.range u).foldl (fun ls k =>
    let as := dSrcBytes d (n + k)
    (linesTouched as).foldl (fun ls l =>
      let off := (as.filter fun a => alignDown a 64 == l).map (· % 64)
      addLine n (n + u - 1) l (off.headD 0) (off.getLastD 0 + 1) ls) ls) ls

/-- Grow a token by units from ordinal n while its block has room (R370); returns the lines and the next ordinal. -/
def growToken (d u stop : Nat) : Nat → Nat → List StLine → List StLine × Nat
  | 0, n, ls => (ls, n)
  | fuel + 1, n, ls =>
    if stop ≤ n then (ls, n)
    else
      let k := u - n % u
      let ls' := addUnit d n k ls
      if 64 < ls'.length then (ls, n) else growToken d u stop fuel (n + k) ls'

/-- The lowest ordinal of `[n, last]` whose source touches a line. -/
def firstUser (d line : Nat) : Nat → Nat → Nat
  | 0, n => n
  | fuel + 1, n => if (linesTouched (dSrcBytes d n)).contains line then n else firstUser d line fuel (n + 1)

/-- The DPA of staging line i of a block (R368). -/
def State.stageDpa (s : State) (q block i : Nat) : Nat :=
  s.get (qPage q) (F.ENG_QUEUE_STAGE_BASE.at (q % 8)) * 2 ^ 12 + block * 4096 + i * 64

/-- The gallery of the staging line i of a block. -/
def State.stageGal (s : State) (q block i : Nat) : Nat := (s.locate (s.stageDpa q block i)).1 / 64

/-- Write a staging line, which came straight to its bank: its bytes, the granules that hold poison (R369). -/
def State.stageWrite (s : State) (q block i w : Nat) (bytes : List Byte) (pois : Nat) : State :=
  let x := s.locate (s.stageDpa q block i)
  let a := s.qAcc q w
  let s := (s.granted (x.1 / 64) 0 a.cls 64).countW (gswPage (x.1 / 64)) (if a.src = x.1 / 64 then F.GSW_LINES_LOCAL else F.GSW_LINES_REMOTE)
  ((s.bankWrite x.1 x.2 (2 ^ 64 - 1) bytes pois).2).countW (qPage q) F.ENG_LINES_STAGED

def Desc.setLine (d : Desc) (tok i : Nat) (f : StLine → StLine) : Desc :=
  { d with tokens := d.tokens.map fun t => if t.id == tok then { t with lines := modAt f i t.lines } else t }

/-- A token ends before ordinal n, whose line i faulted: lines stand in the order of first use, so the lines before it
serve every earlier element, and the others are dropped (R379). -/
def Desc.cutToken (d : Desc) (tok n i : Nat) : Desc :=
  let cut (t : Token) : Token := if t.id == tok then { t with last := n, lines := t.lines.take i } else t
  { d with tokens := (d.tokens.map cut).filter fun t => decide (t.first < t.last), fetch := n }

/-- The staging of a token goes on, or stops here for now. -/
inductive Go where
  | on | stop
  deriving DecidableEq, Repr

/-- A line that an access touches is one whose target gives ERROR (R39, R89). -/
def State.badLine (s : State) (g c a : Nat) (need : Need) : Bool :=
  match s.peekX g c a need none with
  | some (.ok dpa) => match s.target dpa with
    | .error _ => true
    | .ok _ => false
  | _ => false

/-- An element whose bytes touch a good line and one that gives ERROR touches neither (R143). -/
def State.crossBad (s : State) (g c : Nat) (need : Need) (line : Nat) (lines : List Nat) : Bool :=
  lines.contains line && lines.any fun l => l != line && s.badLine g c l need

/-- Line i of a token from memory: translated, read and written to staging (R369, R383). -/
def State.stageMem (s : State) (q : Nat) (d : Desc) (t : Token) (i : Nat) (l : StLine) (ovr : Option (Nat × XFault)) : Go × State :=
  let g := q / 16
  let c := s.qCtx q
  let sc := dSc d.word
  match s.peekX g c l.line .rd ovr with
  | none => (.stop, (s.lookupFor g c l.line sc (s.descUrg d.word) (.queue q d.num false)).2.modDesc q d.num fun d => { d with missF := some (l.line / 2 ^ 16) })
  | some (.error f) =>
    let n := firstUser d.word l.line (l.last - l.first) l.first
    if dFlow d.word then
      let s := (s.flowFault q d n l.line false f).stageWrite q t.block i d.word (List.replicate 64 0) 255
      (.on, s.modDesc q d.num fun d => d.setLine t.id i fun l => { l with fin := true })
    else
      let stop : StopAt := ⟨n, l.line, false, f.kind, f.level⟩
      (.stop, (s.countFault g).modDesc q d.num fun d => (d.cutToken t.id n i).noteStop stop)
  | some (.ok dpa) =>
    let users := (List.range (l.last + 1 - l.first)).filter fun k => (linesTouched (dSrcBytes d.word (l.first + k))).contains l.line
    if !s.canIssue q then (.stop, s.count (qPage q) F.ENG_ISSUE_HELD)
    else if !s.badLine g c l.line .rd && users.all fun k => s.crossBad g c .rd l.line (linesTouched (dSrcBytes d.word (l.first + k))) then
      (.on, (s.stageWrite q t.block i d.word (List.replicate 64 0) 255).modDesc q d.num fun d => d.setLine t.id i fun l => { l with fin := true })
    else
    let r := s.readLine dpa (s.qAcc q d.word) q (l.hi - l.lo) (s.stageGal q t.block i) (s.descExempt d.word)
    match r.1 with
    | none => (.stop, r.2)
    | some x =>
      let s := (r.2.lookupFor g c l.line sc 0 (.queue q d.num false)).2
      let s := (s.stageWrite q t.block i d.word x.bytes x.poison).countW (tctPage c) F.TCT_RD_BYTES (l.hi - l.lo)
      (.on, s.modDesc q d.num fun d => { d.setLine t.id i fun l => { l with fin := true } with corrected := d.corrected || x.corr })

/-- The message of an engine's queue to a module, or back to a gallery, crosses the stair where they are in different
galleries (R21). -/
def State.portHop (s : State) (q w g h n : Nat) (rsp : Bool) : State :=
  if g = h then s else s.stairSend g (2 ^ h) (dSc w) (s.qCtx q) n rsp (s.descUrg w)

/-- A line that a module sent is written to its staging line (R254, R369). -/
def State.stageBack (s : State) (q num tok w m block i : Nat) (x : List Byte × Nat) : State :=
  let s := s.portHop q w (m / 2) (s.stageGal q block i) 64 true
  (s.stageWrite q block i w x.1 x.2).modDesc q num fun d => d.setLine tok i fun l => { l with fin := true, back := none }

/-- Line i of a token from a module: one SRD (R254, R255, R275). -/
def State.stagePort (s : State) (q : Nat) (d : Desc) (t : Token) (i : Nat) (l : StLine) : Go × State :=
  let m := dSrcMod d.word
  let c := s.qCtx q
  let sc := dSc d.word
  if l.asked then (.on, match l.back with
    | some x => s.stageBack q d.num t.id d.word m t.block i x
    | none => s)
  else if !s.authorised m c || s.isTwin m then (.stop, s.endDesc q d.num 5 0)
  else if s.reqStalled m (s.vcMap m sc) || !s.routeFree (s.qAcc q d.word) (m / 2) then (.stop, s)
  else if !s.canIssue q then (.stop, s.count (qPage q) F.ENG_ISSUE_HELD)
  else
    let k := s.link m
    match (List.range 512).find? fun x => !(k.srds.any fun r => r.tag == x) && !k.quarantined.contains x with
    | none => (.stop, s)
    | some tag =>
      let r : Srd := ⟨tag, q, d.num, t.id, i, l.hi - l.lo, none⟩
      let vc := s.vcMap m sc
      let s := s.setLink m { k with srds := k.srds ++ [r] }
      let s := (s.portHop q d.word (q / 16) (m / 2) 0 false).send m ⟨⟨mkHdr opSRD tag sc vc c 0 (l.hi - l.lo - 1) (l.line + l.lo) 0 0, []⟩, vc, c, .srd tag q⟩
      (.on, s.modDesc q d.num fun d => d.setLine t.id i fun l => { l with asked := true })

/-- Stage the lines of a token that are not staged, in order. -/
def State.stageLines (q num tok : Nat) (ovr : Option (Nat × XFault)) : List Nat → State → State
  | [], s => s
  | i :: is, s =>
    match s.desc? q num with
    | none => s
    | some d => match d.tokens.find? (·.id == tok) with
      | none => s
      | some t => match t.lines[i]? with
        | none => s
        | some l =>
          if l.fin then stageLines q num tok ovr is s
          else
            let r := if dSrcPort d.word then s.stagePort q d t i l else s.stageMem q d t i l ovr
            match r.1 with
            | .on => stageLines q num tok ovr is r.2
            | .stop => r.2

/-- A staging line may be written now (R122). -/
def State.stageOpen (s : State) : Bool := s.running pgMMAP

/-- The first running descriptor with something to fetch or to hand off. -/
def Queue.fetching (x : Queue) : Option Desc :=
  x.descs.find? fun d => d.stage == .running && d.ending.isNone && d.due.isNone && d.fault.isNone && !d.fetched

/-- Blocks that tokens hold. -/
def Queue.blockBusy (x : Queue) (b : Nat) : Bool := x.descs.any fun d => d.tokens.any fun t => t.block == b

/-- One step of the fetch unit for a queue: a new token where the last is handed off, its lines, its hand-off. (DESIGN CHOICE, log entry 93) -/
def State.fetchToken (s : State) (q : Nat) (ovr : Option (Nat × XFault)) : State :=
  let x := s.queue q
  match x.fetching with
  | none => s
  | some d =>
    let w := d.word
    if x.rr.isSome || !s.running (qPage q) || !s.stageOpen then s
    else
      let tile := d.fetch / dTile w
      let fresh : Option State :=
        if d.tokens.any fun t => !t.handed then some s
        else
          let b := x.block % s.qBlocks q
          if (dWaitMode w = 1 ∧ d.takes = 0) ∨ (dWaitMode w = 2 ∧ d.takes ≤ tile) ∨ 8 ≤ d.tokens.length + b2n (decide (d.conv < d.workEnd)) ∨ x.blockBusy b then none
          else
            let r := growToken w (dUnit w) ((tile + 1) * dTile w) (dTile w) d.fetch []
            let t : Token := { id := d.fetch, first := d.fetch, last := r.2, block := b, lines := r.1 }
            some ((s.setQueue q { x with block := (b + 1) % s.qBlocks q }).modDesc q d.num fun d => { d with tokens := d.tokens ++ [t], fetch := r.2 })
      match fresh with
      | none => s
      | some s =>
        match (s.desc? q d.num).bind fun d => d.tokens.find? fun t => !t.handed with
        | none => s
        | some t =>
          let s := State.stageLines q d.num t.id ovr (List.range t.lines.length) s
          let s := s.modDesc q d.num fun d => { d with tokens := d.tokens.map fun t => if t.lines.all (·.fin) then { t with handed := true } else t }
          s.tryStop q

/-! ### The execute unit (R372, R373, R377, R378) -/

/-- One byte of the destination: its address, value, poison, the ordinal and byte of the element that it belongs to. -/
structure DByte where
  addr : Nat
  val : Byte
  pois : Bool
  n : Nat
  j : Nat
  deriving DecidableEq, Repr

/-- A destination line access: bytes of consecutive elements of one dimension-0 run in one line (R331). -/
structure Grp where
  line : Nat
  run : Nat
  cells : List DByte
  deriving DecidableEq, Repr

def Grp.first (g : Grp) : Nat := (g.cells.head?.map (·.n)).getD 0
def Grp.last (g : Grp) : Nat := (g.cells.getLast?.map (·.n)).getD 0

/-- A byte joins the newest access for its line and run, or starts one. A PORT access stays contiguous. -/
def addByte (port : Bool) (u run : Nat) (b : DByte) : List Grp → List Grp
  | [] => [⟨alignDown b.addr 64, run, [b]⟩]
  | g :: gs =>
    let touch := !port || (decide ((g.cells.foldl (fun m c => min m c.addr) b.addr) + g.cells.length + 1 > b.addr) &&
      g.cells.any fun c => decide (c.addr ≤ b.addr + 1 ∧ b.addr ≤ c.addr + 1))
    if g.line = alignDown b.addr 64 ∧ g.run = run ∧ b.n ≤ g.last + u ∧ touch then { g with cells := g.cells ++ [b] } :: gs
    else match gs with
      | h :: hs =>
        if !port ∧ h.line = alignDown b.addr 64 ∧ h.run = run ∧ b.n ≤ h.last + u then g :: { h with cells := h.cells ++ [b] } :: hs
        else ⟨alignDown b.addr 64, run, [b]⟩ :: g :: gs
      | [] => [⟨alignDown b.addr 64, run, [b]⟩, g]

/-- The source lines that the execute unit holds. -/
abbrev Staged := List WorkLine

/-- The bytes of an element from its staged lines, and its poison (R351, R377). -/
def stagedElem (st : Staged) (d n : Nat) : Nat × Bool :=
  let at' (a : Nat) : Nat × Bool :=
    match st.find? fun x => x.line.line == alignDown a 64 && decide (x.line.first ≤ n ∧ n ≤ x.line.last) with
    | some x => (byteAt x.bytes (a % 64), x.pois.testBit (a % 64 / 8))
    | none => (0, true)
  let bs := (dSrcBytes d n).map at'
  let v := leNat (bs.map fun b => BitVec.ofNat 8 b.1)
  let v := if dSrc d == .int4 then (if n % dCount d 0 % 2 = 0 then v % 16 else v / 16 % 16) else v
  (v, bs.any (·.2))

/-- An element as converted: value, poison, what is counted. -/
structure Elem where
  n : Nat
  enc : Enc
  pois : Bool
  deriving DecidableEq, Repr

def mkElem (st : Staged) (d key n : Nat) : Elem :=
  if dIsFill d then ⟨n, dFillElem d key n, false⟩
  else let x := stagedElem st d n; ⟨n, dCopyElem d key n x.1, x.2⟩

/-- The destination bytes of an element but for those that the mask `skip` names; an INT4 byte is made of its pair, with the nibble that is
not among the elements taken from `old`. -/
def elemBytes (d skip : Nat) (old : Nat → Nat) (e : Elem) (mate : Option Elem) : List DByte :=
  if dDst d == .int4 then
    let a := dDstAt d e.n
    let o := old a
    let hi := e.n % dCount d 0 % 2 == 1
    let lowNib := if hi then o % 16 else e.enc.val % 16
    let highNib := if hi then e.enc.val % 16 else (mate.map (·.enc.val % 16)).getD (o / 16 % 16)
    [⟨a, BitVec.ofNat 8 (lowNib + 16 * highNib), e.pois || mate.any (·.pois), e.n, 0⟩]
  else
    ((dDstBytes d e.n).zip ((leBytes (dDst d).bytes e.enc.val).zip (List.range 4))).filterMap fun x =>
      if skip.testBit x.2.2 then none else some ⟨x.1, x.2.1, e.pois, e.n, x.2.2⟩

/-- Elements with their partners in an INT4 byte, where both are among them. -/
def pairUp (c0 : Nat) (int4 : Bool) : List Elem → List (Elem × Option Elem)
  | [] => []
  | [e] => [(e, none)]
  | e :: m :: ms =>
    if int4 && e.n % c0 % 2 == 0 then (e, some m) :: pairUp c0 int4 ms else (e, none) :: pairUp c0 int4 (m :: ms)

/-- The line accesses of consecutive elements, newest first; the bytes `skip` of the first element are written already. -/
def groupElems (d : Nat) (port : Bool) (old : Nat → Nat) (skip : Nat) (es : List Elem) : List Grp :=
  ((pairUp (dCount d 0) (dDst d == .int4) es).zip (List.range es.length)).foldl (fun gs x =>
    (elemBytes d (if x.2 = 0 then skip else 0) old x.1.1 x.1.2).foldl (fun gs b => addByte port (dUnit d) (x.1.1.n / dCount d 0) b gs) gs) []

/-- The bytes, enables and poisoned granules of a line access; the last value written to a byte stands (R332). -/
def Grp.image (g : Grp) : List Byte := (List.range 64).map fun i => ((g.cells.reverse.find? fun c => c.addr % 64 == i).map (·.val)).getD 0
def Grp.enables (g : Grp) : Nat := g.cells.foldl (fun n c => n ||| 2 ^ (c.addr % 64)) 0
def Grp.poison (g : Grp) : Nat := g.cells.foldl (fun n c => if c.pois then n ||| 2 ^ (c.addr % 64 / 8) else n) 0

/-- The SWR of a PORT access: its first byte's address, its bytes, its poisoned units, its stream position. -/
def Grp.swr (g : Grp) (esize : Nat) : Nat × List Byte × Nat × Nat :=
  let lo := g.cells.foldl (fun m c => min m c.addr) (g.line + 63)
  let hi := g.cells.foldl (fun m c => max m c.addr) g.line
  let pois := g.cells.foldl (fun n c => if c.pois then n ||| 2 ^ ((c.addr - lo) / 8) else n) 0
  let pos := match g.cells.find? fun c => c.addr == lo with
    | some c => c.n * esize / 2 + c.j
    | none => 0
  (lo, ((g.image.drop (lo % 64)).take (hi - lo + 1)), pois, pos)

/-- How a destination write went. -/
inductive Put where
  | done | held | denied
  deriving DecidableEq, Repr

/-- One destination line access (R331, R347, R372, R383). -/
def State.putGrp (s : State) (q : Nat) (d : Desc) (g : Grp) (ovr : Option (Nat × XFault)) : Put × State :=
  let w := d.word
  let sc := dSc w
  let c := s.qCtx q
  let gal := q / 16
  if dDstPort w then
    let m := dDstMod w
    if !s.authorised m c || s.isTwin m then (.denied, s)
    else if s.reqStalled m (s.vcMap m sc) || !s.routeFree (s.qAcc q w) (m / 2) then (.held, s)
    else if !s.canIssue q then (.held, s.count (qPage q) F.ENG_ISSUE_HELD)
    else
      let x := g.swr (if dDst w == .int4 then 1 else 2 * (dDst w).bytes)
      let vc := s.vcMap m sc
      let h := mkHdr opSWR q sc vc c 0 (x.2.1.length - 1) x.1 x.2.2.1 x.2.2.2
      let s := s.modDesc q d.num fun d => { d with outs := d.outs ++ [(g.first, false)] }
      (.done, ((s.portHop q w gal (m / 2) 64 false).send m ⟨⟨h, padSlots x.2.1⟩, vc, c, .swr q d.num x.2.1.length⟩).countW (qPage q) F.ENG_LINES_OUT)
  else match s.peekX gal c g.line .wr ovr with
    | none => (.held, s)
    | some (.error f) => (.done, s.flowFault q d g.first g.line true f)
    | some (.ok dpa) =>
      match s.target dpa with
      | .error x => (.done, (s.flagTarget dpa x).modDesc q d.num fun d => { d with poisoned := true })
      | .ok t =>
        let who := s.qAcc q w
        if !s.canIssue q then (.held, s.count (qPage q) F.ENG_ISSUE_HELD)
        else if !s.tgtFree t who (s.descExempt w) then (.held, s.tgtHold t who q dpa (s.descExempt w))
        else
          let s := (((s.tgtGo t who q dpa).lookupFor gal c g.line sc 0 (.queue q d.num true)).2).modDesc q d.num fun d => { d with outs := d.outs ++ [(g.first, true)] }
          let r := s.memWrite dpa t g.enables g.image g.poison who (popCount 64 g.enables) ⟨1, q, 0, sc, c⟩ fun w => .queue q d.num w.status.code
          let s := (r.2.countW (qPage q) F.ENG_LINES_OUT).countW (tctPage c) F.TCT_WR_BYTES (popCount 64 g.enables)
          match r.1 with
          | none => (.done, s)
          | some o => (.done, s.modDesc q d.num fun d =>
              { d with outs := d.outs.dropLast, corrected := d.corrected || o.corr != 0, poisoned := d.poisoned || o.poison != 0 })

/-- Make the accesses in order until one is held; what is left of them. -/
def State.putGrps (q num : Nat) (ovr : Option (Nat × XFault)) : List Grp → State → List Grp × State
  | [], s => ([], s)
  | g :: gs, s =>
    match s.desc? q num with
    | none => ([], s)
    | some d =>
      let r := s.putGrp q d g ovr
      match r.1 with
      | .done => putGrps q num ovr gs r.2
      | .held => (g :: gs, r.2)
      | .denied => (g :: gs, r.2.endDesc q num 5 0)

/-- How far destination translation lets elements go: the elements from n on that may be written, a miss, or a STOP
fault (R378). -/
inductive Reach where
  | all
  | miss (n line : Nat)
  | fault (n line : Nat) (f : XFault)
  deriving DecidableEq, Repr

def State.reach (s : State) (g c d : Nat) (ovr : Option (Nat × XFault)) : Nat → Nat → Reach
  | 0, _ => .all
  | fuel + 1, n =>
    match (linesTouched (dDstBytes d n)).findSome? fun l => match s.peekX g c l .wr ovr with
      | none => some (Reach.miss n l)
      | some (.error f) => if dFlow d then none else some (Reach.fault n l f)
      | some (.ok _) => none with
    | some r => r
    | none => reach s g c d ovr fuel (n + 1)

/-- Staging line i of a token is read into the execute unit, with its counts and reports (R372, R377). -/
def State.readStage (s : State) (q num : Nat) (t : Token) (w i : Nat) (l : StLine) : State :=
  let x := s.locate (s.stageDpa q t.block i)
  let r := (s.served (s.qAcc q w) (x.1 / 64) 0 64 true false).bankRead x.1 x.2
  let s := r.2.countW (qPage q) F.ENG_LINES_IN
  let s := if r.1.grans.any fun g => g.cls == .uncorrectable then
      s.raise (qPage q) Err.ENG_STAGE_UE (detMem (s.stageDpa q t.block i) 0 0 x.1 x.2) true
    else s
  s.modDesc q num fun d => { d with corrected := d.corrected || (List.range 8).any r.1.corr, work := d.work ++ [⟨l, r.1.bytes, r.1.poisonMask⟩] }

/-- The execute unit takes a token: it reads the staging lines and releases the block (R372). -/
def State.takeToken (s : State) (q num w : Nat) (t : Token) : State :=
  let s := foldS (fun (x : StLine × Nat) s => s.readStage q num t w x.2 x.1) (t.lines.zip (List.range t.lines.length)) s
  s.modDesc q num fun d => { d with tokens := d.tokens.filter (·.id != t.id), workEnd := t.last }

/-- The byte of memory that a lone INT4 nibble joins. -/
def State.oldByte (s : State) (g c : Nat) (d : Desc) (a : Nat) : Nat :=
  if dDstPort d.word then d.half
  else match s.peekX g c a .wr none with
    | some (.ok dpa) => match s.target dpa with
      | .ok t => byteAt (s.tgtPeek t).bytes (dpa % 64)
      | .error _ => 0
    | _ => 0

/-- An access that the next element n of its run still adds to: it waits for it (R331). -/
def Grp.open (w n : Nat) (g : Grp) : Bool :=
  n % dCount w 0 != 0 && g.run == n / dCount w 0 && (linesTouched (dDstBytes w n)).contains g.line && decide (n ≤ g.last + dUnit w)

/-- The bytes of an access that may be written: not those of an element that also touches a line which gives ERROR (R143). -/
def State.goodCells (s : State) (gal c w : Nat) (g : Grp) : Grp :=
  { g with cells := g.cells.filter fun b => s.badLine gal c g.line .wr || !s.crossBad gal c .wr g.line (linesTouched (dDstBytes w b.n)) }

/-- Elements `[n, stop)` of a descriptor as far as they may go: translated, converted, written (R372 to R378). `more` says
that the elements from `stop` on follow in the same tile. -/
def State.convertTo (s : State) (q : Nat) (d : Desc) (stop : Nat) (more : Bool) (ovr : Option (Nat × XFault)) : State :=
  let w := d.word
  let g := q / 16
  let c := s.qCtx q
  let r := if dDstPort w then Reach.all else s.reach g c w ovr (stop - d.conv) d.conv
  let s := match r with
    | .all => s
    | .miss _ l => (s.lookupFor g c l (dSc w) (s.descUrg w) (.queue q d.num true)).2.modDesc q d.num fun d => { d with missC := some (l / 2 ^ 16) }
    | .fault n l f => (s.countFault g).modDesc q d.num fun d => d.noteStop ⟨n, l, true, f.kind, f.level⟩
  let stop := match r with
    | .all => stop
    | .miss n _ => n
    | .fault n _ _ => n
  let more := match r with
    | .all => more
    | .miss _ _ => true
    | .fault _ _ _ => false
  let es := (List.range (stop - d.conv)).map fun i => mkElem d.work w d.key (d.conv + i)
  let gs := (groupElems w (dDstPort w) (s.oldByte g c d) d.sent es).reverse
  let later (x : Grp) : Bool := more && x.open w stop
  let now := gs.filter fun x => !later x
  let now := if dDstPort w then now else (now.map (s.goodCells g c w)).filter fun x => !x.cells.isEmpty
  let p := State.putGrps q d.num ovr now s
  let left := p.1.flatMap (·.cells) ++ (gs.filter later).flatMap (·.cells)
  let conv := left.foldl (fun m b => min m b.n) stop
  let sent := if conv < stop then
      (List.range 4).foldl (fun m j => if j < (dDst w).bytes ∧ !(left.any fun b => b.n == conv && b.j == j) then m + 2 ^ j else m) 0
    else 0
  let done := es.filter fun e => decide (e.n < conv)
  let page := qPage q
  let s := p.2.count page F.ENG_NAN_OUT (done.filter (·.enc.isNan)).length
  let s := s.count page F.ENG_OVERFLOW (done.filter (·.enc.ovf)).length
  let s := s.count page F.ENG_POISONED_ELEMS (done.filter (·.pois)).length
  let half := match done.getLast? with
    | some e => if dDst w == .int4 && e.n % 2 == 0 then e.enc.val % 16 else 0
    | none => d.half
  s.modDesc q d.num fun d => { d with conv := conv, sent := sent, half := half, poisoned := d.poisoned || done.any (·.pois), work := d.work.filter fun x => decide (conv ≤ x.line.last) }

/-- All that the execute unit holds of a descriptor are bytes of a line that the element after them still adds to. -/
def Desc.tail (d : Desc) : Bool :=
  let w := d.word
  let n := d.workEnd
  n % dTile w != 0 && n % dCount w 0 != 0 && !(d.fault.any fun f => f.n == n) && (List.range (n - d.conv)).all fun i =>
    (d.conv + i) / dCount w 0 == n / dCount w 0 &&
    ((linesTouched (dDstBytes w (d.conv + i))).all fun l => (linesTouched (dDstBytes w n)).contains l || d.sent != 0)
/-- The execute unit works on a token of the descriptor. -/
def Desc.working (d : Desc) : Bool := decide (d.conv < d.workEnd) && !d.tail

/-- The mixers cannot supply a draw (R362, R527). -/
def State.mixerLost (s : State) (q : Nat) (d : Desc) : Bool := dDraws d.word && !s.mixerUp (q / 16)

/-- One step of the execute unit for active descriptor k of a queue: its oldest token, or the next stretch of a FILL,
which is at most one tile and one dimension-0 run. (DEDUCED, log entry 89) -/
def State.convert (s : State) (q k : Nat) (ovr : Option (Nat × XFault)) : State :=
  let x := s.queue q
  match (x.descs.filter fun d => d.stage == .running && d.ending.isNone)[k]? with
  | none => s
  | some d =>
    let w := d.word
    let tile := d.conv / dTile w
    let wrong := x.rr.isSome || d.due.isSome || (d.fault.any fun f => decide (f.n ≤ d.conv))
    if wrong then s
    else if dIsFill w then
      if dTotal w ≤ d.conv ∨ (dWaitMode w = 1 ∧ d.takes = 0) ∨ (dWaitMode w = 2 ∧ d.takes ≤ tile) ∨ !s.running (qPage q) then s
      else if s.mixerLost q d then (s.raise (qPage q) Err.ENG_MIXER_ERROR (detQueue q (s.qCtx q) 10 0 d.tva)).endDesc q d.num 10 0
      else
        let stop := min ((d.conv / dCount w 0 + 1) * dCount w 0) ((tile + 1) * dTile w)
        let stop := match d.fault with
          | some f => min stop f.n
          | none => stop
        (s.convertTo q d stop false ovr).tryStop q
    else
      let next := if d.working then none else d.tokens.find? (·.handed)
      if !d.working && next.isNone then s
      else if s.mixerLost q d then (s.raise (qPage q) Err.ENG_MIXER_ERROR (detQueue q (s.qCtx q) 10 0 d.tva)).endDesc q d.num 10 0
      else if next.isSome && !s.canIssue q then s.count (qPage q) F.ENG_ISSUE_HELD
      else if next.isSome && !s.stageOpen then s
      else
        let s := match next with
          | some t => s.takeToken q d.num w t
          | none => s
        match s.desc? q d.num with
        | none => s
        | some d =>
          let stop := match d.fault with
            | some f => min d.workEnd f.n
            | none => d.workEnd
          (s.convertTo q d stop (stop % dTile w != 0 && !d.fault.any fun f => f.n == stop) ovr).tryStop q

/-! ### Tally links (R344 to R349) -/

/-- The take before the next tile is made: at most one tile ahead of the one that executes (R345). (DEDUCED, log entry 88) -/
def State.tileTake (s : State) (q k : Nat) : State :=
  match ((s.queue q).descs.filter fun d => d.stage == .running && d.ending.isNone)[k]? with
  | none => s
  | some d =>
    let w := d.word
    if dWaitMode w ≠ 2 ∨ d.waiting ∨ d.due.isSome ∨ dTiles w ≤ d.takes ∨ d.conv / dTile w + 1 < d.takes ∨ (s.queue q).rr.isSome ∨ d.fault.isSome ∨
       !s.running (qPage q) then s
    else (s.modDesc q d.num fun d => { d with waiting := true }).qTally q d.num (dSc w) 3 (dWaitTally w) (dWaitN w) (linkTimeout w)

/-- Tiles that are to post by now: the complete ones; of a descriptor that ends once they have posted, those complete at
that decision (R346). -/
def Desc.toPost (d : Desc) : Nat :=
  match d.due with
  | some (_, k) => k
  | none => if dTileEn d.word then d.complete / dTile d.word else 0

/-- A wait returned `st`: the descriptor ends with it as soon as the tiles complete before it have posted (R346). -/
def State.endDue (s : State) (q num st : Nat) : State :=
  match s.desc? q num with
  | none => s
  | some d => if d.toPost ≤ d.posted ∧ !d.posting then s.endDesc q num st 0 else s.modDesc q num fun d => { d with due := some (st, d.toPost) }

/-- The post of the next complete tile (R347): the earlier descriptor's posts come first (R366). -/
def State.tilePost (s : State) (q : Nat) : State :=
  match (s.queue q).descs.head? with
  | none => s
  | some d =>
    let w := d.word
    if d.stage ≠ .running ∨ d.ending.isSome ∨ !dTileEn w ∨ d.posting ∨ d.toPost ≤ d.posted then s
    else (s.modDesc q d.num fun d => { d with posting := true }).qTally q d.num (dSc w) 0 (dTileTally w) (dTileN w) 0

/-- Every element is complete and every tile has posted. -/
def Desc.finished (d : Desc) : Bool :=
  d.stage == .running && d.ending.isNone && d.due.isNone && d.complete == dTotal d.word && !d.posting &&
  (!dTileEn d.word || d.posted == dTiles d.word)

/-- The completion post (R348). -/
def State.donePost (s : State) (q : Nat) : State :=
  match (s.queue q).descs.head? with
  | none => s
  | some d =>
    let w := d.word
    if !d.finished ∨ !dDoneEn w ∨ d.doneSent then s
    else (s.modDesc q d.num fun d => { d with doneSent := true }).qTally q d.num (dSc w) 0 (dDoneTally w) (dDoneN w) 0

/-- An answer of the hall for a queue: a wait (R346) or a post (R349). -/
def State.queueAnswer (s : State) (q : Nat) (a : TallyAns) : State :=
  if a.top = 2 ∨ a.top = 3 then
    match (s.queue q).descs.find? fun d => d.num == a.tag && d.waiting && d.ending.isNone with
    | none => s
    | some d =>
      let s := s.modDesc q d.num fun d => { d with waiting := false }
      if a.res.st = 0 ∨ a.res.st = 2 then s.modDesc q d.num fun d => { d with takes := d.takes + 1 }
      else if a.res.st = 8 ∨ a.res.st = 6 then s.endDue q d.num a.res.st
      else s.endDesc q d.num 10 0
  else
    match (s.queue q).descs.find? fun d => d.num == a.tag && (d.posting || (d.doneSent && !d.doneOk)) with
    | none => s
    | some d =>
      let s := if a.res.sat then
          (s.modDesc q d.num fun d => { d with sat := true }).raise (qPage q) Err.ENG_SAT_POST (detQueue q (s.qCtx q) 0 0 d.tva)
        else s
      let bad := a.res.st ≠ 0 ∧ a.res.st ≠ 2
      let s := if d.doneSent then s.modDesc q d.num fun d => { d with doneOk := true }
        else s.modDesc q d.num fun d => { d with posting := false, posted := d.posted + 1 }
      if bad then s.endDesc q d.num (if a.res.st = 6 then 6 else 10) 0
      else match d.due with
        | some (st, k) => if k ≤ d.posted + 1 then s.endDesc q d.num st 0 else s
        | none => s.tryStop q

/-- Take the hall's answers for queues. -/
def State.engAnswers (s : State) : State :=
  let mine := s.hall.answers.filter fun a => match a.who with | .queue _ => true | _ => false
  let s := s.modHall fun h => { h with answers := h.answers.filter fun a => match a.who with | .queue _ => false | _ => true }
  foldS (fun a s => match a.who with | .queue q => s.queueAnswer q a | _ => s) mine s

/-! ### Completions from modules and the twin path -/

/-- A flit with an SWR is acknowledged: the line is accepted (R253, R347). -/
def State.swrAccepted (s : State) (q num n : Nat) : State :=
  (s.modDesc q num fun d => { d with outs := d.outs.drop 1, accepted := d.accepted + n }).tryStop q

/-- A mirrored write of a queue is complete on both dies (R594). -/
def State.queueMirrored (s : State) (q num st : Nat) : State :=
  match s.desc? q num with
  | some d => (s.modDesc q d.num fun d =>
      { d with outs := d.outs.drop 1, corrected := d.corrected || st == 1, poisoned := d.poisoned || decide (3 ≤ st) }).tryStop q
  | none => s

/-- The response of an SRD: its bytes are staged, by poison mask, or all poisoned (R254, R369, R377). -/
def State.srdDone (s : State) (r : Srd) (data : List Byte) (mask : Nat) (err : Bool) : State :=
  match s.desc? r.queue r.desc with
  | none => s
  | some d => match d.tokens.find? (·.id == r.token) with
    | none => s
    | some t => match t.lines[r.part]? with
      | none => s
      | some l =>
        let bytes := atOffset l.lo (data.take (l.hi - l.lo))
        let pois := (List.range (l.hi - l.lo)).foldl (fun n i => if err || mask.testBit (i / 8) then n ||| 2 ^ ((l.lo + i) / 8) else n) 0
        let x := (if err then List.replicate 64 0 else bytes, pois)
        if s.stageOpen then s.stageBack r.queue r.desc t.id d.word (dSrcMod d.word) t.block r.part x
        else s.modDesc r.queue r.desc fun d => d.setLine r.token r.part fun l => { l with back := some x }

/-! ### The end of a descriptor (R352, R384) -/

/-- The ring command of a descriptor has its outcome (R427). -/
def State.reportEnd (s : State) (ring cmd st : Nat) (sat : Bool) : State :=
  let r := (find s.rings ring).getD {}
  { s with rings := put s.rings ring { r with out := r.out.map fun o => if o.id == cmd then { o with res := some st, sat := sat } else o } }

/-- The end status and code of a descriptor, if it may end now (Table 8-6). -/
def Desc.endStatus (d : Desc) : Option (Nat × Nat) :=
  match d.ending with
  | some x => if d.outs.isEmpty then some x else none
  | none =>
    if d.finished && (!dDoneEn d.word || d.doneOk) then
      some (if d.faulted then 4 else if d.poisoned then 3 else if d.corrected then 1 else 0, 0)
    else none

/-- The record of an abandoned descriptor (R274). -/
def State.abandonRec (s : State) (q : Nat) (d : Desc) : State :=
  match d.abandonVc with
  | none => s
  | some (m, vc) =>
    let p := modPage m
    let s := (s.wr p F.MOD_ABANDON_LAST_QUEUE.off (BitVec.ofNat 32 (q + vc * 2 ^ 8 + 2 ^ 31)))
    let s := (s.wr p F.MOD_ABANDON_BYTES_LO.off (BitVec.ofNat 32 d.accepted)).wr p F.MOD_ABANDON_BYTES_HI.off (BitVec.ofNat 32 (d.accepted / 2 ^ 32))
    s.raise p Err.MOD_ABANDONED (detQueue q (s.qCtx q) 9 0 d.tva)

def State.descEnd (s : State) (q : Nat) : State :=
  match (s.queue q).descs.head? with
  | none => s
  | some d => match d.endStatus with
    | none => s
    | some (st, code) =>
      let p := qPage q
      let c := s.qCtx q
      let full := decide (st < 5) && st != 2
      let s := s.modQueue q fun x => { x with descs := x.descs.drop 1, endStatus := st, endCode := code, endSat := d.sat
                                              endSeq := (x.endSeq + 1) % 2 ^ 16
                                              doneElems := (if full then dTotal d.word else if d.word = 0 then 0 else d.complete) % 2 ^ 64 }
      let s := s.abandonRec q d
      let s := s.count p F.ENG_DESC_ENDED
      let s := if st = 10 then (s.count p F.ENG_DESC_ERRORS).raise p Err.ENG_DESC_ERROR (detQueue q c st code d.tva) true else s
      (s.traceEv 5 (q / 8) c (q + st * 2 ^ 7 + code * 2 ^ 11)).reportEnd d.ring d.cmd st d.sat

/-! ### Queue commands (R381, R382, R393, R394, R403) -/

/-- End every active descriptor of a queue, and with `flush` those not started too. -/
def State.abortQueue (s : State) (q st : Nat) (flush : Bool) : State :=
  foldS (fun d s => if d.doneSent then s else if d.active || flush then s.endDesc q d.num st 0 else s) (s.queue q).descs s

def State.resumeQueue (s : State) (q : Nat) : State :=
  let x := s.queue q
  match x.rr with
  | none => s
  | some r =>
    let s := s.setQueue q { x with rr := none, rrBad := false }
    if x.rrBad then s.endDesc q r.num 10 0 else s

/-- A write of QUEUE_CMD_q: RESUME, ABORT, FLUSH. (DEDUCED, log entry 95) -/
def State.queueCmd (s : State) (q : Nat) (resume abort flush : Bool) : State :=
  let x := s.queue q
  let bad := (resume && abort) || x.descs.isEmpty || (resume && x.rr.isNone)
  if !resume && !abort then s
  else if bad then s.raise (qPage q) Err.ENG_CMD_IGNORED (detQueue q (s.qCtx q) 0 0 0)
  else if resume then s.resumeQueue q
  else s.abortQueue q 9 flush

/-- A TQC write reaches a queue bound to its context, else it is ignored (R409). -/
def State.tqcCmd (s : State) (c q : Nat) (resume abort flush : Bool) : State :=
  if s.qCtx q = c then s.queueCmd q resume abort flush else s.raise ⟨.TQC, c⟩ Err.ACCESS_DENIED

/-! ### Walks that a queue waited for -/

/-- A walk on a page has ended: a fault is handled where it is found, a leaf lets the queue go on (R379, R383). -/
def State.queueWalked (s : State) (q page : Nat) (r : WalkRes) : State :=
  let ovr := match r with
    | .fault f => some (page, f)
    | _ => none
  let x := s.queue q
  let wantF := x.descs.any fun d => d.missF == some page
  let ks := ((x.descs.filter fun d => d.stage == .running && d.ending.isNone).zip (List.range 2)).filterMap fun y =>
    if y.1.missC == some page then some y.2 else none
  let s := s.setQueue q { x with descs := x.descs.map fun d =>
    { d with missF := if d.missF == some page then none else d.missF, missC := if d.missC == some page then none else d.missC } }
  let s := if wantF && ovr.isSome then (s.descRead q ovr).fetchToken q ovr else s
  if ovr.isSome then foldS (fun k s => s.convert q k ovr) ks s else s

/-! ### Abandonment, module resets, resets and context ends -/

/-- A line of a descriptor waits on a VC of a module and is not presented (R272): a write of what the execute unit holds or
a fill makes, or a source line not asked for. -/
def Desc.waitsOn (d : Desc) (m vcOfClass vc : Nat) : Bool :=
  let w := d.word
  d.stage == .running && d.ending.isNone && vcOfClass == vc &&
  ((dDstPort w && dDstMod w == m && (d.working || (dIsFill w && decide (d.conv < dTotal w)))) ||
   (!dIsFill w && dSrcPort w && dSrcMod w == m && d.tokens.any fun t => t.lines.any fun l => !l.asked && !l.fin))

/-- Abandon every descriptor with a line that waits on a stalled VC (R274). -/
def State.abandonOn (s : State) (m vc : Nat) : State :=
  let stalled := s.reqStalled m vc
  let hit (q : Nat) (d : Desc) : Bool := d.active && ((stalled && d.waitsOn m (s.vcMap m (dSc d.word)) vc) ||
    (s.link m).tx.any fun t => t.vc == vc && (match t.kind with
    | .swr k n _ => k == q && n == d.num
    | .srd tag k => k == q && (s.link m).srds.any fun r => r.tag == tag && r.desc == d.num
    | _ => false))
  foldS (fun q s => foldS (fun d s => if hit q d then
      (s.modDesc q d.num fun d => { d with abandonVc := some (m, vc) }).endDesc q d.num 9 0
    else s) (s.queue q).descs s) (List.range 128) s

/-- A module resets: descriptors with lines to or from it end with ABORTED and their record (R274, R279). -/
def State.streamsOff (s : State) (m : Nat) : State :=
  let hit (d : Desc) : Bool := d.stage == .running &&
    ((dDstPort d.word && dDstMod d.word == m) || (!dIsFill d.word && dSrcPort d.word && dSrcMod d.word == m))
  foldS (fun q s => foldS (fun d s => if hit d then
      (((s.modDesc q d.num fun d => { d with abandonVc := some (m, s.vcMap m (dSc d.word)) }).endDesc q d.num 9 0)).modDesc
        q d.num fun d => { d with outs := [], conv := (d.outs.head?.map (·.1)).elim d.conv (min d.conv) }
    else s) (s.queue q).descs s) (List.range 128) s

/-- A soft reset of an engine's page (R405). -/
def State.engSoftReset (s : State) (e : Nat) : State :=
  foldS (fun i s =>
    let q := 8 * e + i
    let s := s.abortQueue q 9 true
    s.modQueue q fun x => { x with rr := none, rrBad := false, descs := x.descs.map fun d => { d with tokens := [], work := [] } }) (List.range 8) s

/-- A context ends: its queues' descriptors end with RETIRED, resume and end records clear (R407). -/
def State.engRetire (s : State) (c : Nat) : State :=
  foldS (fun q s =>
    if s.qCtx q = c then
      let n := (s.queue q).descs.length
      let s := foldS (fun d s => s.reportEnd d.ring d.cmd 6 d.sat) (s.queue q).descs s
      ((s.abortQueue q 6 true).count (qPage q) F.ENG_DESC_ENDED n).modQueue q fun x =>
        { x with rr := none, rrBad := false, endStatus := 0, endCode := 0, endSat := false, endSeq := 0, doneElems := 0
                 descs := [], block := 0 }
    else s) (List.range 128) s

/-- Tokens handed off and not yet converted, for ENG_STATUS and the halt (R406). -/
def State.engTokens (s : State) (e : Nat) : Nat :=
  ((List.range 8).map fun i => ((s.queue (8 * e + i)).descs.map fun d => (d.tokens.filter (·.handed)).length + b2n d.working).sum).sum

/-- Whether a halting engine has finished its tokens and line requests (R406). A FAULTED queue keeps none. (DEDUCED, log entry 92) -/
def State.engQuiet (s : State) (e : Nat) : Bool := s.engTokens e == 0 && s.engLines e == 0

end Sys2Proof.Machine
end

