-- ==== Sys2Proof/Machine/Foreman.lean ====
section
/-! DEFINITION. The foreman (chapter 10): ring slots, doorbells, fetch, the conditions of dispatch, the commands, the
scoreboard, completion, and what stops and restarts a ring. -/

namespace Sys2Proof.Machine

def tdbPage (c : Nat) : Page := ⟨.TDB, c⟩

def State.ring (s : State) (r : Nat) : Ring := (find s.rings r).getD {}
def State.setRing (s : State) (r : Nat) (x : Ring) : State := { s with rings := put s.rings r x }
def State.modRing (s : State) (r : Nat) (f : Ring → Ring) : State := s.setRing r (f (s.ring r))

/-! ### Slots and pointers (R410 to R414) -/

def ringCtx (r : Nat) : Nat := r / 4
def State.ringGet (s : State) (r : Nat) (f : Fld) : Nat := s.get (tdbPage (ringCtx r)) (f.at (r % 4))
def State.ringSet (s : State) (r : Nat) (f : Fld) (v : Nat) : State := s.set (tdbPage (ringCtx r)) (f.at (r % 4)) v
def State.tail (s : State) (r : Nat) : Nat := s.ringGet r F.TDB_DOORBELL_TAIL
def State.head (s : State) (r : Nat) : Nat := s.ringGet r F.TDB_RING_PTR_HEAD
def sub16 (a b : Nat) : Nat := (a + 2 ^ 16 - b) % 2 ^ 16

/-- SIZE, base and class of a slot (R411). -/
def State.slotSize (s : State) (g k : Nat) : Nat := 2 ^ s.get (fmnPage g) (F.FMN_RING_SLOT_LOG2SIZE.at k)
def State.slotBase (s : State) (g k : Nat) : Nat :=
  s.get (fmnPage g) (F.FMN_RING_BASE_LO_BASE.at k) * 2 ^ 12 + s.get (fmnPage g) (F.FMN_RING_BASE_HI_BASE.at k) * 2 ^ 32
def State.slotClass (s : State) (g k : Nat) : Nat := s.get (fmnPage g) (F.FMN_RING_SLOT_CLASS.at k)

/-- A write of DOORBELL_r (R412). -/
def State.doorbell (s : State) (r d : Nat) : State :=
  match s.ringHome r with
  | none => s.ringSet r F.TDB_RING_STAT_DB_IGNORED 1
  | some (g, k) =>
    let new := sub16 d (s.head r)
    if new ≤ s.slotSize g k ∧ sub16 (s.tail r) (s.head r) ≤ new then s.ringSet r F.TDB_DOORBELL_TAIL d
    else s.ringSet r F.TDB_RING_STAT_DB_IGNORED 1

/-! ### Fetch (R411, R413, R423, R443) -/

/-- Forget the prefetched commands: they are fetched again from the first one not dispatched (R444, R447). -/
def State.refetch (s : State) (r : Nat) : State :=
  let x := s.ring r
  let k := (x.fetched.filter (·.list)).length
  match x.list with
  | some (a, left, c) => s.setRing r { x with fetched := [], next := (c + 1) % 2 ^ 16, list := some (a - 64 * k, left + k, c) }
  | none => s.setRing r { x with fetched := [], next := s.head r }

/-- A ring fetch fails: the ring is FAULTED with its record (R443). -/
def State.fetchFault (s : State) (r g st kind level count tva : Nat) : State :=
  let c := ringCtx r
  let s := s.modRing r fun x => { x with faulted := true }
  let s := ((s.ringSet r F.TDB_RING_STAT_STOP_STATUS st).ringSet r F.TDB_RING_STAT_STOP_CMD 0).ringSet r F.TDB_RING_STAT_STOP_INDEX count
  (s.faultRec c 5 false kind level 4 (r + count * 2 ^ 16 + tva % 2 ^ 48 * 2 ^ 64)).raise (fmnPage g) Err.FMN_FETCH_FAULT (detRing r c 0 st count)

/-- What a ring fetches next: TVA, ring count, whether it is a list command and the last one. -/
def State.nextFetch (s : State) (r g k : Nat) : Option (Nat × Nat × Bool × Bool) :=
  let x := s.ring r
  if 16 ≤ x.fetched.length then none
  else match x.list with
    | some (a, left, c) => if 0 < left then some (a, c, true, left == 1) else
        if x.next = s.tail r then none else some (s.slotBase g k + 64 * (x.next % s.slotSize g k), x.next, false, false)
    | none => if x.next = s.tail r then none else some (s.slotBase g k + 64 * (x.next % s.slotSize g k), x.next, false, false)

/-- What the ring in slot k of gallery g presents at ring fetch, if it may fetch (R423). -/
def State.mayFetch (s : State) (r g k : Nat) : Option (Nat × Nat × Bool × Bool) :=
  if !s.running (fmnPage g) || (s.ring r).faulted || s.isFatal then none else s.nextFetch r g k

/-- The rings that present at the ring fetch arbiter of gallery g, by slot, in their classes (R423, R793). -/
def State.fetchReqs (s : State) (g : Nat) : List Req :=
  (List.range 8).filterMap fun k =>
    let r := s.get (fmnPage g) (F.FMN_RING_SLOT_RING.at k)
    if s.ringHome r = some (g, k) ∧ (s.mayFetch r g k).isSome then some ⟨k, s.slotClass g k, 0⟩ else none

/-- The read of a ring's next command (R423), admitted as the row begins. (DESIGN CHOICE, log entry 10) -/
def State.fetchCmd (s : State) (r g sc : Nat) (x : Nat × Nat × Bool × Bool) : State :=
  let (tva, count, list, last) := x
  let t := s.translateNow g (ringCtx r) (tva % 2 ^ 48) sc .rd (.ring r)
  match t.1 with
  | none => t.2
  | some (.error f) => t.2.fetchFault r g 4 f.kind f.level count tva
  | some (.ok dpa) =>
    let who : Acc := ⟨g, sc, ringCtx r, 0⟩
    match s.lineHeld dpa who with
    | some h => s.tgtHold h who (128 + r) dpa
    | none =>
      let l := t.2.lineGo dpa who (128 + r) 64 g
      if l.1.err then l.2.fetchFault r g 10 0 0 count tva
      else if l.1.poison ≠ 0 then l.2.fetchFault r g 3 0 0 count tva
      else l.2.modRing r fun x =>
        { x with fetched := x.fetched ++ [⟨l.1.bytes, count, list, last⟩]
                 next := if list then x.next else (x.next + 1) % 2 ^ 16
                 list := if list then x.list.map fun z => (z.1 + 64, z.2.1 - 1, z.2.2) else x.list }

/-- One grant of ring fetch for a ring, drawn among the rings that present (R423). -/
def State.ringFetch (s : State) (r : Nat) : State :=
  match s.ringHome r with
  | none => s
  | some (g, k) => match s.mayFetch r g k with
    | none => s
    | some x =>
      let d := s.grantTo (0xC000 + g) k (s.fetchReqs g)
      if d.1 then d.2.fetchCmd r g (s.slotClass g k) x else d.2

/-! ### The fields of a command (Tables 10-1, 10-2) -/

def RingCmd.f (x : RingCmd) (off lo w : Nat) : Nat := bits (leNat x.bytes) (8 * off + lo) w
def RingCmd.op (x : RingCmd) : Nat := x.f 0 0 8
def RingCmd.sc (x : RingCmd) : Nat := x.f 1 0 3
def RingCmd.sync (x : RingCmd) : Bool := x.f 1 3 1 == 1
def RingCmd.order (x : RingCmd) : Bool := x.f 1 4 1 == 1
def RingCmd.tag (x : RingCmd) : Nat := x.f 2 0 16

/-- The fields of a command's body as (byte, bit, width). -/
def bodyFields : Nat → List (Nat × Nat × Nat)
  | 1 => [(8, 0, 7), (0x10, 0, 48), (0x18, 0, 48), (0x20, 0, 40), (0x28, 0, 48), (0x30, 0, 40)]
  | 2 => [(8, 0, 5), (0xA, 0, 13), (0xC, 0, 24), (0x18, 0, 48)]
  | 3 => [(8, 0, 1), (0xA, 0, 13), (0xC, 0, 24), (0x10, 0, 32)]
  | 4 => [(8, 0, 1), (0xA, 0, 13), (0xC, 0, 24), (0x10, 0, 32)]
  | 5 => [(8, 0, 1), (0x10, 0, 32)]
  | 7 => [(8, 0, 2), (0xC, 0, 16), (0x10, 0, 32), (0x18, 0, 48)]
  | 8 => [(8, 0, 12), (0x10, 0, 48)]
  | _ => []

/-- Every bit outside the fields is zero, the opcode is defined, ORDER is used by STREAM alone (R415). -/
def RingCmd.wellFormed (x : RingCmd) : Bool :=
  let n := leNat x.bytes
  let body := (bodyFields x.op).foldl (fun m f => m + (2 ^ f.2.2 - 1) * 2 ^ (8 * f.1 + f.2.1)) 0
  let known := body + 0xFF + 0x1F * 2 ^ 8 + 0xFFFF * 2 ^ 16
  decide (1 ≤ x.op ∧ x.op ≤ 8) && decide (n &&& known = n) && (!x.order || x.op == 1)

/-- The ranges of a STREAM with ORDER (R428). -/
def RingCmd.ranges (x : RingCmd) : List (Nat × Nat × Bool) :=
  if x.op == 1 && x.order then
    [(x.f 0x18 0 48, x.f 0x20 0 40, false), (x.f 0x28 0 48, x.f 0x30 0 40, true)].filter fun r => r.2.1 != 0
  else []

/-! ### The scoreboard (R428 to R430, R434) -/

def overlaps (a b : Nat × Nat × Bool) : Bool := decide (a.1 < b.1 + b.2.1 ∧ b.1 < a.1 + a.2.1)

/-- Rings that a gallery serves. -/
def State.ringsOf (s : State) (g : Nat) : List Nat := (List.range 64).filter fun r => (s.ringHome r).any fun k => k.1 == g
/-- Scoreboard entries of a gallery in use, with the context of each. -/
def State.board (s : State) (g : Nat) : List (Nat × Nat × Nat × Bool) :=
  (s.ringsOf g).flatMap fun r => ((s.ring r).out.filter fun o => !o.fin).flatMap fun o => o.ranges.map fun x => (ringCtx r, x)
/-- A range of a context conflicts with an entry: one of them is written and they overlap (R429). (DEDUCED, log entry 102) -/
def State.conflicts (s : State) (g c : Nat) (rs : List (Nat × Nat × Bool)) : Bool :=
  rs.any fun x => (s.board g).any fun e => e.1 == c && (x.2.2 || e.2.2.2) && overlaps x e.2

/-! ### Dispatch (R416 to R426) -/

/-- A stopping status (R431). -/
def stopping (st : Nat) : Bool := decide (5 ≤ st ∧ st ≤ 10)
/-- The outcome of a command whose write ended with a status (R418, R421). -/
def withWrite (st w : Nat) : Nat := if stopping st then st else if w ≠ 0 then w else st

/-- Commands whose completion holds the ring. -/
def holdsRing (op : Nat) : Bool := op == 3 || op == 4 || op == 5 || op == 6

/-- The list whose commands are being dispatched belongs to this outstanding JUMP. -/
def OutCmd.isJump (o : OutCmd) : Bool := o.op == 8 && !o.list

/-- The status of a write that is complete only once both dies have it. -/
def onBothDies : Nat := 16

/-- An aligned four-byte write by command `id` of a ring to a TVA (R418, R421): none while its target holds accesses, else
its status, or `onBothDies`. `st` is the command's outcome so far. -/
def State.ringWrite (s : State) (r g sc op tva data id st : Nat) : Option Nat × State :=
  let c := ringCtx r
  let t := s.translateNow g c tva sc .wr (.ring r)
  match t.1 with
  | none => (none, t.2)
  | some (.error f) => (some 4, t.2.faultRec c 1 true f.kind f.level 4 (1 + r * 2 ^ 8 + op * 2 ^ 32 + tva % 2 ^ 48 * 2 ^ 64))
  | some (.ok dpa) => match t.2.target dpa with
    | .error e => (some 10, t.2.flagTarget dpa e)
    | .ok x =>
      let who : Acc := ⟨g, sc, c, 0⟩
      if !s.tgtFree x who then (none, s.tgtHold x who (128 + r) dpa)
      else
        let w := (t.2.tgtGo x who (128 + r) dpa).memWrite dpa x (enables (dpa % 64) 4) (atOffset (dpa % 64) (leBytes 4 data)) 0 who 4 ⟨2, r, 0, sc, c⟩ fun o => .ring r id (withWrite st o.status.code)
        (some ((w.1.map fun o => o.status.code).getD onBothDies), w.2)

/-- What a command does at its dispatch: held, or its outcome if it has one already, with its record. -/
inductive Disp where
  | hold (s : State)
  | go (o : OutCmd) (s : State)

/-- A tally operation of command `id` of a ring. -/
def State.ringTally (s : State) (r id sc top virt n timeout : Nat) : State :=
  s.tallyOp ⟨.ring r, ringCtx r, top, virt, n, timeout, sc, 0, id⟩

/-- The state with a new outstanding command, and then an effect on it. -/
def State.pushOut (s : State) (r : Nat) (o : OutCmd) : State := s.modRing r fun x => { x with out := x.out ++ [o], nextId := x.nextId + 1 }

/-- STREAM (R416, R417): the dispatch message travels on the stair to a queue of another gallery (R425). -/
def dispStream (s : State) (r g : Nat) (x : RingCmd) (o : OutCmd) : Disp :=
  let q := x.f 8 0 7
  if !s.queueServes q (ringCtx r) then .go { o with res := some 5 } s
  else if !s.queueRoom q || !s.routeFree ⟨g, x.sc, ringCtx r, 0⟩ (q / 16) then .hold s
  else
    let s := if q / 16 = g then s else s.stairSend g (2 ^ (q / 16)) x.sc (ringCtx r) 0 false 0
    .go { o with ranges := x.ranges } (s.acceptDesc q (x.f 0x10 0 48) x.sc r o.id)

/-- A command that R10 rejects ends with ERROR, and the rejection is logged. -/
def dispReject (s : State) (r g : Nat) (x : RingCmd) (o : OutCmd) : Disp :=
  .go { o with res := some 10 } (s.logRec (fmnPage g) 0x1F (detRing r (ringCtx r) x.op 10 x.count) false false)

def dispTallyOp (s : State) (r g : Nat) (x : RingCmd) (o : OutCmd) : Disp :=
  let top := x.f 8 0 4
  let dest := if x.f 8 4 1 = 1 then some (x.f 0x18 0 48, x.sc) else none
  if top = 5 then .go { o with res := some 5 } s
  else if 7 < top then dispReject s r g x o
  else if top = 2 ∨ top = 3 ∨ top = 6 ∨ dest.any (fun d => d.1 % 4 != 0) then .go { o with res := some 10 } s
  else .go { o with top := top, dest := dest } s

def dispNote (s : State) (r g : Nat) (x : RingCmd) (o : OutCmd) : Disp :=
  let data := x.f 0x10 0 32
  let addr := x.f 0x18 0 48
  let int (s : State) : State := if x.f 8 0 1 = 1 then s.sendInt (ringCtx r) x.sc 1 r (x.f 0xC 0 16) data else s
  if x.f 8 1 1 = 1 then
    if addr % 4 ≠ 0 then .go { o with res := some 10 } s
    else
      let w := s.ringWrite r g x.sc 7 addr data o.id 0
      match w.1 with
      | none => .hold w.2
      | some st => .go { o with res := if st = onBothDies then none else some st } (int w.2)
  else .go { o with res := some 0 } (int s)

/-- The step barrier of the event context, if event mode is on for it and it has contributors (R420, R551). -/
def State.stepBarrier (s : State) (c : Nat) : Option (Nat × Nat) :=
  let t : Page := ⟨.TEV, c⟩
  if s.flag pgEVM F.EVM_EVM_CTRL_EN && s.get pgEVM F.EVM_EVM_CTRL_CTX == c && s.get t F.TEV_STEP_BARRIER_EXT != 0 then
    some (s.get t F.TEV_STEP_BARRIER_TALLY, 8 + s.get t F.TEV_STEP_BARRIER_EXT)
  else none

/-- The tally operation that a dispatched command sends. -/
def State.sendCmd (s : State) (r : Nat) (x : RingCmd) (o : OutCmd) : State :=
  if o.res.isSome then s
  else if x.op = 2 then s.ringTally r o.id x.sc o.top (x.f 0xA 0 13) (x.f 0xC 0 24) 0
  else if x.op = 3 then s.ringTally r o.id x.sc (2 + x.f 8 0 1) (x.f 0xA 0 13) (x.f 0xC 0 24) (x.f 0x10 0 32)
  else if x.op = 4 then s.ringTally r o.id x.sc 6 (x.f 0xA 0 13) (x.f 0xC 0 24) (if x.f 8 0 1 = 1 then nowait else x.f 0x10 0 32)
  else if x.op = 5 then match s.stepBarrier (ringCtx r) with
    | some (v, n) => s.ringTally r o.id x.sc 6 v n (if x.f 8 0 1 = 1 then nowait else x.f 0x10 0 32)
    | none => s
  else s

/-- A command needs a waiter record now (R426, R437). (DEDUCED, log entry 99) -/
def RingCmd.waits (x : RingCmd) : Bool :=
  (x.op == 3 && x.f 0x10 0 32 != nowait) || ((x.op == 4 || x.op == 5) && x.f 8 0 1 == 0 && x.f 0x10 0 32 != nowait)

/-- The ring's conditions of R426 that do not depend on the command's own work. -/
def Ring.ready (y : Ring) (x : RingCmd) : Bool :=
  let live := y.out.filter fun o => !o.fin
  !(live.any fun o => holdsRing o.op) && decide (live.length < 32) &&
  (!x.sync || (live.filter fun o => !(x.list && o.isJump)).isEmpty)

/-- The effect of one command at its dispatch, by its opcode. -/
def dispEffect (s : State) (r g : Nat) (x : RingCmd) (o : OutCmd) : Disp :=
  if !x.wellFormed then dispReject s r g x o
  else if x.op = 1 then dispStream s r g x o
  else if x.op = 2 then dispTallyOp s r g x o
  else if x.op = 5 then .go (if (s.stepBarrier (ringCtx r)).isSome then o else { o with res := some 10 }) s
  else if x.op = 6 then .go o s
  else if x.op = 7 then dispNote s r g x o
  else if x.op = 8 ∧ (x.list ∨ x.f 0x10 0 48 % 64 ≠ 0) then .go { o with res := some 10 } s
  else .go o s

/-- HEAD and the ring after the dispatch of its oldest command (R413, R422). (DEDUCED, log entry 98) -/
def State.dispatched (s : State) (r : Nat) (x : RingCmd) (o : OutCmd) : State :=
  let jump := x.op == 8 && o.res.isNone
  let y := s.ring r
  let y := { y with fetched := y.fetched.drop 1, sbHeld := false, sbFull := false, waitFull := false, held := false }
  let y := if jump then { y with fetched := [], next := (x.count + 1) % 2 ^ 16, list := some (x.f 0x10 0 48, x.f 8 0 12 + 1, x.count) }
    else if x.last then { y with list := none, out := y.out.map fun o => if o.isJump && o.res.isNone then { o with res := some 0 } else o }
    else y
  let s := s.setRing r y
  if jump ∨ (x.list ∧ !x.last) then s else s.ringSet r F.TDB_RING_PTR_HEAD ((x.count + 1) % 2 ^ 16)

/-- A hold that is counted once for a command. -/
def State.holdRing (s : State) (r : Nat) : State := s.modRing r fun y => { y with held := true }

/-- Try to dispatch the oldest command of a ring, if it is one of the opcodes that `want` names. -/
def State.dispatch (s : State) (r : Nat) (want : Nat → Bool) : State :=
  match s.ringHome r with
  | none => s
  | some (g, _) =>
    let y := s.ring r
    match y.fetched.head? with
    | none => s
    | some x =>
      let p := fmnPage g
      let c := ringCtx r
      let rs := x.ranges
      if !want x.op || !s.running p || y.stopped || s.isFatal then s
      else if !y.ready x then s.holdRing r
      else if s.conflicts g c rs then
        let s := if y.sbHeld then s else s.count p F.FMN_SB_HELD
        s.modRing r fun y => { y with sbHeld := true, held := true }
      else if 64 < (s.board g).length + rs.length then
        let s := if y.sbFull then s else (s.count p F.FMN_SB_FULL_COUNT).raise p Err.FMN_SB_FULL (detRing r c x.op 0 x.count)
        s.modRing r fun y => { y with sbFull := true, held := true }
      else if x.wellFormed && x.waits && decide (2048 ≤ s.hall.waiters.length) then
        let s := if y.waitFull then s else (s.count p F.FMN_WAITER_FULL_COUNT).raise p Err.FMN_WAITER_FULL (detRing r c x.op 0 x.count)
        s.modRing r fun y => { y with waitFull := true, held := true }
      else
        let o : OutCmd := { id := y.nextId, op := x.op, tag := x.tag, count := x.count, list := x.list }
        match dispEffect s r g x o with
        | .hold s => s.holdRing r
        | .go o s =>
          let s := ((s.pushOut r o).dispatched r x o).countW p F.FMN_CMDS
          (s.traceEv 4 g c (r + x.op * 2 ^ 6 + x.count * 2 ^ 14)).sendCmd r x o

/-! ### Completion (R414, R416, R418, R431, R432) -/

/-- An answer of the hall for a ring. -/
def State.ringAnswer (s : State) (r : Nat) (a : TallyAns) : State :=
  match (s.ring r).out.find? fun o => o.id == a.tag && o.res.isNone with
  | none => s
  | some o =>
    let word := a.res.val + b2n a.res.sat * 2 ^ 24 + b2n a.res.orph * 2 ^ 25
    s.modRing r fun y => { y with out := y.out.map fun z => if z.id == o.id then { z with res := some a.res.st, sat := a.res.sat, word := word } else z }

/-- Take the hall's answers for rings. -/
def State.ringAnswers (s : State) : State :=
  let mine := s.hall.answers.filter fun a => match a.who with | .ring _ => true | _ => false
  let s := s.modHall fun h => { h with answers := h.answers.filter fun a => match a.who with | .ring _ => false | _ => true }
  foldS (fun a s => match a.who with | .ring r => s.ringAnswer r a | _ => s) mine s


/-- Commands that have left the ring from its front; COMPLETE counts those of the ring itself (R414). -/
def popDone : List OutCmd → Nat × List OutCmd
  | [] => (0, [])
  | o :: os => if o.fin then let r := popDone os; (r.1 + (if o.list then 0 else 1), r.2) else (0, o :: os)

/-- The end of one command with its status: counts, the stop, COMPLETE (R414, R431, R432). (DEDUCED, log entry 100) -/
def State.endCmd (s : State) (r : Nat) (o : OutCmd) (st : Nat) : State :=
  let c := ringCtx r
  match s.slotsOf r with
  | [] => s.modRing r fun y => { y with out := y.out.filter fun z => z.id != o.id }
  | k :: _ =>
    let g := k / 8
    let p := fmnPage g
    let stop := s.flag p (F.FMN_RING_SLOT_ERR_STOP.at (k % 8))
    let s := if stopping st then
        let s := s.count p F.FMN_STOPS
        let s := if s.ringGet r F.TDB_RING_STAT_STOP_STATUS = 0 then
            let s := ((s.ringSet r F.TDB_RING_STAT_STOP_STATUS st).ringSet r F.TDB_RING_STAT_STOP_CMD o.op).ringSet r F.TDB_RING_STAT_STOP_INDEX o.count
            s.set (tdbPage c) (F.TDB_RING_STOPTAG_TAG.at (r % 4)) o.tag
          else s
        if !stop ∨ (s.ring r).stopped then s
        else ((s.modRing r fun y => { y with stopped := true }).raise p Err.FMN_RING_STOPPED (detRing r c o.op st o.count)).faultRec c 4 false 0 0 st
          (r + o.op * 2 ^ 8 + o.count * 2 ^ 16 + o.tag * 2 ^ 32)
      else if st = 2 ∨ st = 3 ∨ st = 4 ∨ (o.op = 2 ∧ o.sat) then s.count p F.FMN_FLAGGED
      else s
    let y := s.ring r
    let d := popDone (y.out.map fun z => if z.id == o.id then { z with fin := true, res := some st } else z)
    (s.setRing r { y with out := d.2 }).ringSet r F.TDB_RING_PTR_COMPLETE ((s.ringGet r F.TDB_RING_PTR_COMPLETE + d.1) % 2 ^ 16)

/-- A FENCE at position i completes when every command before it has left the ring. -/
def fenceDone (out : List OutCmd) (i : Nat) : Bool :=
  match out[i]? with
  | some o => o.op == 6 && o.res.isNone && ((out.take i).filter fun z => !z.fin && !(o.list && z.isJump)).isEmpty
  | none => false

/-- Command i of the outstanding ones completes, with the write of its response word (R418). (DEDUCED, log entry 97) -/
def State.completeCmd (s : State) (r i : Nat) : State :=
  let y := s.ring r
  match y.out[i]? with
  | none => s
  | some o =>
    if o.fin then s
    else match o.res with
      | none => if fenceDone y.out i then s.endCmd r o 0 else s
      | some st => match o.dest with
        | none => s.endCmd r o st
        | some (tva, sc) =>
          let g := ((s.ringHome r).map (·.1)).getD 0
          let w := s.ringWrite r g sc 2 tva o.word o.id st
          match w.1 with
          | none => w.2
          | some x =>
            if x = onBothDies then w.2.modRing r fun y => { y with out := y.out.map fun z => if z.id == o.id then { z with dest := none, res := none } else z }
            else w.2.endCmd r o (withWrite st x)

/-! ### Ring commands of the TDB page and slots (R410, R433, R443, R449) -/

/-- RING_CMD_r.RESTART. -/
def State.ringRestart (s : State) (r : Nat) : State :=
  let y := s.ring r
  if y.stopped ∨ y.faulted then
    let s := s.setRing r { y with stopped := false, faulted := false }
    let s := ((s.ringSet r F.TDB_RING_STAT_STOP_STATUS 0).ringSet r F.TDB_RING_STAT_STOP_CMD 0).ringSet r F.TDB_RING_STAT_STOP_INDEX 0
    s.set (tdbPage (ringCtx r)) (F.TDB_RING_STOPTAG_TAG.at (r % 4)) 0
  else s.ringSet r F.TDB_RING_STAT_DB_IGNORED 1

def State.ringClear (s : State) (r : Nat) : State := s.ringSet r F.TDB_RING_STAT_DB_IGNORED 0

/-- A write of RING_SLOT_s.EN (R410). -/
def State.slotEn (s : State) (g k : Nat) (on : Bool) : State :=
  let p := fmnPage g
  let r := s.get p (F.FMN_RING_SLOT_RING.at k)
  if on then
    if (s.slotsOf r).any fun j => j != 8 * g + k then s.raise p Err.FMN_BAD_VALUE
    else if s.flag p (F.FMN_RING_SLOT_EN.at k) then s
    else (s.set p (F.FMN_RING_SLOT_EN.at k) 1).refetch r
  else (s.set p (F.FMN_RING_SLOT_EN.at k) 0).refetch r

/-- RING_STAT_r.STATE (Table 10-8). -/
def State.ringState (s : State) (r : Nat) : Nat :=
  let y := s.ring r
  match s.ringHome r with
  | none => 0
  | some _ =>
    if y.stopped then 6
    else if y.faulted then 5
    else if y.out.any fun o => !o.fin && (o.op == 3 || o.op == 4 || o.op == 5) then 3
    else if y.held then 4
    else if !y.out.isEmpty ∨ !y.fetched.isEmpty ∨ y.next ≠ s.tail r then 2
    else 1

/-! ### Resets and context ends (R440, R447) -/

/-- A ring is purged: everything it holds is discarded, its counts and stop record clear, its slot is off. -/
def State.ringPurge (s : State) (r : Nat) : State :=
  let c := ringCtx r
  let s := foldS (fun k s => s.set (fmnPage (k / 8)) (F.FMN_RING_SLOT_EN.at (k % 8)) 0) (s.slotsOf r) s
  let s := s.cancelWaits (fun q => q.who == .ring r) (some .retired)
  let s := (s.orphanAll fun h => h.who == .ring r).setRing r { nextId := (s.ring r).nextId }
  let s := (s.ringSet r F.TDB_DOORBELL_TAIL 0).wr (tdbPage c) (F.TDB_RING_PTR_HEAD.at (r % 4)).off 0
  let s := ((s.ringSet r F.TDB_RING_STAT_STOP_STATUS 0).ringSet r F.TDB_RING_STAT_STOP_CMD 0).ringSet r F.TDB_RING_STAT_STOP_INDEX 0
  s.wr (tdbPage c) (F.TDB_RING_STOPTAG_TAG.at (r % 4)).off 0

/-- A soft reset of an FMN page (R447). (DEDUCED, log entry 101) -/
def State.fmnSoftReset (s : State) (g : Nat) : State :=
  foldS (fun r s =>
    let s := s.cancelWaits (fun q => q.who == .ring r && q.top == 3) (some .aborted)
    let s := ((s.refetch r).modRing r fun y => { y with stopped := true, faulted := false, held := false }).orphanAll fun h => h.who == .ring r
    ((s.ringSet r F.TDB_RING_STAT_STOP_STATUS 9).ringSet r F.TDB_RING_STAT_STOP_CMD 0).ringSet r F.TDB_RING_STAT_STOP_INDEX (s.head r))
    (s.ringsOf g) s

/-- The mirrored write of a command is complete on both dies (R594). -/
def State.ringMirrored (s : State) (r id st : Nat) : State :=
  s.modRing r fun y => { y with out := y.out.map fun z => if z.id == id then { z with res := some st } else z }

end Sys2Proof.Machine
end

