-- ==== Sys2Proof/Machine/Event.lean ====
section
/-! DEFINITION. Event mode (chapter 13): populations, dynamics, routes, landings, kernels, encoders and decoders, steps,
and the tables with their swap. -/

namespace Sys2Proof.Machine

def cryPage (g : Nat) : Page := ⟨.CRY, g⟩
def tevPage (c : Nat) : Page := ⟨.TEV, c⟩

def State.crier (s : State) (g : Nat) : Crier := (find s.criers g).getD {}
def State.setCrier (s : State) (g : Nat) (x : Crier) : State := { s with criers := put s.criers g x }
def State.modCrier (s : State) (g : Nat) (f : Crier → Crier) : State := s.setCrier g (f (s.crier g))
def State.modEvent (s : State) (f : EventSt → EventSt) : State := { s with event := f s.event }

/-- The event context, its page, the class of crier requests (R533, R795). -/
def State.evCtx (s : State) : Nat := s.get pgEVM F.EVM_EVM_CTRL_CTX
def State.evOn (s : State) : Bool := s.flag pgEVM F.EVM_EVM_CTRL_EN
def State.evPage (s : State) : Page := tevPage s.evCtx
def State.evClass (s : State) : Nat := s.get pgEVM F.EVM_EVM_CTRL_CLASS
def State.stepNum (s : State) : Nat := s.get s.evPage F.TEV_STEP_NUM

/-! ### Flags of the open step's record part (Table 13-8): bit 0 is STEP_LOSSY, bit 16 of the part -/

def fLossy : Nat := 0
def fLate : Nat := 1
def fSwapped : Nat := 2
def fEncReset : Nat := 3
def fEncMixer : Nat := 4
def fEvalPoison : Nat := 5
def fRoute : Nat := 6
def State.evFlag (s : State) (g b : Nat) : State := s.modCrier g fun x => { x with flags := x.flags ||| 2 ^ b }

/-! ### Tables (R566, Tables 13-2 to 13-6) -/

def tROUTE : Nat := 0
def tKERNEL : Nat := 1
def tPOP : Nat := 2
def tCONV : Nat := 3
/-- Entries of a table; words of an entry. -/
def tblSize (t : Nat) : Nat := if t = 0 then 2048 else if t = 1 then 256 else if t = 2 then 64 else 16
def tblWords (t : Nat) : Nat := if t = 1 then 2 else 4
/-- The key of an entry; populations are device-wide. -/
def tblKey (t g i : Nat) : Nat := t * 2 ^ 20 + (if t = 2 then 0 else g) * 2 ^ 16 + i
def State.liveEnt (s : State) (t g i : Nat) : Nat := (find s.event.live (tblKey t g i)).getD 0
def State.shadowEnt (s : State) (t g i : Nat) : Nat := (find s.event.shadow (tblKey t g i)).getD 0
/-- A table list with an entry set; a zero entry is unlisted. -/
def putEnt (m : List (Nat × Nat)) (k v : Nat) : List (Nat × Nat) := if v = 0 then del m k else put m k v

/-- Fields of a population entry (Table 13-2). -/
structure Pop where
  en : Bool
  eval : Bool
  gal : Nat
  base : Nat
  h : Nat
  w : Nat
  c : Nat
  fence : Nat
  thr : Int
  vreset : Int
  bias : Int
  leak : Nat
  ref : Nat
  deriving DecidableEq, Repr

def popOf (e : Nat) : Pop :=
  { en := bit e 0, eval := bit e 1, gal := bits e 2 3, base := bits e 8 24 * 64, h := bits e 32 9 + 1, w := bits e 41 9 + 1, c := bits e 50 8 + 1
    fence := bits e 58 4, thr := toSigned 16 (bits e 64 16), vreset := toSigned 16 (bits e 80 16), bias := toSigned 16 (bits e 96 16)
    leak := bits e 112 4, ref := bits e 116 6 }
def State.pop (s : State) (i : Nat) : Pop := popOf (s.liveEnt tPOP 0 i)
def Pop.size (p : Pop) : Nat := p.c * p.h * p.w

/-- Fields of a kernel entry (Table 13-4). -/
structure Kern where
  en : Bool
  k : Nat
  sh : Nat
  wshift : Nat
  cout : Nat
  cin : Nat
  wbase : Nat
  deriving DecidableEq, Repr

def kernOf (e : Nat) : Kern := ⟨bit e 0, 2 * bits e 1 2 + 1, bits e 3 2, bits e 5 3, bits e 8 8 + 1, bits e 16 8 + 1, bits e 32 32⟩

/-- The event key of a neuron (R539). -/
def evKey (p c y x : Nat) : Nat := p * 2 ^ 26 + c * 2 ^ 18 + y * 2 ^ 9 + x

/-- The neurons of a population in record order: n = (y * W + x) * C + c (R536). -/
def Pop.chan (p : Pop) (n : Nat) : Nat := n % p.c
def Pop.col (p : Pop) (n : Nat) : Nat := n / p.c % p.w
def Pop.row (p : Pop) (n : Nat) : Nat := n / p.c / p.w

/-! ### Arena accesses (R534) -/

/-- A crier's access. -/
def State.crierAcc (s : State) (g : Nat) : Acc := ⟨g, s.evClass, s.evCtx, 0⟩

def State.arenaBase (s : State) (g : Nat) : Nat := s.get (cryPage g) F.CRY_ARENA_BASE_BASE * 2 ^ 12
def State.arenaSize (s : State) (g : Nat) : Nat := s.get (cryPage g) F.CRY_ARENA_SIZE_BLOCKS * 2 ^ 12
def State.inArena (s : State) (g off n : Nat) : Bool := decide (off + n ≤ s.arenaSize g)

/-- Read, write and add at the line that holds an arena offset. -/
def State.arenaAt (s : State) (g off : Nat) : Nat × Nat := s.locate (s.arenaBase g + off)
def State.arenaRead (s : State) (g off : Nat) : LineRd × State :=
  let x := s.arenaAt g off
  ((s.served (s.crierAcc g) (x.1 / 64) 0 64 true false).countW (tctPage s.evCtx) F.TCT_RD_BYTES 64).bankRead x.1 x.2
/-- (DEDUCED, log entry 121) -/
def State.arenaWrite (s : State) (g off en : Nat) (data : List Byte) : State :=
  let x := s.arenaAt g off
  (((s.served (s.crierAcc g) (x.1 / 64) 0 (popCount 64 en) false true).countW (tctPage s.evCtx) F.TCT_WR_BYTES (popCount 64 en)).bankWrite x.1 x.2 en data).2

/-- A saturating INT16 add to the enabled lanes of a line (R547, R562): the poisoned granules. -/
def State.arenaAdd (s : State) (src g off en : Nat) (data : List Byte) : Nat × State :=
  let x := s.arenaAt g off
  let a : AtomReq := { atop := .add, fmt := .int16, rnd := .rne, sat := true, fetch := false, salt := 0, key := 0, en := en, opnd := data, cmp := [] }
  let r := ((s.served (s.crierAcc src) (x.1 / 64) 0 (popCount 64 en) false true).countW (tctPage s.evCtx) F.TCT_ATOMICS).bankAtomic x.1 x.2 a
  match r.1 with
  | some (_, w) => (w.poison, r.2)
  | none => (0, r.2)

/-- Write bytes at an arena offset, line by line. -/
def State.arenaPut (s : State) (g off : Nat) (bs : List Byte) : State :=
  let lines := (off % 64 + bs.length + 63) / 64
  foldS (fun i s =>
    let lo := if i = 0 then off % 64 else 0
    let at' := if i = 0 then 0 else 64 * i - off % 64
    let part := (bs.drop at').take (64 - lo)
    s.arenaWrite g (alignDown off 64 + 64 * i) (enables lo part.length) (atOffset lo part)) (List.range lines) s

/-- Count EXPAND_ERRORS and its flag (R549). -/
def State.expandError (s : State) (g : Nat) : State :=
  (s.count (cryPage g) F.CRY_EXPAND_ERRORS).raise (cryPage g) Err.CRY_EXPAND_ERROR

/-- An atomic whose target lies outside the arena is not made (R580). -/
def State.arenaViolation (s : State) (g : Nat) : State :=
  (s.count (cryPage g) F.CRY_EXPAND_ERRORS).raise (cryPage g) Err.CRY_ARENA_VIOLATION

/-- Poisoned granules met by the evaluator or an atomic (R538, R549). -/
def State.evalPoison (s : State) (g n : Nat) : State :=
  if n = 0 then s else (s.count (cryPage g) F.CRY_EVAL_POISONED n)

/-! ### Routes (R540 to R543) -/

/-- A key matches a route entry. -/
def matchRoute (e key : Nat) : Bool := bit e 64 && ((key &&& bits e 32 32) == (bits e 0 32 &&& bits e 32 32))

/-- The enabled entries of a crier that match a key, by index, SEND or local. -/
def State.matches (s : State) (g key : Nat) (send : Bool) : List Nat :=
  (s.event.live.filter fun x => x.1 / 2 ^ 16 == g && decide (x.1 < 2 ^ 20) && matchRoute x.2 key && ((bits x.2 65 2 == 0) == send)).map (·.2)

/-- Matches beyond 16 are ignored and counted. -/
def State.routeOver (s : State) (g n : Nat) : State :=
  if 16 < n then ((s.count (cryPage g) F.CRY_ROUTE_OVERFLOW (n - 16)).raise (cryPage g) Err.CRY_ROUTE_OVERFLOW).evFlag g fRoute else s

/-- Source routing: for each delay, the event goes to every gallery that the matching SEND entries name. (DESIGN CHOICE, log entry 117) -/
def State.routeSource (s : State) (g key : Nat) : State :=
  let ms := s.matches g key true
  let s := (s.routeOver g ms.length).countW (cryPage g) F.CRY_EVENTS
  let s := s.modCrier g fun x => { x with events := x.events + 1 }
  let ms := ms.take 16
  let fl := (List.range 16).flatMap fun d =>
    let mask := (ms.filter fun e => bits e 80 4 == d).foldl (fun m e => m ||| bits e 72 8) 0
    (List.range 8).filterMap fun h => if mask.testBit h then some (⟨h, key, d, s.stepNum⟩ : Flight) else none
  let s := foldS (fun d s =>
    s.stairSend g ((ms.filter fun e => bits e 80 4 == d).foldl (fun m e => m ||| bits e 72 8) 0) s.evClass s.evCtx 0 false) (List.range 16) s
  s.modEvent fun e => { e with flights := e.flights ++ fl }

/-! ### Landings (R544, R545, R569, R570) -/

def State.landBase (s : State) (g : Nat) : Nat := s.get (cryPage g) F.CRY_LAND_BASE_BASE * 2 ^ 12
def State.poolSize (s : State) (g : Nat) : Nat := s.get (cryPage g) F.CRY_LAND_SIZE_BLOCKS * 64

/-- A record of a step's bucket is lost (R545, R578). -/
def State.dropRecord (s : State) (g bucket n : Nat) : State :=
  if n = 0 then s
  else
    let s := s.modCrier g fun x => { x with dropped := put x.dropped bucket ((find x.dropped bucket).getD 0 + n) }
    (s.count (cryPage g) F.CRY_DROPPED n).raise (cryPage g) Err.CRY_STEP_LOSSY

/-- Insert a landing record into a bucket: the next place of its last chunk, or the lowest free chunk. -/
def State.land (s : State) (g bucket key pop kern : Nat) : State :=
  let x := s.crier g
  let n := (find x.counts bucket).getD 0
  let mine := (find x.chunks bucket).getD []
  let used := x.chunks.flatMap (·.2)
  let spot : Option (Nat × List Nat) :=
    if n % 8 ≠ 0 then (mine.getLast?).map fun c => (c, mine)
    else ((List.range (s.poolSize g)).find? fun c => !used.contains c).map fun c => (c, mine ++ [c])
  match spot with
  | none => s.dropRecord g bucket 1
  | some (c, cs) =>
    let y := s.locate (s.landBase g + c * 64)
    let s := (((s.served (s.crierAcc g) (y.1 / 64) 0 8 false true).countW (tctPage s.evCtx) F.TCT_WR_BYTES 8).bankWrite y.1 y.2 (enables (8 * (n % 8)) 8)
      (atOffset (8 * (n % 8)) (leBytes 8 (key % 2 ^ 32 + (pop + kern * 2 ^ 6) * 2 ^ 32)))).2
    s.setCrier g { s.crier g with counts := put x.counts bucket (n + 1), chunks := put x.chunks bucket cs }

/-! ### Destination (R542, R543, R562) -/

/-- One event for a decoder (R562). -/
def State.decode (s : State) (g d key : Nat) : State :=
  let e := s.liveEnt tCONV g (8 + d)
  let p := s.pop (bits e 3 6)
  let c := bits key 18 8
  let y := bits key 9 9
  let x := bits key 0 9
  if bit e 0 && bits key 26 6 == bits e 3 6 && decide (c < p.c ∧ y < p.h ∧ x < p.w) then
    let off := bits e 32 32 + 2 * ((y * p.w + x) * p.c + c)
    if s.inArena g off 2 then (s.arenaAdd g g off (enables (off % 64) 2) (atOffset (off % 64) [1, 0])).2
    else s.arenaViolation g
  else s.count (cryPage g) F.CRY_DEC_MISMATCH

/-- The EVT of up to 14 keys (R258, R543). -/
def evtMsg (sc vc ctx step : Nat) (keys : List Nat) : Msg :=
  let n := keys.length
  let h := BitVec.ofNat 128 (opEVT + sc * 2 ^ 17 + vc * 2 ^ 20 + ctx * 2 ^ 24 + n * 2 ^ 32 + step % 2 ^ 24 * 2 ^ 40 +
    keys.getD 0 0 * 2 ^ 64 + keys.getD 1 0 * 2 ^ 96)
  ⟨h, padSlots ((keys.drop 2).flatMap fun k => leBytes 4 k)⟩

/-- Send keys to a module, in EVTs of at most 14; a module that does not hold the context gets none (R259). -/
def State.sendEvt (g m : Nat) : Nat → List Nat → State → State
  | 0, _, s => s
  | _ + 1, [], s => s
  | fuel + 1, ks, s =>
    let c := s.evCtx
    if !s.authorised m c || s.isTwin m then
      sendEvt g m fuel (ks.drop 14)
        ((s.count (modPage m) F.MOD_EVT_REFUSED).raise (modPage m) Err.MOD_EVT_REFUSED (detReq m 0 opEVT c 5 1 (ks.take 14).length) true)
    else
      let vc := s.vcMap m s.evClass
      let s' := (s.send m ⟨evtMsg s.evClass vc c s.stepNum (ks.take 14), vc, c, .plain⟩).count (cryPage g) F.CRY_EVT_OUT
      sendEvt g m fuel (ks.drop 14) s'

/-- An event reaches its destination crier: each local match acts (R542). -/
def State.deliver (s : State) (f : Flight) : State :=
  let ms := s.matches f.g f.key false
  let s := s.routeOver f.g ms.length
  foldS (fun e s =>
    let kind := bits e 65 2
    if kind = 1 then s.land f.g ((f.step + f.d) % 16) f.key (bits e 72 6) (bits e 80 8)
    else if kind = 2 then s.decode f.g (bits e 72 3) f.key
    else s.modCrier f.g fun x => let j := bits e 72 1; { x with out := put x.out j ((find x.out j).getD [] ++ [f.key]) }) (ms.take 16) s

/-- The oldest event on its way to a crier arrives. -/
def State.eventDelivery (s : State) (g : Nat) : State :=
  if !s.running pgMMAP then s
  else match takeFirst (fun f => f.g == g) s.event.flights with
    | none => s
    | some (f, rest) => (s.modEvent fun e => { e with flights := rest }).deliver f

/-! ### The expand unit (R546 to R549, R580) -/

/-- The taps of a kernel that reach a target position: (dy + r, dx + r, oy, ox). -/
def taps (p : Pop) (k : Kern) (key : Nat) : List (Nat × Nat × Nat × Nat) :=
  let iy := bits key 9 9
  let ix := bits key 0 9
  let r := k.k / 2
  (List.range k.k).flatMap fun ky => (List.range k.k).filterMap fun kx =>
    -- ny = iy - dy with dy = ky - r
    if iy + r < ky ∨ ix + r < kx then none
    else
      let ny := iy + r - ky
      let nx := ix + r - kx
      let oy := ny / 2 ^ k.sh
      let ox := nx / 2 ^ k.sh
      if ny % 2 ^ k.sh ≠ 0 ∨ nx % 2 ^ k.sh ≠ 0 ∨ p.h ≤ oy ∨ p.w ≤ ox then none
      else if p.fence ≠ 0 ∧ (oy / 2 ^ p.fence ≠ iy / 2 ^ (p.fence + k.sh) ∨ ox / 2 ^ p.fence ≠ ix / 2 ^ (p.fence + k.sh)) then none
      else some (ky, kx, oy, ox)

/-- The COUT weight bytes of a tap; none when one lies in a granule that is not good (R549). -/
def State.weights (s : State) (g : Nat) (k : Kern) (ci ky kx : Nat) : Option (List Nat) × State :=
  let off := k.wbase + ((ci * k.k + ky) * k.k + kx) * k.cout
  let lines := (off % 64 + k.cout + 63) / 64
  let r := (List.range lines).foldl (fun (a : List PByte × State) i =>
    let x := a.2.arenaRead g (alignDown off 64 + 64 * i)
    (a.1 ++ x.1.slice 0 64, x.2)) ([], s)
  let bs := (r.1.drop (off % 64)).take k.cout
  let bad := (List.range lines).any fun i => (List.range 8).any fun j =>
    ((r.1.drop (64 * i + 8 * j)).head?.any (·.2)) && decide (off % 64 < 64 * i + 8 * j + 8 ∧ 64 * i + 8 * j < off % 64 + k.cout)
  (if bad then none else some (bs.map fun b => b.1.toNat), r.2)

/-- The atomics of one target position: one for each record line touched (R547). -/
def State.expandAt (s : State) (g : Nat) (p : Pop) (k : Kern) (oy ox : Nat) (ws : List Nat) : State :=
  let n0 := (oy * p.w + ox) * p.c
  let off := p.base + 4 * n0
  let lanes := (List.range k.cout).map fun co => (off + 4 * co, ofSigned 16 (toSigned 8 (ws.getD co 0) * (2 ^ k.wshift : Nat)))
  let lines := (List.range ((off % 64 + 4 * k.cout + 63) / 64)).map fun i => alignDown off 64 + 64 * i
  foldS (fun l s =>
    let mine := lanes.filter fun x => alignDown x.1 64 == l
    if !s.inArena p.gal l 64 then s.arenaViolation g
    else
      let en := mine.foldl (fun n x => n + enables (x.1 % 64) 2) 0
      let data := leBytes 64 (mine.foldl (fun n x => n + x.2 * 2 ^ (8 * (x.1 % 64))) 0)
      let r := s.arenaAdd g p.gal l en data
      (r.2.evalPoison g (popCount 8 r.1)).countW (cryPage g) F.CRY_UPDATES
        (mine.filter fun x => !bit r.1 (x.1 % 64 / 8)).length) lines s

/-- One landing record applied (R546). -/
def State.expand (s : State) (g key pop kern : Nat) : State :=
  let p := s.pop pop
  let k := kernOf (s.liveEnt tKERNEL g kern)
  let ci := bits key 18 8
  if k.cin ≤ ci then s.expandError g
  else foldS (fun (t : Nat × Nat × Nat × Nat) s =>
    let w := s.weights g k ci t.1 t.2.1
    match w.1 with
    | none => w.2.expandError g
    | some ws => w.2.expandAt g p k t.2.2.1 t.2.2.2 ws) (taps p k key) s

/-- DELIVER: every record of the open step's bucket, chunk by chunk, and the chunks return to the pool (R550, R578). -/
def State.deliverBucket (s : State) (g : Nat) : State :=
  let b := s.stepNum % 16
  let x := s.crier g
  let n := (find x.counts b).getD 0
  let cs := (find x.chunks b).getD []
  let s := s.setCrier g { x with counts := del x.counts b, chunks := del x.chunks b }
  foldS (fun (c : Nat × Nat) s =>
    let y := s.locate (s.landBase g + c.1 * 64)
    let r := ((s.served (s.crierAcc g) (y.1 / 64) 0 64 true false).countW (tctPage s.evCtx) F.TCT_RD_BYTES 64).bankRead y.1 y.2
    foldS (fun j s =>
      if r.1.poison j then s.dropRecord g b 1
      else s.expand g (leAt r.1.bytes (8 * j) 4) (bits (leAt r.1.bytes (8 * j + 4) 4) 0 6) (bits (leAt r.1.bytes (8 * j + 4) 4) 6 8))
      (List.range (min 8 (n - 8 * c.2))) r.2) (cs.zip (List.range cs.length)) s

/-! ### Encoders (R558 to R561) -/

/-- The threshold T of RATE (R558). -/
def rateT (fp16 : Bool) (v : Nat) : Nat :=
  if fp16 then match Fmt.fp16.decode v with
    | .fin false m e => if roundUnits m e 0 .rtz 0 ≥ 1 then 0xFFFFFFFF else roundUnits m (e + 32) 0 .rtz 0
    | .inf false => 0xFFFFFFFF
    | _ => 0
  else let i := toSigned 8 v; if i ≤ 0 then 0 else i.toNat * 2 ^ 25

/-- The step q of INTEGRATE (R559). -/
def integQ (fp16 : Bool) (v : Nat) : Nat :=
  if fp16 then match Fmt.fp16.decode v with
    | .fin false m e => if roundUnits m e 0 .rtz 0 ≥ 1 then 32768 else roundUnits m (e + 15) 0 .rne 0
    | .inf false => 32768
    | _ => 0
  else let i := toSigned 8 v; if i ≤ 0 then 0 else i.toNat * 256

/-- The elements of one line of an encoder's input, as (index, value) where their granule is good; errors are counted. -/
def State.encLine (s : State) (g off esize lo n : Nat) : List (Nat × Nat) × State :=
  let r := s.arenaRead g off
  let bad := ((List.range 8).filter fun j => r.1.poison j && decide (8 * j < n * esize)).length
  ((List.range n).filterMap fun i =>
      if r.1.poison (i * esize / 8) then none else some (lo + i, leAt r.1.bytes (i * esize) esize),
   foldS (fun _ s => s.expandError g) (List.range bad) r.2)

/-- An INTEGRATE element: its accumulator moves on; whether it fires. -/
def State.integrate (s : State) (g base e q : Nat) : Bool × State :=
  let off := base + 2 * e
  let r := s.arenaRead g off
  if r.1.poison (off % 64 / 8) then (false, r.2.expandError g)
  else
    let a := leAt r.1.bytes (off % 64) 2 + q
    let fire := decide (32768 ≤ a)
    (fire, r.2.arenaWrite g off (enables (off % 64) 2) (atOffset (off % 64) (leBytes 2 (if fire then a - 32768 else a))))

/-- One encoder reads its whole input and routes what fires. -/
def State.encode (s : State) (g i : Nat) : State :=
  let e := s.liveEnt tCONV g i
  if !bit e 0 then s
  else
    let pn := bits e 3 6
    let p := s.pop pn
    let integ := bit e 1
    let fp16 := bit e 2
    let es := if fp16 then 2 else 1
    let inp := bits e 32 32
    let w2 := bits e 64 32
    let N := p.size
    let fresh := (s.crier g).fresh.contains i
    let s := if integ && fresh then (s.arenaPut g w2 (List.replicate (2 * N) 0)).evFlag g fEncReset else s
    if !integ && !s.mixerUp g then (s.raise (cryPage g) Err.CRY_ENC_MIXER).evFlag g fEncMixer
    else
      let per := 64 / es
      foldS (fun l s =>
        let r := s.encLine g (inp + 64 * l) es (l * per) (min per (N - l * per))
        foldS (fun (x : Nat × Nat) s =>
          let key := evKey pn (p.chan x.1) (p.row x.1) (p.col x.1)
          if integ then
            let y := s.integrate g w2 x.1 (integQ fp16 x.2)
            if y.1 then y.2.routeSource g key else y.2
          else
            let u := mixWord s.event.key w2 4 ((s.stepNum * 2 ^ 32 + x.1) / 4) false (x.1 % 4)
            if u < rateT fp16 x.2 then s.routeSource g key else s) r.1 r.2) (List.range ((N + per - 1) / per)) s

/-! ### Dynamics (R537, R538) -/

/-- Clamp to 16 bits. -/
def sat16 (i : Int) : Int := max (-32768) (min 32767 i)

/-- One record evaluated: its new word and whether it fired. -/
def evalRec (p : Pop) (rec' : Nat) : Nat × Bool :=
  if bit rec' 23 then (rec', false)
  else
    let ref := bits rec' 16 6
    let v := sat16 (toSigned 16 (bits rec' 0 16) + p.bias)
    let r : Int × Nat × Bool :=
      if 0 < ref then (p.vreset, ref - 1, false)
      else if p.thr ≤ v then (p.vreset, p.ref, true)
      else if p.leak ≠ 0 then (v - v / (2 ^ p.leak : Nat), ref, false)
      else (v, ref, false)
    (bits rec' 24 8 * 2 ^ 24 + b2n r.2.2 * 2 ^ 22 + r.2.1 % 64 * 2 ^ 16 + ofSigned 16 r.1, r.2.2)

/-- The records of one line of a population: the line is written whole, but for its granules that are not good (R538). -/
def State.evalLine (s : State) (g pn : Nat) (p : Pop) (l : Nat) : State :=
  let off := p.base + 64 * l
  let r := s.arenaRead g off
  let n := min 16 (p.size - 16 * l)
  let bad := ((List.range 8).filter fun j => r.1.poison j && decide (2 * j < n)).length
  let s := if bad = 0 then r.2 else ((r.2.evalPoison g bad).raise (cryPage g) Err.CRY_EVAL_POISON).evFlag g fEvalPoison
  let ok := (List.range n).filter fun i => !r.1.poison (i / 2)
  let out := ok.map fun i => (i, evalRec p (leAt r.1.bytes (4 * i) 4))
  let en := (List.range 8).foldl (fun m j => if r.1.poison j then m else m + enables (8 * j) 8) 0
  let data := leBytes 64 ((List.range 16).foldl (fun m i => m + 2 ^ (32 * i) * ((find out i).map (·.1)).getD (leAt r.1.bytes (4 * i) 4)) 0)
  let s := if ok.isEmpty then s else s.arenaWrite g off en data
  foldS (fun (x : Nat × Nat × Bool) s =>
    let i := 16 * l + x.1
    if x.2.2 then s.routeSource g (evKey pn (p.chan i) (p.row i) (p.col i)) else s) out s

/-- EVALUATE at a crier. -/
def State.evaluate (s : State) (g : Nat) : State :=
  if (s.crier g).phase ≠ 2 || !s.event.opened || !s.running pgMMAP then s
  else
    let s := foldS (fun pn s =>
      let p := s.pop pn
      if p.en && p.eval && p.gal == g then foldS (fun l s => s.evalLine g pn p l) (List.range ((p.size + 15) / 16)) s else s) (List.range 64) s
    s.modCrier g fun x => { x with phase := 4 }

/-! ### DRAIN (R550, R562 to R565) -/

/-- FP16 bits of a count divided by W, to nearest even (R563). -/
def rateFp16 (count : Int) (w : Nat) : Nat :=
  let m := count.natAbs * 2 ^ 40
  (Fmt.fp16.encodeFloat .rne false 0 (.fin (decide (count < 0)) (2 * (m / w) + b2n (m % w != 0)) (-41))).val

/-- STEP_LOSSY of the open step: some crier dropped a record of it. (DEDUCED, log entry 119) -/
def State.stepLossy (s : State) : Bool := (List.range 8).any fun g => (find (s.crier g).dropped (s.stepNum % 16)).isSome

/-- Read the counters of a decoder: values, whether one is at its maximum, whether a granule was poisoned. -/
def State.decCounts (s : State) (g acc n : Nat) : List (Nat × Bool) × State :=
  foldS (fun l (a : List (Nat × Bool) × State) =>
    let r := a.2.arenaRead g (acc + 64 * l)
    (a.1 ++ (List.range (min 32 (n - 32 * l))).map fun i => if r.1.poison (i / 4) then (0, true) else (leAt r.1.bytes (2 * i) 2, false), r.2))
    (List.range ((n + 31) / 32)) ([], s)

/-- A decoder's output record, with its post (R563, R564). (DEDUCED, log entry 165) -/
def State.decoderOut (s : State) (g d : Nat) : State :=
  let e := s.liveEnt tCONV g (8 + d)
  let w := bits e 9 8 + 1
  let off := bits e 17 8
  let sn := s.stepNum
  let x := (find (s.crier g).decs d).getD {}
  let x := { x with lossy := x.lossy || s.stepLossy }
  if !bit e 0 ∨ sn < off then s
  else if (sn - off + 1) % w ≠ 0 then s.modCrier g fun c => { c with decs := put c.decs d x }
  else
    let k := (sn - off) / w
    let n := (s.pop (bits e 3 6)).size
    let acc := bits e 32 32
    let r := s.decCounts g acc n
    let vals := r.1.map fun v => if bit e 1 then rateFp16 (toSigned 16 v.1) w else v.1
    let flags := b2n (x.settle != 0) * 2 ^ 24 + b2n x.lossy * 2 ^ 25 + b2n (r.1.any fun v => v.1 == 32767) * 2 ^ 26 + b2n (r.1.any (·.2)) * 2 ^ 27
    let head := leBytes 4 k ++ leBytes 4 (sn % 2 ^ 24 + flags) ++ leBytes 4 n ++ leBytes 4 0
    let R := (16 + 2 * n + 63) / 64 * 64
    let s := r.2.arenaPut g (bits e 64 32 + k % 2 * R) (head ++ vals.flatMap fun v => leBytes 2 v)
    let s := s.arenaPut g acc (List.replicate (2 * n) 0)
    let s := s.modCrier g fun c => { c with decs := put c.decs d { settle := x.settle - 1, lossy := false } }
    if bit e 109 then s.tallyOp ⟨.crier g, s.evCtx, 0, bits e 96 13, 1, 0, s.evClass, 0, 0⟩ else s

/-- Words of a step record part (Table 13-8). -/
def State.partWords (s : State) (g : Nat) : List Byte :=
  let x := s.crier g
  let dropped := (find x.dropped (s.stepNum % 16)).getD 0
  let flags := x.flags ||| b2n (dropped != 0)
  leBytes 4 s.stepNum ++ leBytes 4 s.event.openAt ++ leBytes 4 (min dropped 65535 + flags * 2 ^ 16) ++ leBytes 4 x.events

/-- DRAIN at a crier: keys for its modules leave first, then outputs and the record part. -/
def State.drain (s : State) (g : Nat) : State :=
  let x := s.crier g
  if x.phase ≠ 4 || x.drained || !s.event.opened || !s.running pgMMAP then s
  else if !s.event.flights.isEmpty || (List.range 8).any fun h => (s.crier h).phase < 4 then s
  else
    let s := foldS (fun j s => match find x.out j with
      | some ks => State.sendEvt g (2 * g + j) ks.length ks s
      | none => s) [0, 1] (s.modCrier g fun y => { y with out := [] })
    if [0, 1].any fun j => (s.link (2 * g + j)).tx.any fun t => hOpc t.msg.hdr == opEVT then s
    else
      let s := foldS (fun d s => s.decoderOut g d) (List.range 8) s
      let t := s.evPage
      let lg := s.get t F.TEV_STEP_REC_LOG2
      let s := if lg = 0 then s
        else s.arenaPut g (s.get t F.TEV_STEP_REC_OFFSET * 2 ^ 12 + 16 * (s.stepNum % 2 ^ lg)) (s.partWords g)
      s.modCrier g fun y => { y with drained := true }

/-! ### Steps (R550 to R555, R565 to R567, R577) -/

/-- Every shadow table becomes live in every crier (R566): changed converters start afresh at the next OPEN, and every
decoder's next W records carry SETTLING (R560, R564). -/
def State.swapNow (s : State) : State :=
  let changed (g i : Nat) : Bool := s.liveEnt tCONV g i != s.shadowEnt tCONV g i
  let any := (List.range 8).any fun g => (List.range 16).any (changed g)
  let s' := (s.modEvent fun e => { e with live := e.shadow }).set s.evPage F.TEV_TEV_STATUS_SWAP_PENDING 0
  foldS (fun g s' => s'.modCrier g fun x =>
    { x with fresh := x.fresh ++ (List.range 16).filter (fun i => changed g i && !x.fresh.contains i)
             decs := if any then (List.range 8).foldl (fun m d =>
               let e := s.shadowEnt tCONV g (8 + d)
               if bit e 0 then put m d { (find m d).getD {} with settle := bits e 9 8 + 1 } else m) x.decs else x.decs }) (List.range 8) s'

/-- The engine is STOPPED or OFF: swaps and commits act at once (R566, R567). -/
def State.evIdle (s : State) : Bool := !s.event.opened && (!s.evOn || !s.flag s.evPage F.TEV_STEP_CTRL_RUN)

/-- Pending swaps and commits of an idle engine. -/
def State.evAtOnce (s : State) : State :=
  if s.evIdle then
    let s := if s.flag s.evPage F.TEV_TEV_STATUS_SWAP_PENDING then s.swapNow else s
    s.commitNow s.evPage
  else s

/-- The tick at which the next step is due in REAL mode (R553). -/
def State.dueTick (s : State) : Nat := s.event.t0 + (s.stepNum - s.event.first) * s.get s.evPage F.TEV_STEP_PERIOD_TICKS

/-- The next step may open (R553, R554, R583). -/
def State.mayOpen (s : State) : Bool :=
  s.evOn && s.flag s.evPage F.TEV_STEP_CTRL_RUN && !s.event.opened && s.running pgEVM && s.running pgMMAP && !s.isFatal &&
  (if s.flag s.evPage F.TEV_STEP_CTRL_MODE then
     !s.event.started || decide (s.event.openAt + s.get s.evPage F.TEV_STEP_MIN_TICKS ≤ s.ticks)
   else s.event.due && decide (s.dueTick ≤ s.ticks))

/-- REAL: the due tick of the next step has come. -/
def State.stepDue (s : State) : State :=
  if s.evOn && s.flag s.evPage F.TEV_STEP_CTRL_RUN && !s.flag s.evPage F.TEV_STEP_CTRL_MODE && decide (s.dueTick ≤ s.ticks) then
    s.modEvent fun e => { e with due := true }
  else s

/-- A crier's part of OPEN and DELIVER. -/
def State.openCrier (s : State) (g : Nat) (late swapped : Bool) : State :=
  let x := s.crier g
  let s := s.setCrier g { x with phase := 1, flags := b2n late * 2 ^ fLate + b2n swapped * 2 ^ fSwapped, events := 0, out := [], drained := false, answer := none }
  let s := foldS (fun i s =>
    let e := s.liveEnt tCONV g (8 + i)
    if x.fresh.contains (8 + i) && bit e 0 then s.arenaPut g (bits e 32 32) (List.replicate (2 * (s.pop (bits e 3 6)).size) 0) else s) (List.range 8) s
  let s := foldS (fun i s => s.encode g i) (List.range 8) s
  let keys := (s.crier g).intake
  let s := foldS (fun k s => s.routeSource g k) keys (s.modCrier g fun y => { y with intake := [], fresh := [] })
  (s.deliverBucket g).modCrier g fun y => { y with phase := 2 }

/-- A step opens: swaps and commits, the key, encoders and intake, DELIVER (R550). (DEDUCED, log entry 118) -/
def State.stepOpen (s : State) : State :=
  if !s.mayOpen then s
  else
    let c := s.evCtx
    let swapped := s.flag s.evPage F.TEV_TEV_STATUS_SWAP_PENDING
    let s := if swapped then s.swapNow else s
    let s := s.commitNow s.evPage
    let real := !s.flag s.evPage F.TEV_STEP_CTRL_MODE
    let late := real && decide (s.dueTick < s.ticks)
    let s := if late then s.count s.evPage F.TEV_OVERRUNS else s
    let tmk : Page := ⟨.TMK, c⟩
    let key := s.get tmk F.TMK_KEY_LO_K0 + s.get tmk F.TMK_KEY_HI_K1 * 2 ^ 32
    let s := s.modEvent fun e => { e with opened := true, started := true, due := false, openAt := s.ticks, key := key, swapped := swapped }
    foldS (fun g s => s.openCrier g late swapped) (List.range 8) s

/-- A crier that has drained arrives at the step barrier, without timeout (R550, R551). -/
def State.stepArrive (s : State) (g : Nat) : State :=
  let x := s.crier g
  if x.phase ≠ 4 || !x.drained || !s.event.opened then s
  else
    let t := s.evPage
    (s.setCrier g { x with phase := 5 }).tallyOp
      ⟨.crier g, s.evCtx, 6, s.get t F.TEV_STEP_BARRIER_TALLY, 8 + s.get t F.TEV_STEP_BARRIER_EXT, 0xFFFFFFFF, s.evClass, 0, 0⟩

/-- Take the hall's answers for criers: arrivals of the step barrier, and decoder posts, which ask nothing. -/
def State.crierAnswers (s : State) : State :=
  let mine := s.hall.answers.filter fun a => match a.who with | .crier _ => true | _ => false
  let s := s.modHall fun h => { h with answers := h.answers.filter fun a => match a.who with | .crier _ => false | _ => true }
  foldS (fun a s => match a.who with
    | .crier g => if a.top = 6 ∧ (s.crier g).phase = 5 then s.modCrier g fun x => { x with answer := some a.res.st } else s
    | _ => s) mine s

/-- The open step closes: its summary, the realignment, the next STEP_NUM (R555, R565, R575, Table 13-13). -/
def State.closeStep (s : State) : State :=
  let t := s.evPage
  let n := s.stepNum
  let b := n % 16
  let flags := (List.range 8).foldl (fun m g => m ||| (s.crier g).flags ||| b2n (find (s.crier g).dropped b).isSome) 0
  let drops := (List.range 8).foldl (fun m g => m + min 65535 ((find (s.crier g).dropped b).getD 0)) 0
  let s := ((s.wr t F.TEV_LAST_STEP.off (BitVec.ofNat 32 n)).set t F.TEV_LAST_FLAGS flags).set t F.TEV_LAST_DROPPED drops
  let s := (s.countW t F.TEV_STEPS).traceEv 7 0 s.evCtx (n % 2 ^ 24 + flags * 2 ^ 24)
  let s := s.wr t F.TEV_STEP_NUM.off (BitVec.ofNat 32 (n + 1))
  let s := foldS (fun g s => s.modCrier g fun x => { x with phase := 0, dropped := del x.dropped b, answer := none }) (List.range 8) s
  let s := s.modEvent fun e => { e with opened := false }
  let s := if s.flag (ttvPage s.evCtx) F.TTV_REALIGN_CTRL_AT_STEP then s.realign s.evCtx else s
  s.evAtOnce

/-- The step engine stops for want of its barrier (R577). -/
def State.barrierError (s : State) (g st : Nat) : State :=
  let s := (s.raise (cryPage g) Err.CRY_BARRIER_ERROR (detVal s.stepNum st) true).set s.evPage F.TEV_STEP_CTRL_RUN 0
  let s := foldS (fun h s => s.modCrier h fun x => { x with phase := 0, answer := none }) (List.range 8) s
  (s.modEvent fun e => { e with opened := false, flights := [] }).evAtOnce

/-- What the hall's answers let the step engine do: close the step at its release, or stop. -/
def State.stepSettle (s : State) : State :=
  let s := s.crierAnswers
  if !s.event.opened then s
  else match (List.range 8).find? fun g => (s.crier g).answer.any (· != 0) with
    | some g => s.barrierError g ((s.crier g).answer.getD 0)
    | none => if (List.range 8).all fun g => (s.crier g).answer == some 0 then s.closeStep else s

/-- Everything that waits on the hall takes its answers. -/
def State.settle (s : State) : State := ((s.engAnswers).ringAnswers).stepSettle

/-! ### STEP_CTRL, TEV_CMD and EVM_CTRL (R555, R566, R583, R585, R795) -/

/-- A write of STEP_CTRL.RUN. -/
def State.runWrite (s : State) (c : Nat) (on : Bool) : State :=
  let t := tevPage c
  if s.evCtx ≠ c then s
  else if on then
    if !s.evOn ∨ s.tallyCount c ≤ s.get t F.TEV_STEP_BARRIER_TALLY then s.raise t Err.TEV_BAD_VALUE
    else if s.flag t F.TEV_STEP_CTRL_RUN then s
    else
      let s := s.set t F.TEV_STEP_CTRL_RUN 1
      if s.event.opened then s
      else s.modEvent fun e => { e with started := false, due := false, t0 := s.ticks + 1, first := s.stepNum }
  else (s.set t F.TEV_STEP_CTRL_RUN 0).evAtOnce

/-- The checks of Table 13-9 over the shadow tables: the first code that fails. (DEDUCED, log entry 120) -/
def State.swapCode (s : State) : Option Nat :=
  let ents := s.event.shadow.map fun x => (x.1 / 2 ^ 20, x.1 / 2 ^ 16 % 16, x.1 % 2 ^ 16, x.2)
  let ofT (t : Nat) := ents.filter fun x => x.1 == t
  let pop (i : Nat) : Pop := popOf (s.shadowEnt tPOP 0 i)
  let kern (g i : Nat) : Kern := kernOf (s.shadowEnt tKERNEL g i)
  let c1 := (ofT tROUTE).any (fun x =>
      let e := x.2.2.2
      let k := bits e 65 2
      bits e 67 5 != 0 || bits e 96 32 != 0 ||
      (if k = 0 then bits e 84 12 != 0 else if k = 1 then bits e 78 2 != 0 || bits e 88 8 != 0
       else if k = 2 then bits e 75 21 != 0 else bits e 73 23 != 0)) ||
    (ofT tKERNEL).any (fun x => bits x.2.2.2 3 2 == 3 || bits x.2.2.2 24 8 != 0) ||
    (ofT tPOP).any (fun x => bits x.2.2.2 5 3 != 0 || bits x.2.2.2 62 2 != 0 || decide (9 < bits x.2.2.2 58 4) || bits x.2.2.2 122 6 != 0) ||
    (ofT tCONV).any (fun x => if x.2.2.1 < 8 then bits x.2.2.2 9 23 != 0 || bits x.2.2.2 96 32 != 0
      else bits x.2.2.2 2 1 != 0 || bits x.2.2.2 25 7 != 0 || bits x.2.2.2 110 18 != 0)
  let c2 := (ofT tROUTE).any fun x => bit x.2.2.2 64 && bits x.2.2.2 65 2 == 0 && (bits x.2.2.2 80 4 == 0 || bits x.2.2.2 72 8 == 0)
  let c3 := (ofT tROUTE).any fun x => bit x.2.2.2 64 && bits x.2.2.2 65 2 == 1 &&
    (let p := pop (bits x.2.2.2 72 6)
     let k := kern x.2.1 (bits x.2.2.2 80 8)
     !(p.en && p.gal == x.2.1 && k.en && decide (k.cout ≤ p.c)))
  let c4 := (ofT tPOP).any fun x => let p := popOf x.2.2.2; p.en && p.eval && !s.inArena p.gal p.base (4 * p.size)
  let c5 := (ofT tKERNEL).any fun x => let k := kernOf x.2.2.2; k.en && !s.inArena x.2.1 k.wbase (k.cin * k.k * k.k * k.cout)
  let c6 := (ofT tCONV).any fun x =>
    let e := x.2.2.2
    let p := pop (bits e 3 6)
    bit e 0 && (!p.en ||
      (if x.2.2.1 < 8 then
         !s.inArena x.2.1 (bits e 32 32) (p.size * (if bit e 2 then 2 else 1)) || (bit e 1 && !s.inArena x.2.1 (bits e 64 32) (2 * p.size))
       else !s.inArena x.2.1 (bits e 32 32) (2 * p.size) ||
         !s.inArena x.2.1 (bits e 64 32) (2 * ((16 + 2 * p.size + 63) / 64 * 64))))
  let lg := s.get s.evPage F.TEV_STEP_REC_LOG2
  let c7 := lg != 0 && (List.range 8).any fun g => !s.inArena g (s.get s.evPage F.TEV_STEP_REC_OFFSET * 2 ^ 12) (16 * 2 ^ lg)
  if c1 then some 1 else if c2 then some 2 else if c3 then some 3 else if c4 then some 4 else if c5 then some 5
  else if c6 then some 6 else if c7 then some 7 else none

def State.swapWrite (s : State) (c : Nat) : State :=
  let t := tevPage c
  if s.evCtx ≠ c ∨ s.flag t F.TEV_TEV_STATUS_COPY_BUSY then s
  else match s.swapCode with
    | some k => (s.set t F.TEV_TEV_STATUS_SWAP_REJECT 1).set t F.TEV_TEV_STATUS_REJECT_CODE k
    | none => (s.set t F.TEV_TEV_STATUS_SWAP_PENDING 1).evAtOnce

def State.swapCancel (s : State) (c : Nat) : State :=
  if s.evCtx ≠ c then s else s.set (tevPage c) F.TEV_TEV_STATUS_SWAP_PENDING 0

def State.copyLive (s : State) (c : Nat) : State :=
  if s.evCtx ≠ c then s else s.set (tevPage c) F.TEV_TEV_STATUS_COPY_BUSY 1

def State.copyLiveDone (s : State) : State :=
  if s.flag s.evPage F.TEV_TEV_STATUS_COPY_BUSY then
    (s.modEvent fun e => { e with shadow := e.live }).set s.evPage F.TEV_TEV_STATUS_COPY_BUSY 0
  else s

/-- Event mode is cleared for its context (R582). -/
def State.eventClear (s : State) : State :=
  let c := s.evCtx
  let s := { s with criers := [], event := {} }
  let s := s.cancelWaits (fun r => match r.who with | .crier _ => true | _ => false) none
  let s := s.modHall fun h => { h with answers := h.answers.filter fun a => match a.who with | .crier _ => false | _ => true }
  ((s.clearPage (tevPage c)).clearPortPage (tevPage c)).set pgEVM F.EVM_EVM_CTRL_EN 0

/-- A write of EVM_CTRL (R583, R795). -/
def State.evmWrite (s : State) (en : Bool) (ctx cls : Nat) : State :=
  if s.evOn && !s.halted pgEVM then
    if en == s.evOn && ctx == s.evCtx && cls == s.evClass then s else s.raise pgEVM Err.WRITE_WHILE_RUN
  else
    let s := if ctx ≠ s.evCtx then s.eventClear else s
    let s := ((s.set pgEVM F.EVM_EVM_CTRL_CTX ctx).set pgEVM F.EVM_EVM_CTRL_CLASS cls).set pgEVM F.EVM_EVM_CTRL_EN (b2n en)
    if en then s else (s.set s.evPage F.TEV_STEP_CTRL_RUN 0).evAtOnce

/-- TEV_STATUS.STATE (Table 13-13). -/
def State.evState (s : State) : Nat :=
  if !s.evOn then 0
  else if s.halted pgEVM then 4
  else if s.flag s.evPage F.TEV_STEP_CTRL_RUN then 2
  else if s.event.opened then 3
  else 1

/-! ### Events from modules (R556, R557, R259) -/

/-- The keys of an incoming EVT (R258). -/
def evtKeys (m : Msg) : List Nat :=
  let n := hb m.hdr 32 4
  ([hb m.hdr 64 32, hb m.hdr 96 32] ++ (List.range 12).map fun i => leAt m.data (4 * i) 4).take n

/-- Reserved bits of an EVT that must be zero, unused positions included (R258, R259). -/
def evtReserved (m : Msg) : Bool :=
  let n := hb m.hdr 32 4
  hb m.hdr 8 9 != 0 || hb m.hdr 23 1 != 0 || hb m.hdr 28 4 != 0 || hb m.hdr 36 4 != 0 || n == 0 || decide (14 < n) ||
  (n == 1 && hb m.hdr 96 32 != 0) || (m.data.drop (4 * (n - 2))).any fun b => b != 0

/-- The intake of a crier has room for a message's keys. -/
def State.intakeRoom (s : State) (g n : Nat) : Bool := decide ((s.crier g).intake.length + n ≤ 1024)

end Sys2Proof.Machine
end

