-- ==== Sys2Proof/Machine/Fatal.lean ====
section
/-! DEFINITION. The fatal sequence (R730, R741) and the forwarding of stair messages (R24, R33, R38). -/

namespace Sys2Proof.Machine

/-- Every queued and waiting request of a stack that is UP completes, and the stack enters self-refresh (R317, R318). (DEDUCED, log entry 83) -/
def State.hcQuiesce (s : State) (g : Nat) : State :=
  if s.hcState g = 2 ∨ s.hcState g = 3 then
    let h := s.hc g
    let s := foldS (fun r s => s.hcEnter g r (popCount 64 r.en)) h.waiting (s.setHc g { h with waiting := [] })
    ((s.hcDrainAll g).modHc g fun h => { h with rows := [], asleep := [], retraining := [], owed := [] }).set (hcPage g) F.HC_HC_STATUS_STATE 5
  else s

/-- Every module takes its link down; what waits to be sent or handed to the interior is dropped (R730 step 4). -/
def State.linksDown (s : State) : State :=
  foldS (fun m s => (s.modLink m fun l => { l with rx := [], tx := [], resend := [], pace := none }).set (modPage m)
    F.MOD_MOD_STATUS_STATE 0) (List.range 16) s

/-- Errands in the interior complete their effect and are not answered (R279 step 3, R730 step 6). -/
def State.muteErrands (s : State) (p : Errand → Bool) : State :=
  { s with paths := s.paths.map fun e => (e.1, { e.2 with entries := e.2.entries.map fun x => if p x then { x with discard := true } else x }) }

/-- An M_LEAVE with a cause is put on the wire of M15 if the twin link is UP (R617). -/
def State.twinLeave (s : State) (cause : Nat) : State :=
  if s.straps.twinEn && s.modUp 15 then (s.twinSend opM_LEAVE 0 0 0 0 cause 0 0 0 []).egressFlit 15 0 else s

/-- A fatal cause has been reported with its record (R730): the first one starts the fatal sequence. (DEDUCED, log entry 153) -/
def State.fatalSeq (s : State) (p : Page) : State :=
  if s.isFatal then s
  else
    let s := s.set pgBOOT F.BOOT_BOOT_STATUS_PHASE 7
    let s := { s with outs := { s.outs with fatalN := true }, boot := { s.boot with fatalAt := s.ticks } }
    let s := ((s.twinLeave 1).linksDown).muteErrands fun _ => true
    foldS (fun g s => if p = hcPage g then s else s.hcQuiesce g) (List.range 8) s

/-- A fatal cause: the block's ERR_STATUS bit and PAGE_STATE.FATAL, one record with FATAL set, the sequence. -/
def State.fatal (s : State) (p : Page) (b : Nat) (d : Detail := {}) (inj : Bool := false) : State :=
  (((s.errBit p b).set p F.PAGE_STATE_FATAL 1).logRec p b d inj true).fatalSeq p

/-- A fatal cause for which the spec names no bit of its block (R40): its record has index 0x1F. -/
def State.fatalPlain (s : State) (p : Page) (d : Detail) : State :=
  ((s.set p F.PAGE_STATE_FATAL 1).logRec p 0x1F d false true).fatalSeq p

/-! ### The stair -/

/-- Messages that wait at their source for a buffer enter it as far as it admits them, in order of their class (R33). -/
def State.stairAdmit (s : State) (g key : Nat) : Nat → List StairMsg → List StairMsg → State
  | 0, done, rest => s.setStairBuf key (done ++ rest)
  | _, done, [] => s.setStairBuf key done
  | fuel + 1, done, m :: rest =>
    if m.held && !(done.any fun x => x.held && x.cls == m.cls) && s.stairAdmits g (done ++ rest) m.cls m.urg then
      s.stairAdmit g key fuel (done ++ [{ m with held := false }]) rest
    else s.stairAdmit g key fuel (done ++ [m]) rest

/-- The parts of a message that go on from node h, by outgoing link. -/
def stairParts (h mask : Nat) : List (Nat × Nat) :=
  [0, 1, 2].filterMap fun k => let v := stairVia h k mask; if v = 0 then none else some (k, v)

/-- The first message of a class in a buffer that has entered it. -/
def State.stairFirst (s : State) (g k lane : Nat) (rsp : Bool) (cls : Nat) : Option StairMsg :=
  match (s.stairBuf (stairKey g k lane rsp)).find? (·.cls == cls) with
  | some m => if m.held then none else some m
  | none => none
/-- The parts of a message that go on from the next node h, and the first of them whose lane 1 buffer has no room. -/
def stairAhead (h lane : Nat) (m : StairMsg) : List (Nat × Nat) := if lane = 0 then stairParts h (m.mask &&& (0xFF - 2 ^ h)) else []
def State.stairFull (s : State) (h : Nat) (rsp : Bool) (m : StairMsg) (parts : List (Nat × Nat)) : Option (Nat × Nat) :=
  parts.find? fun x => !s.stairAdmits h (s.stairBuf (stairKey h x.1 1 rsp)) m.cls m.urg

/-- The requesters of a stair link: its buffers by class, with room ahead of their first message (R33, Table 5-13). -/
def stairIndex (lane : Nat) (rsp : Bool) (cls : Nat) : Nat := 8 * (2 * lane + b2n rsp) + cls
def State.stairReqs (s : State) (g k : Nat) : List Req :=
  (List.range 32).filterMap fun i =>
    let lane := i / 16
    let rsp := i / 8 % 2 == 1
    (s.stairFirst g k lane rsp (i % 8)).bind fun m =>
      if (s.stairFull (stairNext g k) rsp m (stairAhead (stairNext g k) lane m)).isNone then some ⟨i, i % 8, m.urg⟩ else none

/-- One link grant, drawn among the buffers that wait (R27): the first message of a class in a buffer of node g for link k crosses to the next node, where it is
delivered, and what it has further to go enters lane 1. It stays while a buffer ahead has no room. A bad header parity
is fatal, and the message goes no further (R38). (DEDUCED, log entry 31) -/
def State.stairForward (s : State) (g k lane : Nat) (rsp : Bool) (cls : Nat) (bad : Bool) : State :=
  let key := stairKey g k lane rsp
  let q := s.stairBuf key
  let h := stairNext g k
  match s.stairFirst g k lane rsp cls with
  | none => s
  | some m =>
      let parts := stairAhead h lane m
      match s.stairFull h rsp m parts with
      | some x =>
        if bad || m.waited then s
        else (s.stairWait h x.1 cls m.ctx).setStairBuf key (modAt (fun y => { y with waited := true }) (q.findIdx (· == m)) q)
      | none =>
        let d := s.grantTo (0x2000 + 3 * g + k) (stairIndex lane rsp cls) (s.stairReqs g k)
        if !d.1 then d.2
        else
        let s := d.2.stairAdmit g key q.length [] (q.erase m)
        let s := if m.n = 0 then s else (s.granted g 1 cls m.n).countW (gswPage g) (F.GSW_STAIR_OUT.at k) 64
        if bad then s.fatal (gswPage h) Err.GSW_STAIR_HDR_PARITY (detVal h 0)
        else foldS (fun x s =>
          let key' := stairKey h x.1 1 rsp
          s.setStairBuf key' (s.stairBuf key' ++ [{ mask := x.2, cls := cls, ctx := m.ctx, n := m.n, urg := m.urg }])) parts s

end Sys2Proof.Machine
end

