-- ==== Sys2Proof/Machine/Time.lean ====
section
/-! DEFINITION. The time base (chapter 2): ticks, turn telemetry, references and holdover, the time counter. -/

namespace Sys2Proof.Machine

def State.modTime (s : State) (f : TimeBase → TimeBase) : State := { s with time := f s.time }

/-- REF_STATUS.TB_MODE: 0 LOCKED, 1 HOLDOVER, 2 P1_WAIT, 3 STOPPED. -/
def State.tbMode (s : State) : Nat := s.get pgTBS F.TBS_REF_STATUS_TB_MODE

/-! ### The time counter (R66, R67, R70) -/

def secWrap : Nat := 2 ^ 48
def nsWrap : Nat := 1000000000

/-- TIME_SET_SEC and TIME_SET_NS. -/
def State.setSec (s : State) : Nat := s.get pgTBS F.TBS_TIME_SET_SEC_LO_SEC + s.get pgTBS F.TBS_TIME_SET_SEC_HI_SEC * 2 ^ 32
def State.setNs (s : State) : Nat := s.get pgTBS F.TBS_TIME_SET_NS_NS

/-- The TIME_SET values are in the counter: APPLIED, and the time is set (R69). -/
def State.applyTime (s : State) (ns : Nat) : State :=
  let s := s.modTime fun t => { t with sec := s.setSec, ns := ns }
  ((s.set pgTBS F.TBS_TIME_STATUS_PENDING 0).set pgTBS F.TBS_TIME_STATUS_APPLIED 1).set pgTBS F.TBS_TIME_STATUS_UNSET 0

/-- The counter advances by nanoseconds; past the end of the second TIME_SEC counts on and wraps (R66). -/
def State.addNs (s : State) (n : Nat) : State :=
  if s.time.ns + n < nsWrap then s.modTime fun t => { t with ns := t.ns + n }
  else
    let w := s.time.sec + 1 = secWrap
    let s := s.modTime fun t => { t with sec := (t.sec + 1) % secWrap, ns := t.ns + n - nsWrap }
    if w then s.set pgTBS F.TBS_TIME_STATUS_SEC_WRAPPED 1 else s

/-- The roll-over of TIME_NS that the next `left + n` nanoseconds bring, or the pending apply in its place, from whose
values the `n` nanoseconds after it go on (R69). -/
def State.rollOver (s : State) (left n : Nat) : State :=
  if s.flag pgTBS F.TBS_TIME_STATUS_PENDING then (s.applyTime s.setNs).addNs n else s.addNs (left + n)

/-- Nanoseconds that 1,000 clock periods add, with TIME_FREQ_ADJ (R67), and the fraction left. (DEDUCED, log entry 17) -/
def State.tickNs (s : State) : Nat × Int :=
  let f := s.time.frac + 1000 * toSigned 32 (s.get pgTBS F.TBS_TIME_FREQ_ADJ_PPB)
  ((1000 + f / 1000000000).toNat, f % 1000000000)

/-- The counter advances by the rest of a tick's 1,000 periods: those before a roll-over event of its own are done. -/
def State.advanceTime (s : State) : State :=
  let d := s.tickNs
  let n := d.1 - s.time.early
  let s := s.modTime fun t => { t with frac := d.2, early := 0 }
  let left := nsWrap - s.time.ns
  if left ≤ n then s.rollOver left (n - left) else s.addNs n

/-- TIME_NS reaches the end of its second within the running tick (R66). (DEDUCED, log entry 18) -/
def State.timeRollover (s : State) : State :=
  let left := nsWrap - s.time.ns
  if s.time.running && decide (left + s.time.early ≤ s.tickNs.1) then
    (s.modTime fun t => { t with early := t.early + left }).rollOver left 0
  else s

/-- TIME_APPLY (R69 to R71). -/
def State.timeApply (s : State) (mode : Nat) : State :=
  if mode = 3 then s.set pgTBS F.TBS_TIME_STATUS_PENDING 0
  else if mode = 0 then s
  else if s.flag pgTBS F.TBS_TIME_STATUS_PENDING then s.set pgTBS F.TBS_TIME_STATUS_SET_IGNORED 1
  else if nsWrap ≤ s.setNs then s.set pgTBS F.TBS_TIME_STATUS_APPLY_REJECT 1
  else if mode = 1 then s.applyTime s.setNs
  else s.set pgTBS F.TBS_TIME_STATUS_PENDING 1

/-! ### Reference selection (R58 to R65, R76, R78, R79) -/

def gGOOD : Nat := 0
def gWARN : Nat := 1
def gOUT : Nat := 2
def gLOST : Nat := 3

def gradeFld (b : Bool) : Fld := if b then F.TBS_REF_STATUS_GRADE_B else F.TBS_REF_STATUS_GRADE_A
/-- The grade of REFA (false) or REFB (true), and the selected reference. -/
def State.grade (s : State) (b : Bool) : Nat := s.get pgTBS (gradeFld b)
def State.selRef (s : State) : Bool := s.flag pgTBS F.TBS_REF_STATUS_SEL
def State.refSt (s : State) (b : Bool) : RefState := if b then s.time.refB else s.time.refA
def State.modRef (s : State) (b : Bool) (f : RefState → RefState) : State :=
  s.modTime fun t => if b then { t with refB := f t.refB } else { t with refA := f t.refA }
def State.usable (s : State) (b : Bool) : Bool := decide (s.grade b ≤ gWARN)
/-- The reference that REF_CTRL.FORCE names, if any. -/
def State.forced (s : State) : Option Bool :=
  let f := s.get pgTBS F.TBS_REF_CTRL_FORCE
  if f = 1 then some false else if f = 2 then some true else none

/-- The selected reference changes (R60): counted, flagged. (DEDUCED, log entry 21) -/
def State.switchRef (s : State) (b : Bool) : State :=
  ((s.set pgTBS F.TBS_REF_STATUS_SEL (b2n b)).count pgTBS F.TBS_REF_SWITCH_COUNT).raise pgTBS Err.TBS_REF_SWITCH (detVal (b2n b) 0)

/-- Enter HOLDOVER (R63). -/
def State.enterHoldover (s : State) : State :=
  let s := (s.set pgTBS F.TBS_REF_STATUS_TB_MODE 1).set pgTBS F.TBS_HOLDOVER_SEC 0
  (s.modTime fun t => { t with holdTicks := 0 }).raise pgTBS Err.TBS_HOLDOVER

/-- The time base stops for want of a reference and of the oscillator (R79). (DEDUCED, log entry 22) -/
def State.stopTimeBase (s : State) : State :=
  ((s.set pgTBS F.TBS_REF_STATUS_TB_MODE 3).modTime fun t => { t with running := false }).fatal pgTBS Err.TBS_OSC_FAULT

/-- The primary reference. -/
def State.priRef (s : State) : Bool := s.flag pgTBS F.TBS_REF_STATUS_PRI

/-- The selected reference is replaced by the other; FORCE_OVERRIDDEN where FORCE named it (R60, R62). -/
def State.replaceRef (s : State) : State :=
  let sel := s.selRef
  (if s.forced = some sel then s.set pgTBS F.TBS_REF_STATUS_FORCE_OVERRIDDEN 1 else s).switchRef (!sel)

/-- REVERT: the primary is selected again after 10 GOOD windows (R62). -/
def State.revertRef (s : State) : State :=
  if s.flag pgTBS F.TBS_REF_CTRL_REVERT && s.forced == none && s.selRef != s.priRef && decide (10 ≤ (s.refSt s.priRef).goodRun) then
    s.switchRef s.priRef
  else s

/-- The end of HOLDOVER selects a reference: the one FORCE names unless it is LOST, else the one that qualifies (R62, R65).
This selection is neither counted nor flagged: Table 2-8 names R60 and R62 alone. (DESIGN CHOICE, log entry 170) -/
def State.leaveHoldover (s : State) (b : Bool) : State :=
  let r : Bool × State := match s.forced with
    | some f => if s.grade f ≠ gLOST then (f, s) else (b, s.set pgTBS F.TBS_REF_STATUS_FORCE_OVERRIDDEN 1)
    | none => (b, s)
  (r.2.set pgTBS F.TBS_REF_STATUS_SEL (b2n r.1)).set pgTBS F.TBS_REF_STATUS_TB_MODE 0

/-- What follows a change of grades: a switch, HOLDOVER, a return to the primary, or the end of HOLDOVER. (DESIGN CHOICE, log entry 170) -/
def State.selectRef (s : State) (windowEnd : Bool) : State :=
  let sel := s.selRef
  if s.time.oscFailed then
    if s.grade sel ≠ gLOST then (if windowEnd then s.revertRef else s)
    else if (s.refSt (!sel)).present then s.replaceRef
    else s.stopTimeBase
  else if s.tbMode = 1 then
    let ok (b : Bool) : Bool := decide (3 ≤ (s.refSt b).goodRun)
    if !windowEnd then s
    else if ok s.priRef then s.leaveHoldover s.priRef
    else if ok (!s.priRef) then s.leaveHoldover (!s.priRef)
    else s
  else if !s.usable sel && !s.usable (!sel) then s.enterHoldover
  else if s.grade sel = gLOST ∨ (s.grade sel = gOUT ∧ s.forced ≠ some sel) then s.replaceRef
  else if windowEnd then s.revertRef
  else s

/-- Set a reference's grade; REF_WARN marks a change to WARN. -/
def State.setGrade (s : State) (b : Bool) (g : Nat) : State :=
  let old := s.grade b
  let s := (s.set pgTBS (gradeFld b) g).modRef b fun r => { r with goodRun := if g = gGOOD then r.goodRun + 1 else 0 }
  if g = gWARN ∧ old ≠ gWARN then s.raise pgTBS Err.TBS_REF_WARN (detVal (b2n b) 0) else s

/-- The deviation that grades a reference (R58, R59): `own` the references' difference, `osc` its deviation from the
oscillator, `oscO` the other's, `other` that the other reference was GOOD or WARN. The references' difference is what R59
calls the deviation of the mover's own measurement. (DEDUCED, log entry 19) -/
def gradeDev (own osc oscO out : Nat) (other : Bool) : Nat :=
  if !other then osc
  else if out < own ∧ osc < oscO then osc
  else own

/-- The end of a 10 ms window (R57 to R59): deviations in ppm, references that lost edges in it. -/
def State.refWindow (s : State) (dAB dAO dBO : Int) (lostA lostB : Bool) : State :=
  if !s.time.running ∨ 2 ≤ s.tbMode then s
  else
    let warn := s.get pgTBS F.TBS_REF_CTRL_WARN_PPM
    let out := s.get pgTBS F.TBS_REF_CTRL_OUT_PPM
    let (ab, ao, bo) := (dAB.natAbs, dAO.natAbs, dBO.natAbs)
    let s := ((s.set pgTBS F.TBS_DEV_AB_PPM (ofSigned 16 dAB)).set pgTBS F.TBS_DEV_AO_PPM (ofSigned 16 dAO)).set pgTBS
      F.TBS_DEV_BO_PPM (ofSigned 16 dBO)
    let okA := s.usable false && !lostA
    let okB := s.usable true && !lostB
    let suspect := !s.time.oscFailed && !lostA && !lostB && decide (ab ≤ warn ∧ out < ao ∧ out < bo)
    let bad := if suspect then s.time.oscBad + 1 else 0
    let dSel := if s.selRef then bo else ao
    let run := if dSel ≤ warn then s.time.oscRun + 1 else 0
    let s := s.modTime fun t => { t with oscBad := if bad = 3 then 0 else bad, oscRun := run }
    let s := if bad = 3 then s.set pgTBS F.TBS_REF_STATUS_OSC_SUSPECT 1
      else if 10 ≤ run then s.set pgTBS F.TBS_REF_STATUS_OSC_SUSPECT 0 else s
    let one (b lost other : Bool) (osc oscO : Nat) (s : State) : State :=
      if lost then (s.modRef b fun r => { r with present := false, overOut := 0 }).setGrade b gLOST
      else
        let s := s.modRef b fun r => { r with present := true }
        if bad = 3 then (s.modRef b fun r => { r with overOut := 0 }).setGrade b gGOOD
        else if s.time.oscFailed then
          if lostA || lostB then s else s.setGrade b (if warn < ab then gWARN else gGOOD)
        else
          let d := gradeDev ab osc oscO out other
          let n := if out < d then (s.refSt b).overOut + 1 else 0
          (s.modRef b fun r => { r with overOut := n }).setGrade b
            (if 3 ≤ n then gOUT else if warn < d then gWARN else gGOOD)
    ((one true lostB okA bo ao (one false lostA okB ao bo s))).selectRef true

/-- A reference shows no edge for 100 ns (Table 2-5, R60). -/
def State.refLost (s : State) (b : Bool) : State :=
  if !s.time.running ∨ 2 ≤ s.tbMode then s
  else ((s.modRef b fun r => { r with present := false, overOut := 0 }).setGrade b gLOST).selectRef false

/-- The oscillator stops or leaves ±3 % (R79). HOLDOVER, which runs on it, ends on a reference that is present, the selected
one first. (DESIGN CHOICE, log entry 171) -/
def State.oscFault (s : State) : State :=
  let s := (s.modTime fun t => { t with oscFailed := true }).raise pgTBS Err.TBS_OSC_FAULT
  if !s.time.running ∨ s.tbMode ≠ 1 then s
  else if (s.refSt s.selRef).present then s.set pgTBS F.TBS_REF_STATUS_TB_MODE 0
  else if (s.refSt (!s.selRef)).present then (s.switchRef (!s.selRef)).set pgTBS F.TBS_REF_STATUS_TB_MODE 0
  else s.stopTimeBase

/-- A write of REF_CTRL.FORCE (R62, R78, Table 2-9). In HOLDOVER it selects at once too, and HOLDOVER goes on until R65
ends it. (DESIGN CHOICE, log entry 172) -/
def State.forceWrite (s : State) (f : Nat) : State :=
  if f = 3 then s.raise pgTBS Err.TBS_BAD_VALUE
  else
    let b := f == 2
    if f ≠ 0 ∧ !s.usable b then s.raise pgTBS Err.TBS_BAD_VALUE
    else
      let s := (s.set pgTBS F.TBS_REF_CTRL_FORCE f).set pgTBS F.TBS_REF_STATUS_FORCE_OVERRIDDEN 0
      if f ≠ 0 ∧ s.selRef ≠ b ∧ s.tbMode ≤ 1 then s.switchRef b else s

/-! ### Turn telemetry (R49, R50, R80) -/

/-- One gallery's window: its mean period in 1/16 ps, or a failed self-check. (DEDUCED, log entry 23) -/
def State.turnPeriod (s : State) (g period : Nat) (fail : Bool) : State :=
  if fail then (s.set pgTBS (F.TBS_TURN_PERIOD_VALID.at g) 0).raise pgTBS Err.TBS_TURN_MON_FAIL (detVal g 0)
  else
    let s := (s.set pgTBS (F.TBS_TURN_PERIOD_PERIOD.at g) period).set pgTBS (F.TBS_TURN_PERIOD_VALID.at g) 1
    let s := s.set pgTBS (F.TBS_TURN_MAX_PERIOD.at g) (max (s.get pgTBS (F.TBS_TURN_MAX_PERIOD.at g)) period)
    if s.get pgTBS F.TBS_TURN_ALERT_LIMIT_LIMIT < period then s.raise pgTBS Err.TBS_TURN_SLOW (detVal g period) else s

/-- The end of a 1 µs window: the eight periods, 16 bits each from gallery 0, and the galleries whose monitor failed. -/
def State.turnWindow (s : State) (periods fails : Nat) : State :=
  if s.phase = 0 then s
  else
    let s := foldS (fun g s => s.turnPeriod g (bits periods (16 * g) 16) (fails.testBit g)) (List.range 8) s
    let top := (List.range 8).foldl (fun n g => max n (s.get pgTBS (F.TBS_TURN_PERIOD_PERIOD.at g))) 0
    let all := (List.range 8).all fun g => s.flag pgTBS (F.TBS_TURN_PERIOD_VALID.at g)
    (s.set pgTBS F.TBS_TURN_PERIOD_DEV_PERIOD top).set pgTBS F.TBS_TURN_PERIOD_DEV_VALID (b2n all)

def State.clearMax (s : State) : State :=
  foldS (fun g s => s.set pgTBS (F.TBS_TURN_MAX_PERIOD.at g) 0) (List.range 8) s

/-! ### The tick (R52) -/

/-- Classes with a request that waits for admission in gallery g: in a module's receive buffer, at errand entry, at
stack admission, or on the stair (R196). -/
def State.waitingMask (s : State) (g : Nat) : Nat :=
  let cls : List Nat :=
    ((s.link (2 * g)).rx ++ (s.link (2 * g + 1)).rx).filterMap (fun x => if x.held then some (hSc x.msg.hdr) else none) ++
    (s.path g).entries.filterMap (fun e => if e.held && !e.active then some e.cls else none) ++
    ((s.hc g).waiting.map (·.cls)) ++
    (s.stair.flatMap fun q => if q.1 / 12 = g then q.2.filterMap fun m => if m.held then some m.cls else none else [])
  cls.foldl (fun n k => n ||| 2 ^ k) 0

/-- The arbitration page's tick: the classes held in it (R196, R209), and the pace limiter's refill (R671). -/
def State.arbTick (s : State) (g : Nat) : State :=
  let w := s.waitingMask g
  let a := s.arb g
  let held := a.heldTick ||| w
  let n (m : List (Nat × Nat)) (k : Nat) : Nat := (find m k).getD 0
  let hr := (List.range 8).map fun k => (k, if held.testBit k then n a.heldRun k + 1 else 0)
  let fr := (List.range 8).map fun k => (k, if held.testBit k then 0 else n a.freeRun k + 1)
  let fill := if s.purser.computed then
      min s.purser.burst (a.bucket + s.get pgPRS (F.PRS_GAL_LINES_L.at g)) else a.bucket
  (s.setArb g { a with heldTick := w, heldWin := a.heldWin ||| w, heldRun := hr, freeRun := fr, bucket := fill, limWait := [],
                       satAfter := s.get (arbPage g) F.ARB_SAT_CTRL_SAT_AFTER,
                       satClear := s.get (arbPage g) F.ARB_SAT_CTRL_SAT_CLEAR }).set (arbPage g) F.ARB_CLASS_STATE_HELD held

/-- The adapters' buckets fill at P DAT flits per µs, and write credits withheld while empty return (R207). (DEDUCED, log entry 55) -/
def State.paceTick (s : State) (m : Nat) : State :=
  if !s.metered m then s
  else
    let burst := 192 * (s.link m).burst
    s.modLink m fun l =>
      let w := min burst (l.bktWr + 192 * l.paceWr)
      { l with bktRd := min burst (l.bktRd + 192 * l.paceRd), bktWr := w,
               returns := if 0 < w then l.withheld.foldl (fun cs c => addReturn cs c.vc c.pool c.n) l.returns else l.returns
               withheld := if 0 < w then [] else l.withheld }

/-- The directions in which requests wait at a module's adapter: bit 0 reads and atomics, bit 1 writes (R206). -/
def State.waitDirs (s : State) (m : Nat) : Nat :=
  let ops := ((s.link m).rx.map fun x => hOpc x.msg.hdr) ++
    ((s.path (m / 2)).entries.filterMap fun e => if e.m = m ∧ !e.active then some (hOpc e.msg.hdr) else none)
  b2n (ops.any fun o => o == opRD || o == opATOM) + 2 * b2n (ops.any (· == opWR))

/-- One time-base tick. (DEDUCED, log entry 16; DEDUCED, log entry 127) -/
def State.tick (s : State) : State :=
  if !s.time.running then s
  else
    let s := (s.countW pgTBS F.TBS_TICK_COUNT).advanceTime
    let s := if s.tbMode = 1 then
        let n := s.time.holdTicks + 1
        let s := s.modTime fun t => { t with holdTicks := n % 1000000 }
        if n = 1000000 then s.count pgTBS F.TBS_HOLDOVER_SEC else s
      else s
    let s := if s.ticks % 1000 = 0 then s.ceWindowStart else s
    let s := foldS (fun g s => s.arbTick g) (List.range 8) s
    let s := foldS (fun m s => (s.paceTick m).modLink m fun l => { l with waited := l.waited &&& s.waitDirs m }) (List.range 16) s
    let s := foldS (fun g s =>
      let s := if 2 ≤ bits (s.get pgPRS F.PRS_THERM_SUMMARY_GAL) (2 * g) 2 then s.count pgPRS (F.PRS_THROT_TICKS.at g) else s
      s.modHc g fun h => { h with cap := s.get pgPRS F.PRS_STACK_THR_STACK_FACTOR * 400, patLeft := s.get (hcPage g) F.HC_HC_PATROL_RATE }) (List.range 8) s
    let s := s.countW pgPRS F.PRS_LEND_US (popCount 16 (s.get pgPRS F.PRS_LEND_STATE))
    let s := { s with twin := { s.twin with copied := 0 } }
    if s.straps.twinEn && s.modUp 15 && !((s.link 15).tx.any fun t => hOpc t.msg.hdr == opM_BEAT) then
      s.send 15 ⟨⟨BitVec.ofNat 128 (opM_BEAT + s.get pgTWN F.TWN_MSEQ_LAST * 2 ^ 32), []⟩, 0, 0, .plain⟩
    else s

end Sys2Proof.Machine
end

