-- ==== Sys2Proof/Machine/Watch.lean ====
section
/-! DEFINITION. The states of queues (Table 9-7), the deadlock detector (R480, R481) and the lending of engines (R482). -/

namespace Sys2Proof.Machine

/-- QUEUE_STATE_q.STATE: 0 DISABLED, 1 IDLE, 2 RUNNING, 3 WAITING, 4 STALLED, 5 FAULTED, 6 HALTED. -/
def State.queueState (s : State) (q : Nat) : Nat :=
  let x := s.queue q
  let act := x.descs.filter (·.active)
  let stalled := (List.range 16).any fun m => (s.link m).tx.any fun t =>
    t.kind.ofQueue q && (s.get (modPage m) F.MOD_STALL_STATE_STALLED).testBit t.vc
  if x.rr.isSome then 5
  else if s.halted (qPage q) then 6
  else if x.descs.isEmpty then (if s.flag (qPage q) (F.ENG_QUEUE_CFG_EN.at (q % 8)) then 1 else 0)
  else if !act.isEmpty && act.all (·.waiting) then 3
  else if stalled then 4
  else 2

/-! ### Deadlock (R480, R481) -/

/-- The waiters of a context, oldest first. -/
def State.waitersOf (s : State) (c : Nat) : List Waiter := s.hall.waiters.filter fun w => w.req.ctx == c

/-- The conditions of R480. -/
def State.deadlocked (s : State) (c : Nat) : Bool :=
  let win := s.get pgTHL F.THL_DL_WINDOW_TICKS
  let ws := s.waitersOf c
  win != 0 && !ws.isEmpty &&
  ws.all (fun w => decide (w.at' + win ≤ s.ticks ∧ (s.tally w.phys).touched + win ≤ s.ticks)) &&
  (List.range 128).all (fun q => s.qCtx q != c || !(s.queueState q == 2 || s.queueState q == 4)) &&
  (List.range 4).all fun i =>
    let r := 4 * c + i
    !(s.ringState r == 2 || (s.ringState r == 4 && !(s.ring r).waitFull))

/-- A waiter as the deadlock record lists it (Table 18-6). -/
def Waiter.dlWord (w : Waiter) : Nat :=
  w.phys % 2 ^ 13 + w.req.who.kind * 2 ^ 13 + w.req.who.num % 2 ^ 7 * 2 ^ 15 + w.req.who.tag % 2 ^ 9 * 2 ^ 22 + 2 ^ 31

/-- A tick at which a context's deadlock is reported, once in an episode. (DEDUCED, log entry 109; DEDUCED, log entry 163) -/
def State.deadlock (s : State) (c : Nat) : State :=
  if !s.deadlocked c || s.flag (ttvPage c) F.TTV_TTV_STATUS_DL_ACTIVE then s
  else
    let ws := s.waitersOf c
    let n := ws.length
    let s := s.set (ttvPage c) F.TTV_TTV_STATUS_DL_ACTIVE 1
    let s := (s.count pgTHL F.THL_DEADLOCKS).count (ttvPage c) F.TTV_DEADLOCKS
    let s := s.raise pgTHL Err.THL_DEADLOCK (detVal c n) true
    let body := n % 2 ^ 16 + ((ws.take 8).zipIdx.map fun x => x.1.dlWord * 2 ^ (32 + 32 * x.2)).sum
    (s.faultRec c 7 false 0 0 0 body).sendInt c 0 3 0 0 n

/-! ### Lending (R482) -/

/-- The conditions of R482 hold for an engine. -/
def State.lends (s : State) (e : Nat) : Bool :=
  let after := s.get pgTHL F.THL_LEND_AFTER_TICKS
  let qs := (List.range 8).map (8 * e + ·)
  let act := qs.flatMap fun q => ((s.queue q).descs.filter (·.active)).map fun d => (q, d)
  after != 0 && !act.isEmpty &&
  act.all (fun x => x.2.waiting && s.hall.waiters.any fun w => w.req.who == .queue x.1 && w.req.tag == x.2.num && decide (w.at' + after ≤ s.ticks)) &&
  qs.all fun q => s.queueState q != 2

/-- An engine begins to lend its budget share. -/
def State.lendStart (s : State) (e : Nat) : State :=
  if s.lends e && !s.purser.lending.contains e then { s with purser := { s.purser with lending := s.purser.lending ++ [e] } } else s

end Sys2Proof.Machine
end

