-- ==== Sys2Proof/Machine/Purser.lean ====
section
/-! DEFINITION. The purser (chapter 16): power, budget, pace limits, PACE values, VCORE, temperature. -/

namespace Sys2Proof.Machine

def State.modPurser (s : State) (f : Purser → Purser) : State := { s with purser := f s.purser }

/-! ### AVSBus (R673, R674, R694) -/

def State.avsOk (s : State) : Bool := s.flag pgPRS F.PRS_VCORE_STATUS_AVS_OK
def State.vReq (s : State) : Nat := s.get pgPRS F.PRS_VCORE_STATUS_REQ
def State.vRead (s : State) : Nat := s.get pgPRS F.PRS_VCORE_STATUS_READ

/-- Take an AVSBus answer. `stepping` says a voltage step is under way. (DESIGN CHOICE, log entry 142) -/
def State.avsTake (s : State) (a : AvsRead) (stepping : Bool) : State :=
  match a with
  | .none => s
  | .failed => (s.set pgPRS F.PRS_VCORE_STATUS_AVS_OK 0).raise pgPRS Err.PRS_AVS_FAIL
  | .cur i => (s.set pgPRS F.PRS_VCORE_CURRENT_I i.toNat).set pgPRS F.PRS_VCORE_STATUS_AVS_OK 1
  | .status bad =>
    let s := s.set pgPRS F.PRS_VCORE_STATUS_AVS_OK 1
    if bad then s.raise pgPRS Err.PRS_VREG_FAULT else s
  | .volt mv =>
    let s := (s.set pgPRS F.PRS_VCORE_STATUS_READ mv.toNat).set pgPRS F.PRS_VCORE_STATUS_AVS_OK 1
    let far := !stepping && decide (25 < mv.toNat - s.vReq + (s.vReq - mv.toNat))
    let n := if far then s.purser.mismatch + 1 else 0
    let s := s.modPurser fun p => { p with mismatch := if n = 3 then 0 else n }
    if n = 3 then s.raise pgPRS Err.PRS_VCORE_MISMATCH (detVal mv.toNat s.vReq) else s

/-! ### Sensors (R677 to R681, R693) -/

def State.sensor (s : State) (i : Nat) : SensorRun := (find s.purser.sensors i).getD {}
def State.sensorState (s : State) (i : Nat) : Nat := s.get pgPRS (F.PRS_SENSOR_STATE.at i)
/-- TEMP of a sensor in quarter degrees. -/
def State.sensorTemp (s : State) (i : Nat) : Int := toSigned 12 (s.get pgPRS (F.PRS_SENSOR_TEMP.at i))

/-- The reading that the purser uses for a sensor: where its self-check failed, the highest valid reading plus 5 °C (R693). -/
def State.usedTemp (s : State) (i : Nat) : Int :=
  let good := (List.range 17).filter fun j => s.flag pgPRS (F.PRS_SENSOR_VALID.at j)
  if good.contains i || good.isEmpty then s.sensorTemp i else good.foldl (fun (m : Int) j => max m (s.sensorTemp j)) (-512) + 20

/-- The thresholds in quarter degrees. -/
def State.tempThr (s : State) (st : Nat) : Int :=
  4 * (s.get pgPRS (if st = 1 then F.PRS_THERM_THR_TWARN else if st = 2 then F.PRS_THERM_THR_TTHROT else F.PRS_THERM_THR_TCRIT) : Nat)
def State.tempHyst (s : State) : Int := 4 * (s.get pgPRS F.PRS_THERM_THR_HYST : Nat)
def State.dwell (s : State) : Nat := s.get pgPRS F.PRS_THERM_DWELL_SAMPLES

/-- A sensor's state after a sample of t quarter degrees (R679, R680). -/
def State.sensorStep (s : State) (i : Nat) (t : Int) : State :=
  let r := s.sensor i
  let st := s.sensorState i
  let up (n k : Nat) : Nat := if s.tempThr k ≤ t then n + 1 else 0
  let r : SensorRun := { warn := up r.warn 1, throt := up r.throt 2, crit := up r.crit 3,
                         fall := if st ≠ 0 ∧ t ≤ s.tempThr st - s.tempHyst then r.fall + 1 else 0 }
  let d := s.dwell
  let goal := if d ≤ r.crit then 3 else if d ≤ r.throt then 2 else if d ≤ r.warn then 1 else 0
  let st' := if st < goal then goal else if st ≠ 0 ∧ d ≤ r.fall then st - 1 else st
  let s := s.modPurser fun p => { p with sensors := put p.sensors i (if st' = st then r else {}) }
  if st' = st then s
  else
    let s := s.set pgPRS (F.PRS_SENSOR_STATE.at i) st'
    if st' = 0 then s else s.raise pgPRS (Err.PRS_TWARN + st' - 1) (detVal i (ofSigned 12 t)) true

/-- The thermal state of a gallery from its sensors (R678); with no valid sensor, THROTTLE (R693). -/
def State.galTherm (s : State) (g : Nat) : Nat :=
  if (List.range 17).any fun i => s.flag pgPRS (F.PRS_SENSOR_VALID.at i) then
    max (max (s.sensorState g) (s.sensorState (8 + g))) (s.sensorState 16)
  else 2

/-- One sample of all sensors: readings in quarter degrees, sensors whose self-check failed. -/
def State.sample (s : State) (temps fails : Nat) : State :=
  if s.phase = 0 ∨ (s.time.running ∧ s.ticks % 10 ≠ 0) ∨ (s.time.running ∧ s.purser.sampledAt = some s.ticks) then s
  else
    let t (i : Nat) : Int := toSigned 12 (bits temps (12 * i) 12)
    let ok (i : Nat) : Bool := !fails.testBit i
    let good := (List.range 17).filter ok
    let top := good.foldl (fun (m : Int) i => max m (t i)) (-512)
    let s := s.modPurser fun p => { p with sampledAt := some s.ticks }
    let s := foldS (fun i s =>
      if ok i then
        ((s.set pgPRS (F.PRS_SENSOR_TEMP.at i) (bits temps (12 * i) 12)).set pgPRS (F.PRS_SENSOR_VALID.at i) 1).sensorStep i (t i)
      else
        let s := (s.set pgPRS (F.PRS_SENSOR_VALID.at i) 0).raise pgPRS Err.PRS_SENSOR_FAIL (detVal i 0)
        if good.isEmpty then s else s.sensorStep i (top + 20)) (List.range 17) s
    let s := foldS (fun g s => s.set pgPRS F.PRS_THERM_SUMMARY_GAL
      (putBits (s.get pgPRS F.PRS_THERM_SUMMARY_GAL) (2 * g) 2 (s.galTherm g))) (List.range 8) s
    let hot := good.any fun i => decide (s.tempThr 3 ≤ t i)
    let cool := !good.isEmpty && good.all fun i => decide (t i ≤ s.tempThr 3 - s.tempHyst)
    let n := if cool then s.purser.cool + 1 else 0
    let s := s.modPurser fun p => { p with cool := n }
    if hot then
      if s.outs.thermTrip then s
      else (({ s with outs := { s.outs with thermTrip := true } }.set pgPRS F.PRS_THERM_SUMMARY_TRIP 1).count pgPRS F.PRS_TRIPS).raise pgPRS Err.PRS_TRIP
    else if s.outs.thermTrip && decide (s.dwell ≤ n) then
      { s with outs := { s.outs with thermTrip := false } }.set pgPRS F.PRS_THERM_SUMMARY_TRIP 0
    else s

/-! ### Stack temperature (R297, R312, R683) -/

/-- The purser's rule for one stack reading: at or above the threshold, and low enough to end throttling. (DEDUCED, log entry 164) -/
def State.stackThrot (s : State) (g : Nat) (above below : Bool) : State :=
  let h := s.hc g
  let n := if (if h.throttled then below else above) then h.dwell + 1 else 0
  if n < s.dwell then s.modHc g fun h => { h with dwell := n }
  else
    let on := !h.throttled
    let s := s.modHc g fun h => { h with dwell := 0, throttled := on, cap := s.get pgPRS F.PRS_STACK_THR_STACK_FACTOR * 400 }
    let s := s.set pgPRS F.PRS_THERM_SUMMARY_STACK (putBits (s.get pgPRS F.PRS_THERM_SUMMARY_STACK) g 1 (b2n on))
    if on then s.raise pgPRS Err.PRS_STACK_THROT (detVal g (s.get (hcPage g) F.HC_HC_TEMP_TEMP)) true else s

/-- The refresh rate of a stack becomes v: a rise makes refreshes due at once (R295, R305). -/
def State.refRate (s : State) (g v : Nat) : State :=
  let cur := s.get (hcPage g) F.HC_HC_TEMP_REF_MULT
  let s := s.set (hcPage g) F.HC_HC_TEMP_REF_MULT v
  if cur ≠ 0 ∧ cur < v then s.hcOwe g else s

/-- The 1 ms reading of a stack: nothing when it fails, else its temperature and the refresh rate it asks for as 2^k. A
lower rate is the higher of this reading's and the last one's (R297, R312). (DESIGN CHOICE, log entry 81) -/
def State.hbmTemp (s : State) (g : Nat) (r : Option (BitVec 8 × Fin 3)) : State :=
  let p := hcPage g
  match r with
  | none =>
    let s := ((s.set p F.HC_HC_TEMP_VALID 0).refRate g 4).raise p Err.HC_TEMP_INVALID
    (s.modHc g fun h => { h with lower := 0 }).stackThrot g true false
  | some (temp, k) =>
    let t : Int := toSigned 8 temp.toNat
    let ask := 2 ^ k.val
    let cur := s.get p F.HC_HC_TEMP_REF_MULT
    let low := (s.hc g).lower
    let s := (s.set p F.HC_HC_TEMP_TEMP temp.toNat).set p F.HC_HC_TEMP_VALID 1
    let s := (s.refRate g (if cur ≤ ask then ask else if low = 0 then cur else min cur (max low ask))).modHc g fun h => { h with lower := ask }
    let s := if toSigned 8 (s.get p F.HC_HC_TEMP_LIMIT_LIMIT) ≤ t then s.raise p Err.HC_STACK_HOT (detVal g temp.toNat) else s
    let thr : Int := (s.get pgPRS F.PRS_STACK_THR_THR : Nat)
    s.stackThrot g (decide (thr ≤ t)) (decide (t ≤ thr - (s.get pgPRS F.PRS_THERM_THR_HYST : Nat)))

/-! ### Power (R665) -/

/-- CAL × E_LINE × V² over 64 × 750², applied to n: the energy of n lines at v millivolts, in pJ, rounded down. -/
def State.linePj (s : State) (n v : Nat) : Nat :=
  n * s.get pgPRS F.PRS_E_LINE_PJ * v * v * s.get pgPRS F.PRS_CAL_CAL / (750 * 750 * 64)

/-- The dynamic power of a gallery over the 4 µs window at v millivolts, in mW. (DEDUCED, log entry 143) -/
def State.dynPower (s : State) (v g : Nat) : Nat := s.linePj (s.arb g).moved v / 4000

/-- The die's temperature code for the characterised leakage: quarter degrees above −256 °C. -/
def State.leakAt (s : State) (v g : Nat) : Nat := Config.leakPower g v (s.usedTemp g + 1024).toNat
def State.staticPower (s : State) (v : Nat) : Nat :=
  Config.edgePower s.ticks + ((List.range 8).map (s.leakAt v)).sum
def State.totalPower (s : State) (v : Nat) : Nat := s.staticPower v + ((List.range 8).map (s.dynPower v)).sum

/-- PKG_BUDGET in mW. -/
def State.budget (s : State) : Nat := 125 * s.get pgPRS F.PRS_PKG_BUDGET_EIGHTHS

/-! ### VCORE (R675, R676, R689, R690) -/

/-- The thermal cap of Table 16-3. -/
def State.vCap (s : State) : Nat :=
  let top := (List.range 17).foldl (fun n i => max n (s.sensorState i)) 0
  let vmax := s.get pgPRS F.PRS_VCORE_CFG_VMAX
  if top = 3 then s.get pgPRS F.PRS_VCORE_CFG_VMIN
  else if top = 2 then min vmax (s.get pgPRS F.PRS_THERM_ACT_VCORE_THROT)
  else vmax

/-- The target that the mode calls for, clamped; `relax` counts computations with no gallery bound by L_cap. -/
def State.vTarget (s : State) (relax : Nat) : Nat :=
  let cur := s.vReq
  let lim := s.budget * 62 / 64
  let bound := (List.range 8).any fun g => s.purser.capped.testBit g && (s.arb g).limHeld
  let want :=
    if !s.flag pgPRS F.PRS_PRS_CTRL_VMODE then s.get pgPRS F.PRS_VCORE_SET_MV
    else if bound && decide (s.totalPower (cur + 10) ≤ lim) then cur + 10
    else if lim < s.totalPower s.vRead ∨ s.get pgPRS F.PRS_VCORE_SET_VRELAX ≤ relax then cur - 10
    else cur
  let vmin := s.get pgPRS F.PRS_VCORE_CFG_VMIN
  min (min (max want vmin) (s.get pgPRS F.PRS_VCORE_CFG_VMAX)) s.vCap

/-- One step of at most 10 mV towards a target. -/
def vStep (cur want : Nat) : Nat := if cur < want then min want (cur + 10) else max want (cur - 10)

/-- The next VCORE request: frozen while the AVSBus fails (R694). -/
def State.vNext (s : State) (relax : Nat) : Nat := if s.avsOk then vStep s.vReq (s.vTarget relax) else s.vReq

/-! ### Dividing the budget (R667 to R670) -/

def lFloor : Nat := 1500

/-- Budget of the galleries with their weights before lending. -/
def State.weight (s : State) (g : Nat) : Nat := bits (s.get pgPRS F.PRS_GAL_WEIGHT_WEIGHT) (4 * g) 4
def State.baseShares (s : State) (d : Nat) : List Nat :=
  let w := ((List.range 8).map s.weight).sum
  (List.range 8).map fun g => d * s.weight g / w

/-- Engines' shares move to the pool, in order of engine (R667). -/
def lendShares (share : Nat) : List Nat → List Nat × Nat → List Nat × Nat
  | [], r => r
  | e :: es, (b, pool) =>
    let x := b.getD (e / 2) 0 * share / 64
    lendShares share es (modAt (· - x) (e / 2) b, pool + x)

/-- The engines that lend at this computation (R668, R686). -/
def State.lenders (s : State) : List Nat :=
  if s.flag pgPRS F.PRS_PRS_CTRL_LEND_EN then (List.range 16).filter fun e => s.purser.lending.contains e && s.lends e else []

/-- The factor of a thermal state (Table 16-2). -/
def State.thermFactor (s : State) (g : Nat) : Nat :=
  let st := s.galTherm g
  if st = 3 then s.get pgPRS F.PRS_THERM_ACT_CRIT_FACTOR else if st = 2 then s.get pgPRS F.PRS_THERM_ACT_THROT_FACTOR else 64

/-- D_g of every gallery and the pool (R667). (DEDUCED, log entry 144) -/
def State.divide (s : State) (d : Nat) (lend : List Nat) : List Nat × Nat :=
  let (b, pool) := lendShares (s.get pgPRS F.PRS_SHARES_ENG_SHARE) lend (s.baseShares d, 0)
  let takes (g : Nat) : Bool := (s.arb g).limHeld && decide (s.galTherm g ≤ 1) && !(lend.any fun e => e / 2 == g)
  let w := (((List.range 8).filter takes).map s.weight).sum
  let b := b.zipIdx.map fun x => if takes x.2 then x.1 + pool * s.weight x.2 / w else x.1
  (b.zipIdx.map fun x => x.1 * s.thermFactor x.2 / 64, pool)

/-- The bound on the turn period in 1/16 ps where no measurement is valid (R6, R46, R50). -/
def State.turnBound (s : State) (g : Nat) : Nat := if s.fuses.gradeE && decide (420 < s.usedTemp g) then 1340 * 16 else 1300 * 16

/-- L_cap of a gallery (R669). -/
def State.lCap (s : State) (g : Nat) (lowers : Bool) : Nat :=
  let per := if s.flag pgTBS (F.TBS_TURN_PERIOD_VALID.at g) then s.get pgTBS (F.TBS_TURN_PERIOD_PERIOD.at g) else s.turnBound g
  let per := if per = 0 then s.turnBound g else per
  if lowers then 64000000 * 16 * 31 / (per * 32) else 64000000 * 16 / per

/-- L_power of a gallery at the voltage requested, none where lines cost nothing (R669). -/
def State.lPower (s : State) (d v : Nat) : Option Nat :=
  let c := s.get pgPRS F.PRS_E_LINE_PJ * v * v * s.get pgPRS F.PRS_CAL_CAL
  if c = 0 then none else some (d * 1000 * 750 * 750 * 64 / c)

/-- L_g, and whether L_cap set it. -/
def State.lineRate (s : State) (g d v : Nat) (lowers : Bool) : Nat × Bool :=
  let cap := s.lCap g lowers
  let pow := (s.lPower d v).getD cap
  (max lFloor (min pow cap), decide (cap ≤ pow ∧ lFloor ≤ cap))

/-- C_m of a module: its link rate in DAT flits per µs (R205). -/
def State.linkCap (s : State) (m : Nat) : Nat :=
  let r := s.get (modPage m) F.MOD_MOD_STATUS_RATE
  if r = 0 then 1000 else if r = 1 then 1500 else 2000

/-- The fabric modules of a gallery in link-up. (DEDUCED, log entry 54) -/
def State.paceMods (s : State) (g : Nat) : List Nat := [2 * g, 2 * g + 1].filter fun m => s.modUp m && !s.isTwin m

/-- A_g (R670). -/
def State.allowance (s : State) (g l : Nat) : Nat :=
  min (l * s.get pgPRS F.PRS_SHARES_MOD_SHARE / 192) (((s.paceMods g).map s.linkCap).sum)

/-- R_m of a direction from the lines requested in the window (R205). -/
def State.paceNeed (s : State) (m lines : Nat) : Nat :=
  let p := arbPage (m / 2)
  let hr := max 64 (s.get p F.ARB_PACE_CTRL_HEADROOM)
  min (s.linkCap m) (max (s.get p F.ARB_PACE_CTRL_FLOOR) ((lines * hr + 767) / 768))

/-- The PACE values of a gallery's modules in one direction from their R and the allowance (R205). -/
def paceSplit (a : Nat) : List Nat → List Nat
  | [] => []
  | [r] => [min r a]
  | [r0, r1] =>
    if r0 + r1 ≤ a then [r0, r1]
    else
      let p0 := min r0 (a / 2)
      let p1 := min r1 (a / 2)
      let left := a - p0 - p1
      let x0 := min (r0 - p0) left
      [p0 + x0, p1 + min (r1 - p1) (left - x0)]
  | rs => rs

/-- The PACE message of a module (Table 6-9). -/
def paceMsg (rd wr interval : Nat) (enf lim : Bool) : BitVec 128 :=
  BitVec.ofNat 128 (opPACE + rd % 2 ^ 12 * 2 ^ 32 + wr % 2 ^ 12 * 2 ^ 48 + interval % 2 ^ 32 * 2 ^ 64 + b2n enf * 2 ^ 96 + b2n lim * 2 ^ 97)

/-- Form and hand over the PACE values of a gallery (R204, R205). -/
def State.paceGallery (s : State) (g a : Nat) : State :=
  let ms := s.paceMods g
  let need := ms.map fun m => (s.paceNeed m (s.link m).dRd, s.paceNeed m (s.link m).dWr)
  let rds := paceSplit a (need.map (·.1))
  let wrs := paceSplit a (need.map (·.2))
  let enf := s.flag (arbPage g) F.ARB_PACE_CTRL_ENFORCE
  foldS (fun x s =>
    let (m, i) := x
    let rd := rds.getD i 0
    let wr := wrs.getD i 0
    let lim := decide (rd < (need.getD i (0, 0)).1 ∨ wr < (need.getD i (0, 0)).2)
    (s.modLink m fun l => { l with pace := some (paceMsg rd wr ((s.ticks + 2) / 4) enf lim), nextRd := rd, nextWr := wr, nextEnf := enf,
                                   nextBurst := s.get (arbPage g) F.ARB_PACE_CTRL_BURST,
                                   dRd := 0, dWr := 0 }).traceEv 8 m 0 (rd + wr * 2 ^ 12)) ms.zipIdx s

/-! ### The computation (R664) -/

/-- The computation of tick 4n + 2. `parity` is a parity error in the computation's state (R695). (DEDUCED, log entry 145) -/
def State.compute (s : State) (a : AvsRead) : State :=
  if s.ticks % 4 ≠ 2 ∨ s.phase < 2 ∨ s.purser.computedAt = some s.ticks then s
  else
    let s := s.commitNow pgPRS
    let v := s.vRead
    let st := s.staticPower v
    let tot := s.totalPower v
    let mw18 (n : Nat) : Nat := min n (2 ^ 18 - 1)
    let short := decide (s.budget < st)
    let relax := if s.purser.capped = 0 then s.purser.relax + 1 else 0
    let vn := s.vNext relax
    let lowers := decide (vn < s.vReq)
    let steps := vn != s.vReq
    let lend := s.lenders
    let (d, pool) := s.divide (s.budget - st) lend
    let ls := d.zipIdx.map fun x => s.lineRate x.2 x.1 vn lowers
    let as' := ls.zipIdx.map fun x => s.allowance x.2 x.1.1
    let capped := (List.range 8).foldl (fun n g => n + b2n (ls.getD g (0, false)).2 * 2 ^ g) 0
    let e := s.purser.energy + tot * 4
    let nx : PrsNext := ⟨d, ls.map (·.1), as', lend.foldl (fun n i => n + 2 ^ i) 0, pool, capped,
      s.flag pgPRS F.PRS_PRS_CTRL_LIMIT_EN, s.get pgPRS F.PRS_LIMIT_BURST_LINES⟩
    let s := (s.set pgPRS F.PRS_P_STATIC_MW (mw18 st)).set pgPRS F.PRS_P_TOTAL_MW (mw18 tot)
    let s := s.countW pgPRS F.PRS_ENERGY (e / 1000)
    let s := if vn = s.vReq then s else (s.set pgPRS F.PRS_VCORE_STATUS_REQ vn).count pgPRS F.PRS_VCORE_STEPS
    let s := foldS (fun x s => s.paceGallery x.2 x.1) as'.zipIdx s
    let s := s.modPurser fun p =>
      { p with computedAt := some s.ticks, next := some nx, relax := relax, parity := false, energy := e % 1000,
               lending := p.lending.filter s.lends }
    let s := foldS (fun g s => s.setArb g { s.arb g with moved := 0, limHeld := false }) (List.range 8) s
    let s := if short then s.raise pgPRS Err.PRS_BUDGET_SHORT (detVal st s.budget) else s
    s.avsTake a steps

/-! ### The interval (R204, R206, R664) -/

/-- Judge a module's interval (R206). -/
def State.paceJudge (s : State) (m : Nat) : State :=
  let l := s.link m
  let short (dir got p : Nat) : Bool := l.waited.testBit dir && decide (4 * got < 15 * 192 * p)
  if s.modUp m && (short 0 l.gotRd l.paceRd || short 1 l.gotWr l.paceWr) then
    (s.count (arbPage (m / 2)) (F.ARB_PACE_SHORT.at (m % 2))).raise (arbPage (m / 2)) Err.ARB_PACE_SHORT (detVal m 0)
  else s

/-- A module's new PACE values come into force: buckets full, counts afresh (R207). -/
def State.paceStart (s : State) (m : Nat) : State :=
  let s := s.modLink m fun l =>
    { l with paceRd := l.nextRd, paceWr := l.nextWr, enforced := l.nextEnf, burst := l.nextBurst, bktRd := 192 * l.nextBurst, bktWr := 192 * l.nextBurst, gotRd := 0, gotWr := 0,
             waited := s.waitDirs m, returns := l.withheld.foldl (fun cs c => addReturn cs c.vc c.pool c.n) l.returns, withheld := [] }
  let p := arbPage (m / 2)
  (s.set p (F.ARB_PACE_LAST_RD.at (m % 2)) (s.link m).paceRd).set p (F.ARB_PACE_LAST_WR.at (m % 2)) (s.link m).paceWr

/-- The results of a computation apply from tick 4n + 4. -/
def State.intervalStart (s : State) : State :=
  if s.ticks % 4 ≠ 0 ∨ s.purser.startedAt = some s.ticks then s
  else match s.purser.next with
    | none => s
    | some nx =>
      let s := foldS (fun m s => if s.isTwin m then s else (s.paceJudge m).paceStart m) (List.range 16) s
      let first := !s.purser.computed
      let s := foldS (fun g s =>
        let s := (s.set pgPRS (F.PRS_GAL_ALLOW_MW.at g) (min (nx.d.getD g 0) (2 ^ 18 - 1))).set pgPRS (F.PRS_GAL_LINES_L.at g) (min (nx.l.getD g 0) (2 ^ 17 - 1))
        let s := (s.set pgPRS (F.PRS_GAL_PACE_RD.at g) (nx.a.getD g 0)).set pgPRS (F.PRS_GAL_PACE_WR.at g) (nx.a.getD g 0)
        if first then s.setArb g { s.arb g with bucket := nx.burst, limWait := [] } else s) (List.range 8) s
      let s := (s.set pgPRS F.PRS_LEND_STATE nx.lend).set pgPRS F.PRS_LEND_POOL_MW (min nx.pool (2 ^ 18 - 1))
      s.modPurser fun p => { p with next := none, computed := true, capped := nx.capped, limitOn := nx.limitOn, burst := nx.burst, startedAt := some s.ticks }

/-! ### Calibration (R666) -/

/-- CAL moves one unit towards the ratio of measured to estimated VCORE power, in 1/64; `est` is the estimate in mW. -/
def State.calibrate (s : State) (est : Nat) : State :=
  if s.ticks % 100 ≠ 0 ∨ !s.avsOk ∨ est = 0 ∨ s.purser.calAt = some s.ticks then s
  else
    let r := s.vRead * s.get pgPRS F.PRS_VCORE_CURRENT_I * 10 / 1000 * 64 / est
    let c := s.get pgPRS F.PRS_CAL_CAL
    let c' := if c < r then c + 1 else if r < c then c - 1 else c
    (s.set pgPRS F.PRS_CAL_CAL (max 32 (min 128 c'))).modPurser fun p => { p with calAt := some s.ticks }

/-- A parity error in the computation's state: every gallery at L_FLOOR (R695). -/
def State.purserParity (s : State) : State :=
  foldS (fun g s => s.set pgPRS (F.PRS_GAL_LINES_L.at g) lFloor) (List.range 8)
    ((s.modPurser fun p => { p with parity := true, next := p.next.map fun x => { x with l := x.l.map fun _ => lFloor } }).raise pgPRS Err.REG_PARITY)

end Sys2Proof.Machine
end

