-- ==== Sys2Proof/Machine/Context.lean ====
section
/-! DEFINITION. Contexts: assignment, retirement and what a context switch clears (R639 to R641, Table 15-6). -/

namespace Sys2Proof.Machine

def tfqPage (c : Nat) : Page := ⟨.TFQ, c⟩
def tmkPage (c : Nat) : Page := ⟨.TMK, c⟩

/-- Requests of a context in a module's receive buffer answer RETIRED; INT and EVT of it that are not sent, and EVT of it
not taken, are discarded (R266). -/
def State.retireRx (s : State) (c m : Nat) : State :=
  if s.isTwin m then s
  else
    let l := s.link m
    let hit (x : RxMsg) : Bool := hCtx x.msg.hdr == c && (opClass (hOpc x.msg.hdr) == 0 || hOpc x.msg.hdr == opEVT)
    let s := s.setLink m { l with
      rx := l.rx.filter fun x => !hit x
      tx := l.tx.filter fun t => !(t.ctx == c && (hOpc t.msg.hdr == opINT || hOpc t.msg.hdr == opEVT)) }
    (foldS (fun x s =>
      let s := s.giveBack m x.msg
      if hOpc x.msg.hdr = opEVT then s else s.respond m x.msg.hdr 6 0 0 0 []) (l.rx.filter hit) s).updStall m

/-- Errands of a context that have not entered answer RETIRED, and its open combiner entries are discarded with their
writes RETIRED (R266, R407). (DEDUCED, log entry 65) -/
def State.retirePath (s : State) (c g : Nat) : State :=
  let p := s.path g
  let out (e : Errand) : Bool := e.ctx == c && !e.active
  let s := s.setPath g { p with entries := p.entries.filter fun e => !out e, combs := p.combs.filter (·.ctx != c) }
  let s := foldS (fun e s => s.refuseErrand e 6 0) (p.entries.filter out) s
  foldS (fun w s => if w.mute then s else s.respond w.m w.msg.hdr 6 0 0 0 []) ((p.combs.filter (·.ctx == c)).flatMap (·.writes)) s

/-- Stack requests of a context that are not granted answer RETIRED; a whole-line write in its slot is complete (R266). -/
def State.retireStack (s : State) (c g : Nat) : State :=
  let h := s.hc g
  let out (r : StackReq) : Bool := r.ctx == c && r.org != .patrol && !r.granted && !r.complete
  let mine := (h.queue.filter out) ++ h.waiting.filter (·.ctx == c)
  let s := s.setHc g { h with queue := h.queue.filter fun r => !out r, waiting := h.waiting.filter (·.ctx != c) }
  foldS (fun r s => match r.org with
    | .errand eg id k => s.pieceDone eg id k 6 []
    | _ => s) mine s

/-- Walks of a context are abandoned and its cache entries removed (R120, R129). -/
def State.retireXlt (s : State) (c g : Nat) : State :=
  let x := s.xl g
  let rest := x.walks.filter (·.ctx != c)
  s.setXl g { cache := (x.cache.map fun e => (e.1, e.2.filter (·.ctx != c))).filter fun e => !e.2.isEmpty
              walks := startWaiting s.rootOf rest (8 - (rest.filter (·.running)).length) }

/-- Register requests of a context that a page holds answer RETIRED (R266). -/
def State.retireHeld (s : State) (c : Nat) : State :=
  let mine (x : HeldReg) : Bool := x.hdr != 0 && hCtx x.hdr == c
  let hs := s.heldRegs.filter mine
  foldS (fun x s => match x.port with
    | .module m => s.respond m x.hdr 6 0 0 0 []
    | _ => s) hs { s with heldRegs := s.heldRegs.filter fun x => !mine x }

/-- The mixer key of a context is 0 (R509). -/
def State.keyClear (s : State) (c : Nat) : State :=
  foldS (fun off s => s.wr (tmkPage c) off 0) [0x100, 0x104, 0x108, 0x10C] (s.set (tmkPage c) F.TMK_KEY_STATUS_SET 0)

/-- The parts of a context switch, in the order of Table 15-6. -/
def State.ctxClear (s : State) (c : Nat) : State :=
  let s := foldS (fun m s => s.retireRx c m) (List.range 16) s
  let s := s.retireHeld c
  let s := foldS (fun g s => ((s.retirePath c g).retireStack c g).retireXlt c g) (List.range 8) s
  let s := s.engRetire c
  let s := foldS (fun k s => s.ringPurge (4 * c + k)) (List.range 4) s
  let s := (s.hallClear c).keyClear c
  let s := if s.evCtx = c then s.eventClear else s
  let s := (s.clearPage (tctPage c)).clearPortPage (tctPage c)
  { s with faultBufs := del s.faultBufs c }.clearPage (tfqPage c) fun off => off < 0x100

/-- A context switch begins: CLEARING, BUSY, and the clearing (R639). -/
def State.ctxBegin (s : State) (c : Nat) (assign : Bool) : State :=
  let s := (s.set pgCTX (F.CTX_CTX_STATE_STATE.at c) 1).set pgCTX F.CTX_CTX_BUSY (s.get pgCTX F.CTX_CTX_BUSY ||| 2 ^ c)
  let s := s.set pgTHL F.THL_CLEAR_STATUS_BUSY (s.get pgTHL F.THL_CLEAR_STATUS_BUSY ||| 2 ^ c)
  ({ s with clearing := put s.clearing c assign }).ctxClear c

/-- A command for a context: refused while it is CLEARING, and a RETIRE of an UNASSIGNED one; else it is mirrored
(R613, R639, R641). (DEDUCED, log entry 137) -/
def State.ctxCmdTo (s : State) (c : Nat) (assign : Bool) (fin : MirDone) : Bool × State :=
  if s.twinState = twFENCED then (false, s)
  else if s.ctxState c = 1 ∨ (!assign ∧ s.ctxState c = 0) then (false, s.raise pgCTX Err.CTX_CMD_IGNORED (detVal c 0))
  else
    let body : MirBody := { mkind := mkCONTEXT, addr := 0, kspec := b2n assign }
    let o : MirOrg := { ctx := c }
    if s.forwards then (true, s.mirForward o body fin)
    else (s.ctxBegin c assign).mirApply o body s.dieNo 0 0 fin
def State.ctxCmd (s : State) (c : Nat) (assign : Bool) : State := (s.ctxCmdTo c assign .nobody).2

/-- Every access of a context that was granted has completed. -/
def State.ctxQuiet (s : State) (c : Nat) : Bool :=
  (List.range 8).all fun g => !((s.path g).entries.any fun e => e.ctx == c) && !((s.hc g).queue.any fun r => r.ctx == c && r.granted)

/-- The clearing of a context is complete (R640): what its last granted accesses counted is cleared too (R226). -/
def State.ctxDone (s : State) (c : Nat) : State :=
  match find s.clearing c with
  | none => s
  | some assign =>
    if !s.ctxQuiet c then s
    else
      let s := ({ s with clearing := del s.clearing c }.clearPage (tctPage c)).clearPortPage (tctPage c)
      let s := s.set pgCTX F.CTX_CTX_BUSY (s.get pgCTX F.CTX_CTX_BUSY &&& (0xFFFF - 2 ^ c))
      let s := s.set pgTHL F.THL_CLEAR_STATUS_BUSY (s.get pgTHL F.THL_CLEAR_STATUS_BUSY &&& (0xFFFF - 2 ^ c))
      let s := s.set pgCTX (F.CTX_CTX_STATE_STATE.at c) (if assign then 2 else 0)
      if assign then s.set pgCTX (F.CTX_CTX_STATE_GEN.at c) (s.get pgCTX (F.CTX_CTX_STATE_GEN.at c) + 1) else s

end Sys2Proof.Machine
end

