-- ==== Sys2Proof/Machine/Mixers.lean ====
section
/-! DEFINITION. The mixers of a gallery (chapter 12): their service, the check unit, and the keys of contexts. -/

namespace Sys2Proof.Machine

def mixPage (g : Nat) : Page := ⟨.MIX, g⟩
def State.mix (s : State) (g : Nat) : MixSt := (find s.mixers g).getD {}
def State.setMix (s : State) (g : Nat) (m : MixSt) : State := { s with mixers := put s.mixers g m }

def State.inService (s : State) (g : Nat) : Nat := s.get (mixPage g) F.MIX_MIX_STATUS_IN_SERVICE
def State.mixFaulted (s : State) (g : Nat) : Nat := s.get (mixPage g) F.MIX_MIX_STATUS_FAULTED

/-- Mixer k fails a block: out of service, FAULTED, counted and logged; with the last one ALL_OUT (R526, R527). -/
def State.mixerFail (s : State) (g k : Nat) : State :=
  let p := mixPage g
  let s := (s.set p F.MIX_MIX_STATUS_IN_SERVICE (s.inService g &&& (255 - 2 ^ k))).set p F.MIX_MIX_STATUS_FAULTED (s.mixFaulted g ||| 2 ^ k)
  let s := (s.count p F.MIX_FAULTS).raise p Err.MIX_MIXER_FAULT (detVal k 0) true
  if s.inService g = 0 then s.raise p Err.MIX_ALL_OUT else s

/-- Mixers of a mask return to service (R528). -/
def State.mixerBack (s : State) (g mask : Nat) : State :=
  let p := mixPage g
  (s.set p F.MIX_MIX_STATUS_IN_SERVICE (s.inService g ||| mask)).set p F.MIX_MIX_STATUS_FAULTED (s.mixFaulted g &&& (255 - mask))

/-- A mixer delivers a block, or fails its check (R516, R526). (DEDUCED, log entry 113) -/
def State.mixerBlock (s : State) (g k : Nat) (quick fail : Bool) : State :=
  let p := mixPage g
  if !(s.inService g).testBit k then s
  else if fail then s.mixerFail g k
  else
    let s := s.countW p F.MIX_BLOCKS
    if quick then s.count p F.MIX_QUICK_BLOCKS else s

/-! ### The check unit (R519, R523, R524, R528, R529) -/

/-- The key in force of a context. -/
def State.keyOf (s : State) (c : Nat) : Nat := (s.rd (tmkPage c) 0x100).toNat + (s.rd (tmkPage c) 0x104).toNat * 2 ^ 32

/-- The check inputs as they stand. -/
def State.chkInputs (s : State) (g : Nat) : ChkIn :=
  let p := mixPage g
  { key := if s.flag p F.MIX_CHK_CFG_USE_CTX then s.keyOf (s.get p F.MIX_CHK_CFG_CTX)
           else (s.rd p 0x110).toNat + (s.rd p 0x114).toNat * 2 ^ 32
    stream := (s.rd p 0x118).toNat, purpose := s.get p F.MIX_CHK_CFG_PURPOSE
    pos := (s.rd p 0x11C).toNat + (s.rd p 0x120).toNat * 2 ^ 32, quick := s.flag p F.MIX_CHK_CFG_QUICK }

/-- A write of CHK_CTRL.START; a START during a comparison begins when that completes. -/
def State.chkStart (s : State) (g : Nat) : State :=
  let p := mixPage g
  if s.flag p F.MIX_CHK_STATUS_BUSY then s.raise p Err.MIX_CHK_IGNORED
  else
    let m := s.mix g
    let x := s.chkInputs g
    let s := s.set p F.MIX_CHK_STATUS_BUSY 1
    s.setMix g (if m.cmp.isSome then { m with start := some x } else { m with chk := some x })

/-- The results of a check computation (R503, R513, R514, R519). -/
def State.chkWrite (s : State) (g : Nat) (x : ChkIn) : State :=
  let p := mixPage g
  let w := mixBlock x.key x.stream x.purpose x.pos x.quick
  let at' (i : Nat) : Nat := w.getD i 0
  let s := foldS (fun i s => (s.wr p (0x130 + 4 * i) (BitVec.ofNat 32 (at' i))).wr p (0x150 + 4 * i) (BitVec.ofNat 32 (normalTbl (at' i))))
    [0, 1, 2, 3] s
  let s := foldS (fun j s => s.wr p (0x140 + 4 * j) (BitVec.ofNat 32 (normalT (at' (2 * j)) (at' (2 * j + 1))))) [0, 1] s
  (s.set p F.MIX_CHK_STATUS_DONE 1).set p F.MIX_CHK_STATUS_SEQ ((s.get p F.MIX_CHK_STATUS_SEQ + 1) % 2 ^ 16)

/-- The check unit ends its computation; in its fault state it writes nothing and leaves DONE clear. (DEDUCED, log entry 114) -/
def State.chkDone (s : State) (g : Nat) : State :=
  let m := s.mix g
  match m.chk with
  | none => s
  | some x =>
    let s := (s.setMix g { m with chk := none }).set (mixPage g) F.MIX_CHK_STATUS_BUSY 0
    if m.fault then s else s.chkWrite g x

/-- A write of MIX_CTRL.RETURN: the named mixers that are out of service are compared. -/
def State.mixReturn (s : State) (g mask : Nat) : State :=
  let out := mask % 256 &&& (255 - s.inService g)
  let m := s.mix g
  if out = 0 ∨ m.cmp.isSome then s else s.setMix g { m with cmp := some (out, s.chkInputs g) }

/-- The comparison completes once no check computation runs; `agree` names the mixers whose block equals the check
unit's. A START that waited begins. -/
def State.compareDone (s : State) (g agree : Nat) : State :=
  let m := s.mix g
  match m.cmp, m.chk with
  | some (mask, _), none =>
    let s := if m.fault then s else s.mixerBack g (mask &&& agree)
    s.setMix g { m with cmp := none, chk := m.start, start := none }
  | _, _ => s

/-- The check unit fails (R529). -/
def State.chkFault (s : State) (g : Nat) : State :=
  (s.setMix g { s.mix g with fault := true }).raise (mixPage g) Err.MIX_CHK_FAULT

/-- A soft reset of the page ends: the check unit is clear and mixers that agree are in service (R531). -/
def State.mixSoftReset (s : State) (g agree : Nat) : State :=
  ((s.setMix g {}).set (mixPage g) F.MIX_CHK_STATUS_BUSY 0).mixerBack g (agree % 256 &&& (255 - s.inService g))

/-- The comparison of R530 at the end of P0: mixers of a mask disagree. -/
def State.mixersCompared (s : State) (g fails : Nat) : State :=
  foldS (fun k s => if fails.testBit k then s.mixerFail g k else s) (List.range 8) s

/-! ### Keys (R507, R510, R521) -/

/-- KEY_APPLY on this die; discarded while the context is being cleared. -/
def State.keySet (s : State) (c : Nat) : State :=
  let p := tmkPage c
  if s.ctxState c = 1 then s
  else
    let s := (s.wr p 0x100 (s.rd p 0x108)).wr p 0x104 (s.rd p 0x10C)
    (s.set p F.TMK_KEY_STATUS_SET 1).set p F.TMK_KEY_STATUS_SEQ ((s.get p F.TMK_KEY_STATUS_SEQ + 1) % 2 ^ 16)

end Sys2Proof.Machine
end

