-- ==== Sys2Proof/Machine/Pages.lean ====
section
/-! DEFINITION. What every register page does alike (chapter 3): writes by attribute class, the common registers, commits
and their checks, halts, soft resets and error injection. -/

namespace Sys2Proof.Machine

def capBit (k : PageKind) (i : Nat) : Bool := (Sys2Proof.PageKind.caps k).testBit i

/-! ### Attribute classes (R111, R113, R755) -/

/-- RW-H fields of a page may be written: it is HALTED; on a CRY or EVM page as R583 and R754 say. -/
def State.hardOpen (s : State) (p : Page) : Bool :=
  match p.kind with
  | .CRY | .EVM => s.halted pgEVM || !s.evOn
  | _ => s.halted p

/-- A write to the register at an offset, each field by its class. -/
def State.writeFields (s : State) (p : Page) (off : Nat) (w : Word) : State :=
  match findReg p.kind off with
  | none => s
  | some d =>
    if d.wide then s
    else
      let m (a : Attr) : Word := BitVec.ofNat 32 (d.maskOf a)
      let old := s.rd p off
      let live := mergeWord (d.maskOf .rwL) w old
      let live := if s.hardOpen p then mergeWord (d.maskOf .rwH) w live else live
      let live := live &&& ~~~(w &&& m .w1c) &&& ~~~(m .cntS)
      let refused := !s.hardOpen p && decide ((w ^^^ old) &&& m .rwH ≠ 0)
      let s := if live = old then s else s.wr p off live
      let s := if refused then s.raise p Err.WRITE_WHILE_RUN else s
      let sh := s.rdSh p off
      if (w ^^^ sh) &&& m .rwS = 0 then s
      else if s.commitPending p then s.raise p Err.SHADOW_BUSY
      else s.wrSh p off (mergeWord (d.maskOf .rwS) w sh)

/-- What a read of a register's stored fields returns: shadows of RW-S fields unless READ_LIVE, 0 for WO (Table 3-11). -/
def State.readFields (s : State) (p : Page) (off : Nat) : Word :=
  match findReg p.kind off with
  | none => 0
  | some d =>
    let live := s.rd p off
    let v := if s.flag p F.PAGE_CTRL_READ_LIVE then live else mergeWord (d.maskOf .rwS) (s.rdSh p off) live
    v &&& ~~~(BitVec.ofNat 32 (d.maskOf .wo))

/-! ### Commits (R112, R197, R456, R685, Table 13-13) -/

def State.shGet (s : State) (p : Page) (f : Fld) : Nat := s.getSh p f

/-- The ticket rule of one group of registers. -/
def State.ticketsLegal (s : State) (p : Page) (b lo hi : Fld) : Bool :=
  (List.range 8).all fun k => decide (s.shGet p (lo.at k) ≤ s.shGet p (b.at k) ∧ s.shGet p (b.at k) ≤ s.shGet p (hi.at k))

def State.arbLegal (s : State) (p : Page) : Bool :=
  let mn (k : Nat) : Nat := s.shGet p (F.ARB_CLASS_SHARE_MIN.at k)
  let cl (k : Nat) : Nat := s.shGet p (F.ARB_CLASS_SHARE_CEIL.at k)
  let win := s.shGet p F.ARB_REG_WINDOW_US
  decide (((List.range 8).map mn).sum ≤ 64) && (List.range 8).all (fun k => decide (mn k ≤ cl k ∧ 1 ≤ cl k ∧ cl k ≤ 64)) &&
  s.ticketsLegal p F.ARB_TICKETS_LOCAL_BASE F.ARB_TICKETS_LOCAL_TMIN F.ARB_TICKETS_LOCAL_TMAX &&
  s.ticketsLegal p F.ARB_TICKETS_STAIR_BASE F.ARB_TICKETS_STAIR_TMIN F.ARB_TICKETS_STAIR_TMAX &&
  s.ticketsLegal p F.ARB_TICKETS_STACK_BASE F.ARB_TICKETS_STACK_TMIN F.ARB_TICKETS_STACK_TMAX &&
  decide (1 ≤ win ∧ win ≤ 1000) && s.shGet p F.ARB_ADAPT_CFG_STEP != 0 && s.shGet p F.ARB_ADAPT_CFG_RELAX != 0

/-- The THL page's allocations and shares, from shadow or live values. -/
structure HallAlloc where
  base : List Nat
  count : List Nat
  share : List Nat
  deriving DecidableEq, Repr

def hallAlloc (f : Nat → Word) : HallAlloc :=
  ⟨(List.range 16).map fun c => wbits (f (0x100 + 4 * c)) 0 7, (List.range 16).map fun c => wbits (f (0x100 + 4 * c)) 8 8,
   (List.range 64).map fun k => (f (0x140 + 4 * k)).toNat⟩

def HallAlloc.owner (a : HallAlloc) (p : Nat) : Option Nat :=
  (List.range 16).find? fun c => decide (64 * a.base.getD c 0 ≤ p ∧ p < 64 * (a.base.getD c 0 + a.count.getD c 0))

def State.thlLegal (s : State) : Bool :=
  let n := hallAlloc (s.rdSh pgTHL)
  let o := hallAlloc (s.rd pgTHL)
  let b (c : Nat) : Nat := n.base.getD c 0
  let k (c : Nat) : Nat := n.count.getD c 0
  let cs := List.range 16
  let apart := cs.all fun c => cs.all fun e => c == e || k c == 0 || k e == 0 || decide (b c + k c ≤ b e ∨ b e + k e ≤ b c)
  let fits := cs.all fun c => k c == 0 || decide (b c + k c ≤ 128)
  let on := n.share.filter fun x => bit x 13
  let phys (x : Nat) : Nat := bits x 0 13
  let guest (x : Nat) : Nat := bits x 14 4
  let gv (x : Nat) : Nat := bits x 19 13
  let good := on.all fun x => (n.owner (phys x)).isSome && decide (gv x < 64 * k (guest x)) &&
    (on.filter fun y => phys y == phys x).length == 1 && (on.filter fun y => guest y == guest x && gv y == gv x).length == 1
  let touched (x : Nat) (a : HallAlloc) : Bool :=
    bit x 13 && (s.assigned (guest x) || (a.owner (phys x)).any s.assigned)
  let frozen := cs.any (fun c => s.assigned c && (b c != o.base.getD c 0 || k c != o.count.getD c 0)) ||
    (n.share.zip o.share).any fun x => x.1 != x.2 && (touched x.1 n || touched x.2 o)
  apart && fits && good && !frozen

def State.prsLegal (s : State) : Bool :=
  let g (f : Fld) : Nat := s.shGet pgPRS f
  let vmin := g F.PRS_VCORE_CFG_VMIN
  let vmax := g F.PRS_VCORE_CFG_VMAX
  decide (g F.PRS_THERM_THR_TWARN < g F.PRS_THERM_THR_TTHROT ∧ g F.PRS_THERM_THR_TTHROT < g F.PRS_THERM_THR_TCRIT ∧
    g F.PRS_THERM_THR_TCRIT ≤ 125) && g F.PRS_THERM_THR_HYST != 0 &&
  decide (1 ≤ g F.PRS_THERM_DWELL_SAMPLES ∧ g F.PRS_THERM_DWELL_SAMPLES ≤ 1000) &&
  decide (550 ≤ vmin ∧ vmin ≤ g F.PRS_VCORE_SET_MV ∧ g F.PRS_VCORE_SET_MV ≤ vmax ∧ vmax ≤ 900) &&
  decide (vmin ≤ g F.PRS_THERM_ACT_VCORE_THROT) && decide (g F.PRS_SHARES_ENG_SHARE ≤ 32) &&
  decide (1 ≤ g F.PRS_SHARES_MOD_SHARE ∧ g F.PRS_SHARES_MOD_SHARE ≤ 64) && g F.PRS_GAL_WEIGHT_WEIGHT != 0 &&
  decide (64 ≤ g F.PRS_LIMIT_BURST_LINES)

def State.tevLegal (s : State) (p : Page) : Bool :=
  let per := s.shGet p F.TEV_STEP_PERIOD_TICKS
  decide (50 ≤ per ∧ per ≤ 10000) && decide (s.shGet p F.TEV_STEP_MIN_TICKS ≤ 10000) && decide (s.shGet p F.TEV_STEP_REC_LOG2 ≤ 12)

/-- The consistency rules of the page's chapter hold of its shadow values. -/
def State.commitLegal (s : State) (p : Page) : Bool :=
  match p.kind with
  | .ARB => s.arbLegal p
  | .THL => s.thlLegal
  | .PRS => s.prsLegal
  | .TEV => s.tevLegal p
  | _ => true

/-- A write of PAGE_COMMIT (R112, R113). (DEDUCED, log entry 162) -/
def State.commitWrite (s : State) (p : Page) (commit discard : Bool) : State :=
  let rejected (s : State) : State := s.raise p Err.COMMIT_REJECT
  if commit && discard then rejected s
  else if discard then s.discardCommit p
  else if !commit then s
  else if s.commitPending p then s.raise p Err.SHADOW_BUSY
  else if s.commitLegal p then
    let s := s.pendingIs p 1
    if p.kind = .TEV then s.evAtOnce else s
  else rejected (s.set p F.PAGE_COMMIT_STATUS_REJECTED 1)

/-- The LIVE tickets of a gallery are BASE (R197), and a new regulation window starts. -/
def State.ticketsToBase (s : State) (g : Nat) : State :=
  let p := arbPage g
  let s := foldS (fun k s =>
    ((s.set p (F.ARB_TICKETS_LOCAL_LIVE.at k) (s.get p (F.ARB_TICKETS_LOCAL_BASE.at k))).set p (F.ARB_TICKETS_STAIR_LIVE.at k)
      (s.get p (F.ARB_TICKETS_STAIR_BASE.at k))).set p (F.ARB_TICKETS_STACK_LIVE.at k) (s.get p (F.ARB_TICKETS_STACK_BASE.at k)))
    (List.range 8) s
  s.setArb g { s.arb g with win := [], lost := 0, heldWin := 0, quiet := [], winAt := s.ticks }

/-- A pending commit takes effect at the block's decision boundary. -/
def State.commitTake (s : State) (p : Page) : State :=
  if !s.commitPending p then s
  else
    let s := s.commitNow p
    if p.kind = .ARB then s.ticketsToBase p.inst else s

/-- The boundary that the row COMMIT_TAKES_EFFECT stands for: the PRS and TEV pages take theirs at the purser's
computation and at a step's OPEN (R567, R685), the ENG page at an activation, unless it is idle or HALTED (R112, R396). (DESIGN CHOICE, log entry 15; DEDUCED, log entry 91) -/
def State.commitBoundary (s : State) (p : Page) : State :=
  match p.kind with
  | .PRS | .TEV => s
  | .ENG => if s.engIdle p.inst || s.halted p then s.commitTake p else s
  | _ => s.commitTake p

/-! ### Halts (R114, R121, R122, R168, R318, R406, R447, R583, R756) -/

/-- Nothing of module m remains in the interior (R756). -/
def State.modQuiet (s : State) (m : Nat) : Bool :=
  let p := s.path (m / 2)
  let mine (r : TallyReq) : Bool := match r.who with
    | .module k _ => k == m
    | _ => false
  !(p.entries.any fun e => e.m == m || e.merged.any (·.m == m)) && !(p.combs.any fun c => c.writes.any (·.m == m)) &&
  !(s.hall.waiters.any fun w => mine w.req) && !(s.hall.held.any mine)

/-- The block has dealt with its work in flight. -/
def State.haltReady (s : State) (p : Page) : Bool :=
  match p.kind with
  | .ENG => s.engQuiet p.inst
  | .EVM => !s.event.opened
  | .MOD => s.modQuiet p.inst && s.modState p.inst != 4
  | .HC => (s.hc p.inst).retraining.isEmpty
  | _ => true

/-- PAGE_CTRL.HALT = 1. -/
def State.haltStart (s : State) (p : Page) : State :=
  let s := s.set p F.PAGE_CTRL_HALT 1
  if s.running p then s.set p F.PAGE_STATE_RUN HALTING else s

/-- RUN becomes HALTED; a pending commit is taken; a stack completes its queue and enters self-refresh, once no channel of
it is in retrain. -/
def State.haltDone (s : State) (p : Page) : State :=
  if s.run p ≠ HALTING ∨ !s.haltReady p then s
  else
    let s := (s.set p F.PAGE_STATE_RUN HALTED).commitTake p
    match p.kind with
    | .HC =>
      if s.hcState p.inst = 2 then
        ((s.hcDrainAll p.inst).modHc p.inst fun h => { h with rows := [], asleep := [] }).set p F.HC_HC_STATUS_STATE 5
      else s
    | _ => s

/-- An enabled module that is DOWN trains, or waits for its page's HALT to end (R277, R759, Table 6-14). -/
def State.modTrain (s : State) (m : Nat) : State :=
  let p := modPage m
  if s.modState m ≠ 0 ∨ !s.flag p F.MOD_MOD_CTRL_ENABLE ∨ s.phase < 3 ∨ s.isFatal then s
  else if s.flag p F.PAGE_CTRL_HALT then s.modLink m fun l => { l with parked := true }
  else (s.modLink m fun l => { l with parked := false }).set p F.MOD_MOD_STATUS_STATE 1

/-- PAGE_CTRL.HALT = 0: a stack leaves self-refresh, a module returns the credits it withheld. -/
def State.haltRelease (s : State) (p : Page) : State :=
  let s := s.set p F.PAGE_CTRL_HALT 0
  if s.run p ≠ HALTING ∧ s.run p ≠ HALTED then s
  else
    let s := s.set p F.PAGE_STATE_RUN RUNNING
    match p.kind with
    | .HC => if s.hcState p.inst = 5 then s.hcWake p.inst else s
    | .MOD =>
      let s := (s.modLink p.inst fun l => { l with returns := l.owed.foldl (fun cs c => addReturn cs c.vc c.pool c.n) l.returns, owed := [] }).updStall p.inst
      if (s.link p.inst).parked then s.modTrain p.inst else s
    | _ => s

/-! ### Block soft resets (R121, R317, R405, R447, R531, R715, R720) -/

/-- A controller's own state as a soft reset leaves it: what waits at admission, the readings, and what the stack itself
reported are kept (R317). -/
def Hc.fresh (h : Hc) : Hc :=
  { waiting := h.waiting, lower := h.lower, cap := h.cap, dwell := h.dwell, throttled := h.throttled, trained := h.trained
    patLeft := h.patLeft, rfmAt := h.rfmAt, best := h.best }

/-- PAGE_CTRL.SOFT_RESET = 1. -/
def State.softReset (s : State) (p : Page) : State :=
  if p.kind = .HC ∧ s.phase < 5 then s.raise pgBOOT Err.BOOT_EARLY_RESET (detVal p.kind.blockType p.inst)
  else
    let s := (s.set p F.PAGE_STATE_RUN RESETTING).pendingIs p 0
    match p.kind with
    | .ENG => s.engSoftReset p.inst
    | .FMN => s.fmnSoftReset p.inst
    | .HC =>
      let g := p.inst
      if s.hcState g = 4 then ((s.modHc g fun h => { h.fresh with training := true }).set p F.HC_HC_STATUS_CLEARING 0).set p F.HC_HC_STATUS_STATE 1
      else (((s.hcQuiesce g).modHc g Hc.fresh).set p F.HC_HC_STATUS_CLEARING 0).set p F.HC_HC_STATUS_STATE 3
    | _ => s

/-- The work that the reset discards is gone. -/
def State.softResetReady (s : State) (p : Page) : Bool :=
  match p.kind with
  | .ENG => (List.range 8).all fun i => (s.queue (8 * p.inst + i)).descs.isEmpty
  | _ => true

/-- A soft reset ends. `pass` is what the reset found: on an HC page bit 0, that training succeeded; on a MIX page the mixers
that agree with the check unit. -/
def State.softResetEnd (s : State) (p : Page) (pass : Nat) : State :=
  if s.run p ≠ RESETTING ∨ !s.softResetReady p ∨ (p.kind = .HC ∧ s.hcState p.inst = 1 ∧ pass.testBit 0) then s
  else
    let halt := s.flag p F.PAGE_CTRL_HALT
    let s := s.set p F.PAGE_STATE_RUN (if halt then HALTED else RUNNING)
    match p.kind with
    | .HC =>
      let g := p.inst
      if s.hcState g = 1 then ((s.set p F.HC_HC_STATUS_STATE 4).modHc g fun h => { h with training := false }).raise p Err.HC_TRAIN_FAIL
      else if s.hcState g = 3 then
        if !pass.testBit 0 then s.hcFail g
        else if halt then (s.hcRate g).set p F.HC_HC_STATUS_STATE 5
        else (s.hcRate g).hcWake g
      else s
    | .MIX => s.mixSoftReset p.inst pass
    | _ => s

/-! ### Injection (R738, R744) -/

/-- The bit names an event of the page. -/
def errEvent (k : PageKind) (b : Nat) : Bool := decide (b < 8 ∧ b ≠ Err.INJECTED) || decide (16 ≤ b ∧ b < 16 + blockErrBits k)

/-- The bit names only fatal causes. -/
def fatalOnly (k : PageKind) (b : Nat) : Bool :=
  match k with
  | .GSW => b == Err.GSW_STAIR_HDR_PARITY
  | .ERP => b == Err.ERP_ERRAND_PARITY
  | .FMN => b == Err.FMN_SB_PARITY
  | .THL => b == Err.THL_WAITER_UE
  | .TWN => b == Err.TWN_RESILVER_FAIL
  | _ => false

/-- INJECTED joins the bit that an injection set. -/
def State.markInjected (s : State) (p : Page) : State := s.wr p 0x020 (s.rd p 0x020 ||| BitVec.ofNat 32 (2 ^ Err.INJECTED))

/-- (DEDUCED, log entry 155) -/
def State.injectBit (s : State) (p : Page) (b : Nat) : State :=
  if !errEvent p.kind b then s
  else if fatalOnly p.kind b then (s.fatal p b {} true).markInjected p
  else
    let s := (s.raise p b {} false true).markInjected p
    if p.kind = .MOD ∧ b = Err.MOD_CRC_ERR then s.modLink p.inst fun l => { l with crcFlip := true } else s

/-- A write of ERR_INJECT. -/
def State.inject (s : State) (p : Page) (w : Word) : State :=
  foldS (fun b s => if w.getLsbD b then s.injectBit p b else s) (List.range 32) s

/-! ### The common registers (Table 3-5) -/

/-- A write of ERR_STATUS clears bits; ERR_FIRST clears with the last. -/
def State.errClear (s : State) (p : Page) (w : Word) : State :=
  let s := s.wr p 0x020 (s.rd p 0x020 &&& ~~~w)
  if s.rd p 0x020 = 0 then s.wr p 0x028 0 else s

/-- A write of PAGE_CTRL. -/
def State.pageCtrl (s : State) (p : Page) (w : Word) : State :=
  let s := if capBit p.kind 0 then s.set p F.PAGE_CTRL_READ_LIVE (b2n (w.getLsbD 2)) else s
  let s := if capBit p.kind 1 then
      if w.getLsbD 0 then (if s.flag p F.PAGE_CTRL_HALT then s else s.haltStart p) else s.haltRelease p
    else s
  if capBit p.kind 2 && w.getLsbD 1 then s.softReset p else s

/-- The named positions of ERR_STATUS, ERR_ENABLE and ALERT_ENABLE: Table 3-10 and the page's block bits; the others are
reserved (R9). -/
def errPositions (k : PageKind) : Word := BitVec.ofNat 32 (0xFF + (2 ^ blockErrBits k - 1) * 2 ^ 16)

/-- The page has PAGE_COMMIT: every gallery and central page, and a tenant page with RW-S fields (R108, R583). -/
def hasCommit (k : PageKind) : Bool := !k.tenant || capBit k 0

/-- A write to an offset below 0x100. -/
def State.writeCommon (s : State) (p : Page) (off : Nat) (w : Word) : State :=
  if off = 0x020 then s.errClear p w
  else if off = 0x02C then s.wr p off 0
  else if (off = 0x010 ∨ off = 0x014) ∧ hasCommit p.kind then
    if off = 0x010 then s.commitWrite p (w.getLsbD 0) (w.getLsbD 1) else s.writeFields p off w
  else if p.kind.tenant then s
  else if off = 0x008 then s.pageCtrl p w
  else if off = 0x024 ∨ off = 0x044 then s.wr p off (w &&& errPositions p.kind)
  else if off = 0x030 ∧ capBit p.kind 5 then s.inject p w
  else s

/-- A read of an offset below 0x100. -/
def State.readCommon (s : State) (p : Page) (off : Nat) : Word :=
  if off = 0x000 ∨ off = 0x004 ∨ off = 0x00C ∨ off = 0x020 ∨ off = 0x028 ∨ off = 0x02C then s.rd p off
  else if off = 0x014 ∧ hasCommit p.kind then s.rd p off
  else if p.kind.tenant then 0
  else if off = 0x040 then s.alertReg p
  else if off = 0x008 ∨ off = 0x024 ∨ off = 0x044 then s.rd p off
  else 0

end Sys2Proof.Machine
end

