-- ==== Sys2Proof/Machine/Links.lean ====
section
/-! DEFINITION. The life of a module's link (R242, R276 to R279, R759): the module reset, training and credit
initialisation. -/

namespace Sys2Proof.Machine

/-- Every credit that a module holds to send is zero. -/
def State.credZero (s : State) (m : Nat) : State :=
  foldS (fun i s => s.set (modPage m) (credFld (i / 4) (i % 4)) 0) (List.range 32) s

/-- The work of a module in a gallery's errand path at its reset: what has not entered is discarded, what has entered
completes unanswered (R279 steps 2 and 3). -/
def ErrandPath.muteModule (p : ErrandPath) (m : Nat) : ErrandPath :=
  let mute (w : Merged) : Merged := if w.m = m then { w with mute := true } else w
  { p with
    entries := (p.entries.filter fun e => e.active || e.m != m).map fun e =>
      { e with discard := e.discard || (e.merged.isEmpty && e.m == m), merged := e.merged.map mute }
    combs := p.combs.map fun c => { c with writes := c.writes.map mute } }

/-- A requester that belongs to a module. -/
def Who.ofModule (w : Who) (m : Nat) : Bool :=
  match w with
  | .module k _ => k == m
  | _ => false

/-- What a mirrored operation answers when its module has reset: nobody (R279 step 3). -/
def MirDone.mute (f : MirDone) (m : Nat) : MirDone :=
  match f with
  | .write k h => .write k (if k = m then 0 else h)
  | .tally r p a => .tally (if r.who.ofModule m then { r with hdr := 0 } else r) p a
  | f => f

/-- Register accesses that a page holds and mirrored operations of a module are no longer answered (R279 step 3). -/
def State.muteWaiting (s : State) (m : Nat) : State :=
  let reg (x : HeldReg) : HeldReg := if x.port.code = 2 + m then { x with hdr := 0 } else x
  let op (o : MirOp) : MirOp := { o with fin := o.fin.mute m }
  { s with heldRegs := s.heldRegs.map reg, twin := { s.twin with ops := s.twin.ops.map op } }

/-- A module reset begins (R279 steps 1 to 5); its PACE values lapse (R214). -/
def State.linkReset (s : State) (m : Nat) : State :=
  let l := s.link m
  let evts := (l.tx.filter fun t => hOpc t.msg.hdr == opEVT).length
  let s := if evts = 0 then s else (s.count (cryPage (m / 2)) F.CRY_EVT_DISCARDED evts).raise (cryPage (m / 2)) Err.CRY_EVT_DISCARDED
  let s := s.streamsOff m
  let s := foldS (fun r s => s.srdDone r [] 0xFF true) l.srds s
  let s := s.modPath (m / 2) fun p => p.muteModule m
  let s := s.muteWaiting m
  let s := s.cancelWaits (fun r => r.who.ofModule m) none
  let s := s.orphanAll fun h => h.who.ofModule m && !h.peer
  let s := s.setLink m { urgIn := l.urgIn, urg := l.urg, urgSince := l.urgSince, wire := l.wire }
  let s := (s.set (arbPage (m / 2)) (F.ARB_PACE_LAST_RD.at (m % 2)) 0).set (arbPage (m / 2)) (F.ARB_PACE_LAST_WR.at (m % 2)) 0
  ((s.credZero m).set (modPage m) F.MOD_MOD_STATUS_STATE 4).updStall m

/-- A request of the module that reached the interior is not complete: an errand, a write that a combiner entry or a
write-out holds, a register access that its page holds, a mirrored operation (R279 step 6). -/
def State.linkBusy (s : State) (m : Nat) : Bool :=
  let p := s.path (m / 2)
  (p.entries.any fun e => (e.m == m && e.active && e.merged.isEmpty) || e.merged.any fun w => w.m == m) ||
  (p.combs.any fun c => c.writes.any fun w => w.m == m) ||
  (s.heldRegs.any fun x => x.port.code == 2 + m) ||
  s.twin.ops.any fun o => match o.fin with
    | .write k _ => k == m
    | .tally r _ _ => r.who.ofModule m
    | .take w => w.req.who.ofModule m
    | _ => false

/-- The reset has run: the module trains again if it is enabled and its page is not halted, else stays DOWN (R279 step 6,
R759). -/
def State.linkResetDone (s : State) (m : Nat) : State :=
  let p := modPage m
  if s.modState m ≠ 4 ∨ s.linkBusy m then s
  else (s.set p F.MOD_MOD_STATUS_STATE 0).modTrain m

/-- The CRED_INIT of one VC: what the receiver offers (Table 6-3, Table 6-9). -/
def credInitMsg (vc : Nat) : TxMsg :=
  ⟨⟨BitVec.ofNat 128 (opCRED_INIT + vc * 2 ^ 20 + 48 * 2 ^ 32 + 32 * 2 ^ 40 + 16 * 2 ^ 48 + 256 * 2 ^ 64), []⟩, vc, 0, .plain⟩

/-- Training is complete at a rate, with lanes repaired: the eight CRED_INIT go out (R227, R242, R276). -/
def State.linkTrained (s : State) (m rate lanes : Nat) : State :=
  let p := modPage m
  if s.modState m ≠ 1 then s
  else
    let s := ((s.set p F.MOD_MOD_STATUS_STATE 2).set p F.MOD_MOD_STATUS_RATE (min rate (s.get p F.MOD_MOD_CTRL_MAX_RATE))).set p
      F.MOD_MOD_STATUS_REPAIRED_LANES lanes
    let s := if lanes = 0 then s else s.raise p Err.MOD_LANE_REPAIRED
    s.modLink m fun l => { l with tx := l.tx ++ (List.range 8).map credInitMsg, ackAt := s.ticks }

/-- A CRED_INIT of a VC is received (R242): answers whether it keeps the rule. The eighth makes the module UP. -/
def State.credInit (s : State) (m : Nat) (h : BitVec 128) : Bool × State :=
  let p := modPage m
  let l := s.link m
  let vc := hVc h
  let n (i : Nat) : Nat := hb h (32 + 8 * i) 8
  let dat := hb h 64 12
  if s.modState m ≠ 2 ∨ l.credInit.testBit vc ∨ n 0 = 0 ∨ n 1 = 0 ∨ n 2 = 0 ∨ dat < 4 then (false, s)
  else
    let mask := l.credInit ||| 2 ^ vc
    let s := foldS (fun i s => s.set p (credFld vc i) (n i)) [0, 1, 2] (s.set p (credFld vc 3) dat)
    let s := s.setLink m { l with credInit := mask }
    (true, if mask = 0xFF then (s.set p F.MOD_MOD_STATUS_STATE 3).updStall m else s)

end Sys2Proof.Machine
end

