-- ==== Sys2Proof/Machine/Twin.lean ====
section
/-! DEFINITION. The twin function (chapter 14): mirrored configuration, messages of the peer, the loss of the peer,
joining and RESILVER. -/

namespace Sys2Proof.Machine

/-! ### Mirrored configuration (Table 14-1, R604, R605) -/

/-- A write to the THL page. -/
def State.thlWrite (s : State) (off : Nat) (w : Word) : State :=
  if off < 0x100 then s.writeCommon pgTHL off w
  else if 0x240 ≤ off ∧ off < 0x280 ∧ (w = 0 ∨ w = 0xFFFFFFFE#32) then s.raise pgTHL Err.THL_BAD_VALUE
  else s.writeFields pgTHL off w

/-- First and last-plus-one DPA of region k. -/
def State.regionLo (s : State) (k : Nat) : Nat := s.get pgTWN (F.TWN_MIR_BASE_BASE.at k) * 2 ^ 16
def State.regionHi (s : State) (k : Nat) : Nat := s.regionLo k + s.get pgTWN (F.TWN_MIR_SIZE_SIZE.at k) * 2 ^ 16
def State.regionOn (s : State) (k : Nat) : Bool := s.flag pgTWN (F.TWN_MIR_SIZE_EN.at k)
def State.regionSynced (s : State) (k v : Nat) : State := s.set pgTWN (F.TWN_MIR_SIZE_SYNCED.at k) v
/-- The enabled regions in index order. -/
def State.regionsOn (s : State) : List Nat := (List.range 16).filter s.regionOn

/-- The range of region k lies wholly within one memory and overlaps no other enabled range (R604). -/
def State.regionLegal (s : State) (k : Nat) : Bool :=
  let lo := s.regionLo k
  let hi := s.regionHi k
  let g := (lo - 0x010000000000) / 0x1000000000
  let fits := decide (hi ≤ 0x6000000) ||
    (decide (0x010000000000 ≤ lo ∧ g < 8 ∧ hi ≤ 0x010000000000 + g * 0x1000000000 + s.hcLines g * 64)) ||
    decide (0x020000000000 ≤ lo ∧ hi ≤ 0x020000000000 + s.get pgMMAP F.MMAP_HBM_ALIAS_SIZE_GIB * 2 ^ 30)
  fits && (List.range 16).all fun j => j == k || !s.regionOn j || decide (hi ≤ s.regionLo j ∨ s.regionHi j ≤ lo)

/-- EN of region k becomes 1: a copy of it is due while a peer holds the other copy (R605, R625). -/
def State.regionEnable (s : State) (k : Nat) : State :=
  let s := (s.set pgTWN (F.TWN_MIR_SIZE_EN.at k) 1).regionSynced k 0
  if (s.twinState = twPAIRED ∧ s.sequencer) ∨ s.twinState = twSRC then
    { s with twin := { s.twin with copying := s.twin.copying ++ [k]
                                   front := if s.twin.copying.isEmpty ∧ (s.twinState = twPAIRED ∨ s.twin.pass = 2) then s.regionLo k else s.twin.front } }
  else s

/-- EN of region k becomes 0 (R605). -/
def State.regionDisable (s : State) (k : Nat) : State :=
  let s := (s.set pgTWN (F.TWN_MIR_SIZE_EN.at k) 0).regionSynced k 0
  let rest := s.twin.copying.filter (· ≠ k)
  let front := if s.twin.copying.head? = some k then ((rest.head?).map s.regionLo).getD 0 else s.twin.front
  { s with twin := { s.twin with copying := rest, front := front } }

/-- A write of MIR_BASE_k, or of MIR_SIZE_k (R604). (DEDUCED, log entry 166) -/
def State.regionWrite (s : State) (k : Nat) (size : Bool) (w : Word) : State :=
  let bad (s : State) : State := s.raise pgTWN Err.TWN_REGION_REJECT
  if !size then
    if s.regionOn k then bad s else s.set pgTWN (F.TWN_MIR_BASE_BASE.at k) w.toNat
  else
    let n := wbits w 0 24
    let en := w.getLsbD 31
    if s.regionOn k then
      let s := if n = s.get pgTWN (F.TWN_MIR_SIZE_SIZE.at k) then s else bad s
      if en then s else s.regionDisable k
    else
      let s := s.set pgTWN (F.TWN_MIR_SIZE_SIZE.at k) n
      if !en then s else if s.regionLegal k then s.regionEnable k else bad s

/-- The write of a mirrored register, by its DPA. -/
def State.configApply (s : State) (dpa : Nat) (w : Word) : State :=
  match region dpa with
  | .page p off =>
    match p.kind with
    | .THL => s.thlWrite off w
    | .MMAP => if 0x140 ≤ off ∧ off < 0x1C0 then s.writeFields p off w else s
    | .TWN => if 0x140 ≤ off ∧ off < 0x1C0 then s.regionWrite ((off - 0x140) / 8) (off % 8 == 4) w else s
    | .TTV =>
      if 0x140 ≤ off ∧ off < 0x180 then s.linkSet p.inst ((off - 0x140) / 4) w
      else if off = 0x110 then s.lockSet p.inst (wbits w 16 13) (w.getLsbD 0)
      else if off = 0x180 then (s.writeFields p off w).modHall fun h => { h with realignAt := put h.realignAt p.inst (s.ticks + 1) }
      else s
    | .TMK =>
      if off = 0x108 ∨ off = 0x10C then s.writeFields p off w
      else if off = 0x110 then (if w.getLsbD 0 then s.keySet p.inst else s)
      else s
    | _ => s
  | _ => s

/-- A write to mirrored configuration by a requester of this die (R602). -/
def State.configWriteTo (s : State) (dpa : Nat) (w : Word) (fin : MirDone) : Bool × State := s.mirConfigTo dpa w fin fun s => s.configApply dpa w
def State.configWrite (s : State) (dpa : Nat) (w : Word) : State := (s.configWriteTo dpa w .nobody).2

/-- A write of KEY_APPLY: the key as KEY_NEXT holds it here becomes the key, on both dies (R507, R510). -/
def State.keyApplyTo (s : State) (c : Nat) (fin : MirDone) : Bool × State :=
  let p := tmkPage c
  if s.mirroring then
    ((s.configWrite (p.base + 0x108) (s.rd p 0x108)).configWrite (p.base + 0x10C) (s.rd p 0x10C)).configWriteTo (p.base + 0x110) 1 fin
  else s.configWriteTo (p.base + 0x110) 1 fin

/-! ### Messages of the peer (R591 to R602, R607, R608) -/

/-- An M_APPLY, M_FWD or M_COPY taken apart. -/
structure MirMsg where
  tag : Nat
  sc : Nat
  ctx : Nat
  st : Nat
  addr : Nat
  poison : Nat
  xf : Nat
  /-- The origin slot. -/
  org : Nat
  slots : List Byte
  deriving DecidableEq, Repr

/-- (DEDUCED, log entry 128) -/
def mirMsg (m : Msg) : MirMsg :=
  ⟨hTag m.hdr, hSc m.hdr, hCtx m.hdr, hStatus m.hdr, hAddr m.hdr, hPoison m.hdr, hXf m.hdr, leNat (m.data.take 16), m.data.drop 16⟩

def MirMsg.mkind (x : MirMsg) : Nat := bits x.org 0 4
def MirMsg.okind (x : MirMsg) : Nat := bits x.org 4 2
def MirMsg.oid (x : MirMsg) : Nat := bits x.org 6 7
def MirMsg.otag (x : MirMsg) : Nat := bits x.org 13 9
def MirMsg.odie (x : MirMsg) : Nat := bits x.org 22 1
def MirMsg.ftag (x : MirMsg) : Nat := bits x.org 23 9
def MirMsg.en (x : MirMsg) : Nat := bits x.org 32 64
def MirMsg.kspec (x : MirMsg) : Nat := bits x.org 96 32
def MirMsg.top (x : MirMsg) : Nat := bits x.addr 0 4
def MirMsg.phys (x : MirMsg) : Nat := bits x.addr 8 13
def MirMsg.n (x : MirMsg) : Nat := bits x.addr 24 24
def MirMsg.origin (x : MirMsg) : MirOrg := ⟨x.okind, x.oid, x.otag, x.sc, x.ctx⟩
def MirMsg.who (x : MirMsg) : Who :=
  match x.okind with
  | 0 => .module x.oid x.otag
  | 1 => .queue x.oid
  | 2 => .ring x.oid
  | _ => .steward
/-- The tally operation of an origin, as far as the message tells it. -/
def MirMsg.req (x : MirMsg) : TallyReq := ⟨x.who, x.ctx, x.top, 0, x.n, nowait, x.sc, 0, 0⟩

/-- First enabled byte and span of an atomic's byte enables. -/
def enSpan (en : Nat) : Nat × Nat :=
  let on := (List.range 64).filter en.testBit
  let lo := on.headD 0
  (lo, on.getLastD 0 + 1 - lo)

/-- An arrival of this die that was sent to the sequencer is counted: its waiter belongs to the generation as it stands. -/
def State.arrivalCounted (s : State) (r : TallyReq) (p : Nat) : State :=
  let gen := (s.tally p).gen
  s.modHall fun h => { h with waiters := h.waiters.map fun w => if w.asked && w.req == r && w.phys == p then { w with gen := gen, asked := false } else w }

/-- The holder record that an orphan return names. -/
def State.orphanOf (s : State) (x : MirMsg) (peer : Bool) : Option Holder :=
  s.hall.holders.find? fun h => h.phys == x.phys && h.who == x.who.holder && h.ctx == x.ctx && h.n == x.n && h.peer == peer

/-- An access of the twin link: gallery 7. -/
def MirMsg.acc (x : MirMsg) : Acc := ⟨7, x.sc, x.ctx, 0⟩

/-- The effect on this die of an operation that the sequencer has applied, for the request r (R592, R594, R596, R599 to
R601). The answer is whether its line could be written. -/
def State.mirEffect (s : State) (x : MirMsg) (r : TallyReq) : Bool × State :=
  let p := x.phys
  let peer := x.odie != s.dieNo
  match x.mkind with
  | 0 =>
    if x.top = topOrphan then
      match s.orphanOf x peer with
      | some h => (true, s.orphanHere h)
      | none => (true, s)
    else
      let s := if x.top = 6 ∧ !peer then s.arrivalCounted r p else s
      (true, (s.tallyEffect r p peer).opApplied r p x.st)
  | 1 => (true, (s.takeEffect r p peer).opApplied r p x.st)
  | 2 | 3 =>
    match s.target x.addr with
    | .error _ => (false, s)
    | .ok t => (true, (s.tgtWrite t x.en (x.slots.take 64) x.poison x.acc (popCount 64 x.en)).2)
  | 4 => (true, s.configApply x.addr (BitVec.ofNat 32 (leNat (x.slots.take 4))))
  | 5 =>
    let b := bits x.kspec 0 13
    let s := s.setTally p { s.tally p with val := (s.tally p).val - x.n }
    let s := s.setTally b { s.tally b with val := (s.tally b).val - x.n }
    (true, (s.count pgTHL F.THL_REALIGNS).count (ttvPage x.ctx) F.TTV_REALIGNS)
  | 6 => (true, s.ctxBegin x.ctx (bit x.kspec 0))
  | _ => (true, s)

/-- An operation that a requester of the other die, or this die's own after a loss, has asked the sequencer for: refused
with a status, or applied, with what the M_APPLY carries (R593, R596, R598, R613). `strict` refuses a line whose region
is no longer enabled here, so that its own die writes it (R614). (DEDUCED, log entry 182) -/
def State.sequence (s : State) (x : MirMsg) (r : TallyReq) (peer strict : Bool) : Except Nat (MirBody × Nat) × State :=
  let p := x.phys
  if x.mkind ≠ mkCONFIG ∧ x.mkind ≠ mkCONTEXT ∧ x.okind ≠ 3 ∧ !s.assigned x.ctx then (.error 6, s)
  else match x.mkind with
  | 0 =>
    let b : MirBody := { mkind := mkTALLY, addr := x.addr }
    if x.top = topOrphan then
      match s.orphanOf x peer with
      | some h => (.ok (b, p), s.orphanHere h)
      | none => (.error 10, s)
    else if !s.tallyLegal r p then (.error 10, s.logRec pgTHL 0x1F (r.detail p r.n) false false)
    else if x.top = 1 ∧ (s.tally p).val < r.n then (.error 7, (s.count pgTHL F.THL_UNDERFLOWS).count (ttvPage r.ctx) F.TTV_UNDERFLOWS)
    else
      let s := if x.top = 6 ∧ !peer then s.arrivalCounted r p else s
      (.ok (b, p), (s.tallyEffect r p peer).opApplied r p 0)
  | 1 =>
    let t := s.tally p
    if t.val < r.n ∨ (t.lock ∧ 256 ≤ s.hall.holders.length) then (.error 7, s.count pgTWN F.TWN_REFUSALS)
    else
      let st := if t.orph then 2 else 0
      (.ok ({ mkind := mkTAKE, addr := x.addr, st := st }, p), (s.takeEffect r p peer).opApplied r p st)
  | 2 =>
    if strict ∧ (s.mirRegion x.addr).isNone then (.error 0, s)
    else match s.target x.addr with
    | .error e => (.error 10, s.flagTarget x.addr e)
    | .ok t =>
      let w := s.tgtWrite t x.en (x.slots.take 64) x.poison x.acc (popCount 64 x.en)
      (.ok ({ w.2.lineBody mkLINE x.addr t x.en 0 [] with st := w.1.status.code }, x.addr), w.2)
  | 3 =>
    let sp := enSpan x.en
    if strict ∧ (s.mirRegion x.addr).isNone then (.error 0, s)
    else match s.target x.addr, mkAtom x.kspec (s.keyOf x.ctx) sp.1 sp.2 x.slots with
    | .ok (.sram bk l), some a =>
      let a := { a with en := x.en }
      let r := (s.served x.acc (bk / 64) 0 sp.2 a.returns true).bankAtomic bk l a
      match r.1 with
      | none => (.error 10, r.2)
      | some (old, w) =>
        (.ok ({ r.2.lineBody mkATOM x.addr (.sram bk l) x.en x.kspec (if a.returns then old.bytes else []) with st := w.status.code }, x.addr), r.2)
    | _, _ => (.error 10, s)
  | 4 => (.ok ({ mkind := mkCONFIG, addr := x.addr, slots := x.slots }, 0), s.configApply x.addr (BitVec.ofNat 32 (leNat (x.slots.take 4))))
  | 6 =>
    let assign := bit x.kspec 0
    if s.ctxState x.ctx = 1 ∨ (!assign ∧ s.ctxState x.ctx = 0) then (.error 10, s.raise pgCTX Err.CTX_CMD_IGNORED (detVal x.ctx 0))
    else (.ok ({ mkind := mkCONTEXT, addr := 0, kspec := x.kspec }, 0), s.ctxBegin x.ctx assign)
  | _ => (.error 10, s)

/-! ### Completion -/

/-- The outcome of a forwarded operation that is now applied here, from what its M_APPLY carries. -/
def State.mirFill (s : State) (f : MirDone) (x : MirMsg) : MirDone :=
  match f with
  | .errand g id k _ _ =>
    let pc := ((s.errand g id).bind fun e => e.pieces[k]?).getD { dpa := 0, off := 0, n := 0, pos := 0 }
    .errand g id k x.st ((List.range pc.n).map fun i => (x.slots.getD (64 + pc.off + i) 0, x.poison.testBit ((pc.off + i) / 8)))
  | .queue q n _ => .queue q n x.st
  | .ring r id st => .ring r id (withWrite st x.st)
  | .port h st _ off n keep =>
    .port h ((Status.ofCode st).worst (Status.ofCode x.st)).code ((List.range n).map fun i => (x.slots.getD (64 + off + i) 0, x.poison.testBit ((off + i) / 8))) off n keep
  | .tally r p _ => if r.top = 6 ∧ r.timeout ≠ nowait then .nobody else .tally r p (s.resOf p (Status.ofCode x.st))
  | f => f

/-- The oldest fault record of a context has been written into its ring, or its write failed (R733, R736, R747). -/
def State.faultWritten (s : State) (c st : Nat) : State :=
  let p := tfqPage c
  let fb := s.faultBuf c
  if stopping st ∨ st = 3 ∨ st = 4 then ((s.setFaultBuf c { fb with writing := false }).set p F.TFQ_FQ_STATUS_WRITE_FAULT 1).set p F.TFQ_FQ_CTRL_EN 0
  else
    let head := (s.get p F.TFQ_FQ_HEAD + 1) % 2 ^ 32
    let s := (s.setFaultBuf c { fb with buf := fb.buf.drop 1, writing := false }).set p F.TFQ_FQ_HEAD head
    if s.flag p F.TFQ_FQ_CTRL_INT_EN && !s.flag p F.TFQ_FQ_STATUS_INT_PENDING then
      (s.sendInt c (s.get p F.TFQ_FQ_CTRL_CLASS) 2 0 (s.get p F.TFQ_FQ_CTRL_VECTOR) head).set p F.TFQ_FQ_STATUS_INT_PENDING 1
    else s

/-- The oldest record of the error log has been written into its ring, or its write failed (R642, R660). -/
def State.logWritten (s : State) (st : Nat) : State :=
  let s : State := { s with elog := { s.elog with writing := false } }
  if stopping st ∨ st = 3 then (s.set pgSTW F.STW_ELOG_CTRL_EN 0).raise pgSTW Err.STW_ELOG_FAULT
  else ({ s with elog := { s.elog with buf := s.elog.buf.drop 1 } } : State).set pgSTW F.STW_ELOG_HEAD ((s.get pgSTW F.STW_ELOG_HEAD + 1) % 2 ^ 32)

/-- The write of a record on both dies is over, if it still stands. -/
def State.recordDone (s : State) (c : Option Nat) (st : Nat) : State :=
  match c with
  | some c => if (s.faultBuf c).writing then s.faultWritten c st else s
  | none => if s.elog.writing then s.logWritten st else s

/-- A mirrored operation is complete on both dies: whoever waits for it is answered (R594). -/
def State.mirFinish (s : State) (f : MirDone) : State :=
  match f with
  | .errand g id k st bytes => s.pieceDone g id k st bytes
  | .queue q n st => s.queueMirrored q n st
  | .ring r id st => s.ringMirrored r id st
  | .write m h => if h = 0 then s else s.respond m h 0 0 0 0 []
  | .record c => s.recordDone c 0
  | .port h st bytes _ _ keep => s.portDone h st 0 (unitMask 8 bytes) (if keep then bytes.map (·.1) else [])
  | .tally r p a => s.tallyAnswer r p a
  | .take w =>
    if s.hall.waiters.contains w then
      let s := (s.modHall fun h => { h with waiters := h.waiters.erase w }).clearDl w.req.ctx
      ((s.tallyAnswer w.req w.phys (s.resOf w.phys (if (s.tally w.phys).orph then .okOrphaned else .ok))).evalTally w.phys).hallSettle
    else s.evalTally w.phys
  | .nobody => s

/-- A forwarded operation is refused with a status (R598, R613). -/
def State.mirRefused (s : State) (f : MirDone) (st : Nat) : State :=
  match f with
  | .errand g id k _ _ => s.pieceDone g id k st []
  | .queue q n _ => s.queueMirrored q n st
  | .ring r id st0 => s.ringMirrored r id (withWrite st0 st)
  | .write m h => if h = 0 then s else s.respond m h st 0 0 0 []
  | .record c => s.recordDone c st
  | .port h _ _ _ _ _ => s.portDone h st 0 0 []
  | .tally r p _ =>
    let s := s.modHall fun h => { h with waiters := h.waiters.filter fun w => !(w.asked && w.req == r && w.phys == p) }
    (s.tallyAnswer r p (s.resOf p (Status.ofCode st) (if st = 10 then dtTally else 0))).hallSettle
  | .take w => s.modHall fun h => { h with waiters := h.waiters.map fun y => if y == w then { y with asked := false } else y }
  | .nobody => s

/-- The request of a forwarded operation of this die: as its requester made it, where one waits. -/
def MirOp.req (o : MirOp) : TallyReq :=
  match o.fin with
  | .tally r _ _ => r
  | .take w => w.req
  | _ => (mirMsg o.msg).req

/-- A forwarded operation that this die now performs itself (R614, R618 step 3). -/
def State.mirOwn (s : State) (o : MirOp) : State :=
  let x := mirMsg o.msg
  let e := s.sequence x o.req false false
  match e.1 with
  | .error st => e.2.mirRefused o.fin st
  | .ok (b, item) =>
    let s := (e.2.mirApply x.origin b e.2.dieNo 0 item .nobody).2
    s.mirFinish (s.mirFill o.fin { x with st := b.st, poison := b.poison, slots := b.slots })

/-! ### The in-doubt ring and desynchronised regions (R620, R622) -/

/-- (DEDUCED, log entry 125) -/
def State.noteDoubt (s : State) (x : MirMsg) (mseq st : Nat) : State :=
  if s.twin.frozen then s
  else { s with twin := { s.twin with inDoubt := (⟨mseq, x.mkind, x.okind, x.oid, x.otag, st⟩ :: s.twin.inDoubt).take 1024 } }

/-- The region that names a DPA loses SYNCED; the die that finds the error sets REGION_DESYNC. -/
def State.desync (s : State) (dpa : Nat) (finder : Bool) : State :=
  let s := match s.mirRegion dpa with
    | some k => s.regionSynced k 0
    | none => s
  if finder then s.raise pgTWN Err.TWN_REGION_DESYNC (detMem dpa 0 0 0 0) else s

/-- The line is the last of its region, whose copy is then complete (R605). -/
def State.lastLine (s : State) (dpa : Nat) : Option Nat :=
  match s.mirRegion dpa with
  | some k => if dpa + 64 = s.regionHi k then some k else none
  | none => none

def State.modTwin (s : State) (f : Twin → Twin) : State := { s with twin := f s.twin }

/-! ### Received messages -/

/-- The operation with an MSEQ is applied on this die. -/
def State.mseqApplied (s : State) (x : MirMsg) : State :=
  let s := (s.set pgTWN F.TWN_MSEQ_LAST x.xf).countW pgTWN F.TWN_MIRROR_OPS
  let s := if x.mkind = mkLINE ∨ x.mkind = mkATOM then s.countW pgTWN F.TWN_MIRROR_LINES else s
  if s.twinState = twPAIRED then s else s.set pgTWN F.TWN_TWN_STATUS_HOLDS_STATE 1

def State.twinAck (s : State) (x : MirMsg) (ok : Bool) : State :=
  s.twinSend opM_ACK x.tag x.sc x.ctx (if ok then 0 else 10) 0 0 0 x.xf []

/-- M_APPLY (R592 to R594). -/
def State.recvApply (s : State) (msg : Msg) : State :=
  let x := mirMsg msg
  if s.twinState ≠ twPAIRED ∧ s.twinState ≠ twTGT then s
  else
    let mine := x.odie = s.dieNo
    let op := if mine then takeFirst (fun (o : MirOp) => o.fwd && o.tag == x.ftag) s.twin.ops else none
    let r := match op with
      | some (o, _) => o.req
      | none => x.req
    let e := (s.mseqApplied x).mirEffect x r
    let s := if e.1 then e.2 else e.2.desync x.addr true
    let s := if mine then s else s.noteDoubt x x.xf x.st
    let s := match op with
      | some (o, rest) => let s := (s.modTwin fun t => { t with ops := rest }).mirNext; s.mirFinish (s.mirFill o.fin x)
      | none => s
    s.twinAck x e.1

/-- M_FWD (R593, R596, R598, R602). (DEDUCED, log entry 124) -/
def State.recvFwd (s : State) (msg : Msg) : State :=
  let x := mirMsg msg
  if s.twinState ≠ twPAIRED ∨ !s.sequencer then s
  else
    let e := s.sequence x x.req true true
    match e.1 with
    | .error st => e.2.twinSend opM_REFUSE x.tag x.sc x.ctx st 0 0 0 0 []
    | .ok (b, item) =>
      let s := (e.2.mirApply x.origin b x.odie x.tag item .nobody).2
      s.noteDoubt x (s.get pgTWN F.TWN_MSEQ_LAST) b.st

/-- M_ACK (R593, R594, R622). -/
def State.recvAck (s : State) (h : BitVec 128) : State :=
  match takeFirst (fun (o : MirOp) => !o.fwd && o.tag == hTag h) s.twin.ops with
  | none => s
  | some (o, rest) =>
    let x := mirMsg o.msg
    let line := x.mkind == mkLINE || x.mkind == mkATOM || x.mkind == mkCOPY_LINE
    let s := (s.modTwin fun t => { t with ops := rest }).mirNext
    let s := if hStatus h = 10 ∧ line then s.desync x.addr false
      else if x.mkind = mkCOPY_LINE then (match s.lastLine x.addr with
        | some k => s.regionSynced k 1
        | none => s)
      else s
    s.mirFinish o.fin

/-- M_REFUSE (R598). Status OK says that the line is no longer mirrored, and its die performs the operation (R614). -/
def State.recvRefuse (s : State) (h : BitVec 128) : State :=
  match takeFirst (fun (o : MirOp) => o.fwd && o.tag == hTag h) s.twin.ops with
  | none => s
  | some (o, rest) =>
    let s := (s.modTwin fun t => { t with ops := rest }).mirNext
    if hStatus h = 0 then s.mirOwn o else s.mirRefused o.fin (hStatus h)

/-- M_BEAT (R617, Table 14-4). -/
def State.recvBeat (s : State) (h : BitVec 128) : State := s.modTwin fun t => { t with peerMseq := hb h 32 32 }

/-! ### The loss of the peer (R617 to R619) -/

def State.setTwinState (s : State) (v : Nat) : State := s.set pgTWN F.TWN_TWN_STATUS_STATE v

def State.peerLost (s : State) (cause : Nat) : State :=
  if s.twinState = twTGT then s.fatal pgTWN Err.TWN_RESILVER_FAIL (detVal cause 0)
  else if s.twinState = twJOINING then s.setTwinState twUNPAIRED
  else if s.twinState ≠ twPAIRED ∧ s.twinState ≠ twSRC then s
  else
    let fence := s.flag pgTWN F.TWN_TWN_CTRL_SOLO_POLICY && s.dieNo == 1 && (cause == 1 || cause == 2)
    let s := ((s.set pgTWN F.TWN_TWN_STATUS_LOST_CAUSE cause).raise pgTWN Err.TWN_TWIN_LOST (detVal cause 0)).count pgTWN F.TWN_LOSSES
    let s := if fence then (s.setTwinState twFENCED).raise pgTWN Err.TWN_FENCED else (s.setTwinState twSOLO).set pgTWN F.TWN_TWN_STATUS_SEQUENCER 1
    let s := s.set pgTWN F.TWN_TWN_STATUS_SYNCED 0
    let ops := s.twin.ops
    let s := s.modTwin fun t => { t with ops := [], frozen := true, copying := [], pass := 0, front := 0, joined := false, retrainAt := s.ticks }
    let s := s.modLink 15 fun l => { l with tx := [] }
    let s := foldS (fun (o : MirOp) s => if o.fwd then s else s.mirFinish o.fin) ops s
    let s := foldS (fun (o : MirOp) s => if o.fwd then s.mirOwn o else s) ops s
    s.orphanAll (·.peer)

/-- M_LEAVE (R617). -/
def State.recvLeave (s : State) (h : BitVec 128) : State := s.peerLost (hb h 32 4 + 2)

/-- No good flit for BEAT_TIMEOUT (R617). -/
def State.beatTimeout (s : State) : State :=
  if (s.twinState = twPAIRED ∨ s.twinState = twSRC ∨ s.twinState = twTGT) ∧ s.twin.beatAt + s.get pgTWN F.TWN_TWN_CTRL_BEAT_TIMEOUT ≤ s.ticks then
    s.peerLost 2
  else s

/-- TWN_CMD.TAKE_OVER (R619). -/
def State.takeOver (s : State) : State :=
  if s.twinState = twFENCED then (s.setTwinState twSOLO).set pgTWN F.TWN_TWN_STATUS_SEQUENCER 1 else s

/-- A module reset, and the loss of the peer where it is the twin link (R276, R279, R617). -/
def State.moduleReset (s : State) (m : Nat) : State :=
  let s := s.linkReset m
  if s.isTwin m then s.peerLost 1 else s

/-- M15 is taken down to train again. -/
def State.twinLinkTrain (s : State) : State :=
  let s := s.linkReset 15
  (s.set (modPage 15) F.MOD_MOD_STATUS_STATE (if s.flag (modPage 15) F.MOD_MOD_CTRL_ENABLE then 1 else 0)).modTwin fun t =>
    { t with joined := false, retrainAt := s.ticks }

/-- M15 retrains every 10 ms without a peer (R618, R623). -/
def State.twinRetrain (s : State) : State :=
  if s.straps.twinEn ∧ (s.twinState = twUNPAIRED ∨ s.twinState = twSOLO) ∧ s.twin.retrainAt + 10000 ≤ s.ticks ∧ !s.isFatal then s.twinLinkTrain else s

/-! ### Joining (R623, R624, Table 14-7) -/

def State.holdsState (s : State) : Bool := s.flag pgTWN F.TWN_TWN_STATUS_HOLDS_STATE

/-- This die's M_JOIN. -/
def State.sendJoin (s : State) : State :=
  let h := BitVec.ofNat 128 (opM_JOIN + s.dieNo * 2 ^ 32 + b2n s.holdsState * 2 ^ 33 + b2n s.sequencer * 2 ^ 34 + 0xA2 * 2 ^ 40 +
    s.get pgTWN F.TWN_MSEQ_LAST * 2 ^ 64)
  (s.send 15 ⟨⟨h, []⟩, 0, 0, .plain⟩).modTwin fun t => { t with joined := true }

/-- The pair is formed and synchronous. -/
def State.pairFormed (s : State) (seq : Bool) : State :=
  let s := (s.setTwinState twPAIRED).set pgTWN F.TWN_TWN_STATUS_SEQUENCER (b2n seq)
  (s.set pgTWN F.TWN_TWN_STATUS_SYNCED 1).modTwin fun t => { t with frozen := false, beatAt := s.ticks, copying := [], front := 0 }

/-- M_JOIN of the peer: the outcome of Table 14-7. -/
def State.recvJoin (s : State) (h : BitVec 128) : State :=
  let st := s.twinState
  if st = twOFF ∨ st = twPAIRED ∨ st = twSRC ∨ st = twTGT then s
  else if hb h 32 1 = s.dieNo then (s.raise pgTWN Err.TWN_ROLE_CLASH).setTwinState twUNPAIRED
  else
    let theirs := hb h 33 1 = 1
    if s.holdsState ∧ theirs then s.raise pgTWN Err.TWN_JOIN_CONFLICT
    else if !s.holdsState ∧ !theirs then s.pairFormed (s.dieNo == 0)
    else
      let src := s.holdsState
      let s := (s.setTwinState (if src then twSRC else twTGT)).set pgTWN F.TWN_TWN_STATUS_SEQUENCER (b2n src)
      let s := (s.set pgTWN F.TWN_TWN_STATUS_PASS 0).set pgTWN F.TWN_TWN_STATUS_SYNCED 0
      let s := foldS (fun k s => s.regionSynced k 0) (List.range 16) s
      s.modTwin fun t => { t with frozen := false, beatAt := s.ticks, pass := 0, front := 0, copied := 0
                                  copying := if src then s.regionsOn else [] }

/-- TWN_CMD.REJOIN (R624). -/
def State.rejoin (s : State) : State :=
  if s.twinState ≠ twSOLO ∧ s.twinState ≠ twFENCED ∧ s.twinState ≠ twUNPAIRED then s
  else
    let s := s.twinLeave 3
    let s := foldS (fun c s => if s.ctxState c = 0 then s.hallClear c else s.ctxBegin c false) (List.range 16) s
    let s := s.cancelWaits (fun _ => true) (some .retired)
    let s := s.modHall fun h => { h with tallies := [], holders := [] }
    let s := s.clearPage pgTHL fun off => decide (off < 0x100 ∨ 0x288 ≤ off)
    let s := s.clearPage pgMMAP fun off => decide (off < 0x140 ∨ 0x1C0 ≤ off)
    let s := foldS (fun c s => (s.clearPage (ttvPage c) fun off => decide (off ≠ 0x180)).keyClear c) (List.range 16) s
    let s := s.clearPage pgTWN fun off => decide (off < 0x110 ∨ off = 0x1C0)
    let s := (s.set pgTWN F.TWN_TWN_STATUS_SEQUENCER 0).set pgTWN F.TWN_TWN_STATUS_SYNCED 0
    let s := (s.set pgTWN F.TWN_TWN_STATUS_HOLDS_STATE 0).set pgTWN F.TWN_TWN_STATUS_PASS 0
    let s := (s.setTwinState twJOINING).twinLinkTrain
    { s with twin := { retrainAt := s.ticks } }

/-! ### RESILVER (R605, R625 to R627) -/

/-- The registers that the CONFIG pass copies. -/
def copyRegs : List Nat :=
  let run (p : Page) (lo n : Nat) : List Nat := (List.range n).map fun i => p.base + lo + 4 * i
  run pgCTX 0x140 16 ++ run pgTHL 0x100 98 ++ run pgMMAP 0x140 32 ++
  (List.range 16).flatMap (fun c => run (ttvPage c) 0x180 1 ++ run (tmkPage c) 0x100 4 ++ run (tmkPage c) 0x114 1) ++ run pgTWN 0x140 32

/-- One M_COPY: it takes an MSEQ and awaits its M_ACK. (DEDUCED, log entry 126) -/
def State.sendCopy (s : State) (mkind addr len poison kspec : Nat) (slots : List Byte) : State :=
  let mseq := (s.get pgTWN F.TWN_MSEQ_LAST + 1) % 2 ^ 32
  let sc := s.get pgTWN F.TWN_RESILVER_CTRL_CLASS
  let msg : Msg := ⟨mkHdr opM_COPY 0 sc 0 0 0 len addr poison mseq, originSlot mkind {} s.dieNo 0 0 kspec ++ padSlots slots⟩
  ((s.set pgTWN F.TWN_MSEQ_LAST mseq).mirSend false mseq msg .nobody).modTwin fun t => { t with copied := t.copied + 1 }

def State.copyReg (s : State) (a : Nat) : State :=
  match region a with
  | .page p off => s.sendCopy mkCOPY_CONFIG a 3 0 0 (leBytes 4 (s.rd p off).toNat ++ leBytes 4 (s.rdSh p off).toNat)
  | _ => s

/-- A tally record as one number of a COPY_TALLY (the model's own layout), and back. (DESIGN CHOICE, log entry 29) -/
def tallyBits (t : Tally) : Nat :=
  t.val + b2n t.sat * 2 ^ 24 + b2n t.orph * 2 ^ 25 + b2n t.gen * 2 ^ 26 + b2n t.lock * 2 ^ 27 + b2n t.broken * 2 ^ 28 + t.part * 2 ^ 32
def tallyOfBits (n now : Nat) : Tally :=
  ⟨bits n 0 24, bit n 24, bit n 25, bit n 26, bit n 27, bits n 32 24, bit n 28, now⟩
/-- A holder record as one number (the model's own layout), and back. -/
def State.holderBits (s : State) (h : Holder) : Nat :=
  h.who.kind + h.who.num * 2 ^ 2 + h.ctx * 2 ^ 10 + h.n * 2 ^ 16 + (if h.peer then 1 - s.dieNo else s.dieNo) * 2 ^ 40
def State.holderOfBits (s : State) (p n : Nat) : Holder :=
  let num := bits n 2 8
  ⟨p, match bits n 0 2 with
      | 0 => .queue num | 1 => .ring num | 2 => .module num 0 | _ => .crier num,
   bits n 10 4, bits n 16 24, bits n 40 1 != s.dieNo⟩

/-- The enabled links whose first tally is p, as context and index. -/
def State.linksAt (s : State) (p : Nat) : List (Nat × Nat) :=
  (List.range 16).flatMap fun c => (List.range 16).filterMap fun k =>
    if s.flag (ttvPage c) (F.TTV_LINK_EN.at k) && s.physOf c (s.get (ttvPage c) (F.TTV_LINK_A.at k)) == some p then some (c, k) else none

/-- The copy of tally p: its record, its holder records, its links. -/
def State.copyTally (s : State) (p : Nat) : State :=
  let s := s.sendCopy mkCOPY_TALLY (tallyAddr 0 p 0) 15 0 0 (leBytes 16 (tallyBits (s.tally p)))
  let s := foldS (fun h s => s.sendCopy mkCOPY_TALLY (tallyAddr 0 p 0) 15 0 1 (leBytes 16 (s.holderBits h))) (s.hall.holders.filter (·.phys == p)) s
  foldS (fun (x : Nat × Nat) s => s.sendCopy mkCOPY_TALLY ((ttvPage x.1).base + 0x140 + 4 * x.2) 15 0 2
    (leBytes 16 (s.rd (ttvPage x.1) (0x140 + 4 * x.2)).toNat)) (s.linksAt p) s

def State.setFront (s : State) (a : Nat) : State := (s.set pgTWN F.TWN_FRONT_LO_A a).set pgTWN F.TWN_FRONT_HI_A (a / 2 ^ 32)

/-- The next line of the region being copied. -/
def State.copyLine (s : State) : State :=
  match s.twin.copying with
  | [] => s
  | k :: ks =>
    let a := if s.regionLo k ≤ s.twin.front ∧ s.twin.front < s.regionHi k then s.twin.front else s.regionLo k
    let next (s : State) : State := s.modTwin fun t => { t with copying := ks, front := ((ks.head?).map s.regionLo).getD 0 }
    if s.regionHi k ≤ a then next (s.regionSynced k 1)
    else
      let s := match s.target a with
        | .ok t => let r := s.tgtPeek t; s.sendCopy mkCOPY_LINE a 63 r.poisonMask 0 r.bytes
        | .error _ => (s.desync a true).sendCopy mkCOPY_LINE a 63 0xFF 0 (List.replicate 64 0)
      let s := s.setFront a
      if a + 64 = s.regionHi k then next s else s.modTwin fun t => { t with front := a + 64 }

/-- The source sends the next copy, within RESILVER_RATE (R625, R626). -/
def State.resilverCopy (s : State) : State :=
  if s.get pgTWN F.TWN_RESILVER_CTRL_RATE ≤ s.twin.copied then s
  else if s.twinState = twPAIRED then (if s.sequencer then s.copyLine else s)
  else if s.twinState ≠ twSRC then s
  else
    let i := s.twin.front
    if s.twin.pass = 0 then
      let s := s.copyReg (copyRegs.getD i 0)
      if i + 1 < copyRegs.length then s.modTwin fun t => { t with front := i + 1 }
      else (s.modTwin fun t => { t with pass := 1, front := 0 }).set pgTWN F.TWN_TWN_STATUS_PASS 1
    else if s.twin.pass = 1 then
      let s := (s.copyTally i).setFront i
      if i < 8191 then s.modTwin fun t => { t with front := i + 1 }
      else (s.modTwin fun t => { t with pass := 2, front := ((t.copying.head?).map s.regionLo).getD 0 }).set pgTWN F.TWN_TWN_STATUS_PASS 2
    else s.copyLine

/-- What an M_COPY writes on the target; the answer is whether its line could be written. -/
def State.copyEffect (s : State) (x : MirMsg) : Bool × State :=
  let n := leNat (x.slots.take 16)
  match x.mkind with
  | 7 =>
    let p := x.phys
    let s := if x.kspec = 0 then
        let s := foldS (fun (y : Nat × Nat) s => s.wr (ttvPage y.1) (0x140 + 4 * y.2) 0) (s.linksAt p) s
        let s := (s.setTally p (tallyOfBits n s.ticks)).modHall fun h => { h with holders := h.holders.filter (·.phys ≠ p) }
        s.modTwin fun t => { t with pass := if p = 8191 then 2 else 1, copying := if p = 8191 then s.regionsOn else [] }
      else if x.kspec = 1 then s.modHall fun h => { h with holders := h.holders ++ [s.holderOfBits p n] }
      else match region x.addr with
        | .page pg off => s.wr pg off (BitVec.ofNat 32 n)
        | _ => s
    (true, s.set pgTWN F.TWN_TWN_STATUS_PASS (if s.twin.pass = 2 then 2 else 1))
  | 8 =>
    match region x.addr with
    | .page p off =>
      let s := (s.wr p off (BitVec.ofNat 32 n)).wrSh p off (BitVec.ofNat 32 (n / 2 ^ 32))
      (true, if p.kind = .TWN then s.wr p off (if off % 8 = 4 then s.rd p off &&& 0xBFFFFFFF#32 else s.rd p off) else s)
    | _ => (true, s)
  | 9 =>
    let last := s.lastLine x.addr
    let w := match s.target x.addr with
      | .error _ => (false, s.desync x.addr true)
      | .ok t => (true, (s.tgtWrite t (2 ^ 64 - 1) (x.slots.take 64) x.poison x.acc 64).2)
    match last with
    | some k =>
      let s := w.2.modTwin fun t => { t with copying := t.copying.filter (· ≠ k) }
      (w.1, if w.1 then s.regionSynced k 1 else s)
    | none => w
  | _ => (true, s)

/-- M_COPY (R626). -/
def State.recvCopy (s : State) (msg : Msg) : State :=
  let x := mirMsg msg
  if s.twinState ≠ twTGT ∧ (s.twinState ≠ twPAIRED ∨ x.mkind ≠ mkCOPY_LINE) then s
  else
    let e := (s.set pgTWN F.TWN_MSEQ_LAST x.xf).copyEffect x
    e.2.twinAck x e.1

/-- RESILVER is complete: at the source when every copy is acknowledged, at the target when the last one is written (R627). -/
def State.resilverDone (s : State) : State :=
  let copies := s.twin.ops.any fun o => hOpc o.msg.hdr == opM_COPY
  if (s.twinState = twSRC ∨ s.twinState = twTGT) ∧ s.twin.pass = 2 ∧ s.twin.copying = [] ∧ !copies then
    let s := s.pairFormed s.sequencer
    ((s.set pgTWN F.TWN_TWN_STATUS_PASS 3).raise pgTWN Err.TWN_RESILVERED).count pgTWN F.TWN_RESILVERS
  else s

end Sys2Proof.Machine
end

