-- ==== Sys2Proof/Machine/Boot.lean ====
section
/-! DEFINITION. Start-up and the kinds of reset (chapter 17): cold and warm resets, the boot phases and READY. -/

namespace Sys2Proof.Machine

/-! ### Cold reset (R703, R717, R718) -/

/-- Contents of every stack lost at an epoch (R315). -/
def lostStacks (epoch : Nat) : List (Nat × StackBase) := (List.range 8).map fun g => (g, .undef epoch)

/-- The die held in cold reset. What it keeps is outside the reset: the commands that wait, the fuses, the TAP (R778). -/
def State.coldBase (s : State) : State :=
  { pending := s.pending, fuses := s.fuses, tap := s.tap, freeCtr := s.freeCtr, hbmEpoch := s.hbmEpoch + 1
    hbmBase := lostStacks (s.hbmEpoch + 1), boot := { held := true } }

/-- PWR_OK and RST_N are high: P0 of the cold reset begins and the straps are sampled. -/
def State.resetRelease (s : State) (x : Straps) : State :=
  if s.boot.held then { s with straps := x, boot := { s.boot with held := false } } else s

/-! ### Warm reset (R704 to R706, R719, R725, Table 17-2) -/

/-- A warm reset begins with its drain; a pending TIME_APPLY lapses (R84). -/
def State.warmStart (s : State) (kind : ResetKind) : State :=
  let s := s.count pgBOOT F.BOOT_WARM_RESETS
  let s := ((s.twinLeave 2).linksDown).muteErrands fun _ => true
  { s.set pgTBS F.TBS_TIME_STATUS_PENDING 0 with boot := { s.boot with draining := true, kind := kind, done := false } }

/-- RST_N has been low for the filter's 600 ns. (DEDUCED, log entry 147) -/
def State.warmReset (s : State) : State :=
  if s.boot.held ∨ s.boot.fuseErr then s
  else if s.boot.kind = .cold ∧ !s.boot.done ∧ !s.isFatal then s.coldBase
  else s.warmStart .rstN

/-- 1 ms after FATAL_N with FATAL_WARM set. -/
def State.fatalWarm (s : State) : State :=
  if s.isFatal ∧ s.flag pgSTW F.STW_STW_CTRL_FATAL_WARM ∧ s.boot.fatalAt + 1000 ≤ s.ticks ∧ !s.boot.draining ∧ !s.boot.fuseErr ∧ !s.boot.held then
    s.warmStart .fatalWarm
  else s

/-- A stack whose drain did not complete: its complete writes that have not reached it are lost and logged (R725). -/
def State.drainLate (s : State) (g : Nat) : State :=
  if s.hcState g = 2 ∨ s.hcState g = 3 then
    let q := (s.hc g).queue
    let s := (s.setHc g {}).set (hcPage g) F.HC_HC_STATUS_STATE 5
    foldS (fun r s => if r.complete then s.logRec (hcPage g) 0x1F (detStack (r.line * 64) g 0 0) false false else s) q s
  else s

/-- The registers that a warm reset keeps whole (R84, R222, R317, R662, R697, R726). (DEDUCED, log entry 149) -/
def warmKept (p : Page) (off : Nat) : Bool :=
  match p.kind with
  | .MMAP => decide (0x110 ≤ off ∧ off ≤ 0x130)
  | .HC => off == 0x12C || off == 0x130
  | .TBS => off == 0x104 || off == 0x144 || off == 0x148 || off == 0x14C
  | .ARB => off == 0x10C
  | .DBG => off == 0x130
  | .PRS => off == 0x120 || off == 0x124 || off == 0x128 || decide (0x200 ≤ off ∧ off ≤ 0x240)
  | .BOOT => off == 0x140
  | _ => false

/-- (DEDUCED, log entry 115) -/
def State.warmRegs (s : State) : List (Nat × Word) :=
  s.regs.filter fun e => match region e.1 with
    | .page p off => warmKept p off
    | _ => false

/-- The stack survives a warm reset: it is in self-refresh. -/
def State.inRefresh (s : State) (g : Nat) : Bool := s.hcState g == 5

/-- The fields kept in a register that is otherwise reset: STATE of the stacks in self-refresh with lane repairs, the
flags of the time counter, ELOG_LOST, LAST_RESET, the thermal summary. -/
def State.warmFields (old s : State) : State :=
  let s := foldS (fun g s => ((s.set (hcPage g) F.HC_HC_STATUS_STATE (if old.inRefresh g then 5 else 0)).set (hcPage g) F.HC_HC_STATUS_REPAIRED_LANES
    (old.get (hcPage g) F.HC_HC_STATUS_REPAIRED_LANES))) (List.range 8) s
  let s := (s.wr pgTBS 0x140 (old.rd pgTBS 0x140)).set pgTBS F.TBS_TIME_STATUS_PENDING 0
  let s := s.set pgSTW F.STW_ELOG_LOST (old.get pgSTW F.STW_ELOG_LOST)
  let s := (s.set pgPRS F.PRS_THERM_SUMMARY_GAL (old.get pgPRS F.PRS_THERM_SUMMARY_GAL)).set pgPRS F.PRS_THERM_SUMMARY_TRIP
    (old.get pgPRS F.PRS_THERM_SUMMARY_TRIP)
  s.set pgBOOT F.BOOT_BOOT_STATUS_LAST_RESET (if old.boot.kind = .fatalWarm then 2 else 1)

/-- P0 of a warm reset begins: everything but what Table 17-2 keeps is at its reset value. -/
def State.warmBase (s : State) : State :=
  let lost := (List.range 8).filter fun g => !s.inRefresh g
  let s := foldS (fun g s => s.hbmLose g) lost s
  let new : State :=
    { pending := s.pending, straps := s.straps, fuses := s.fuses, outs := s.outs, tap := s.tap, freeCtr := s.freeCtr
      regs := s.warmRegs, time := s.time, elog := s.elog, trace := { s.trace with written := 0 }, spares := s.spares
      hbm := s.hbm, hbmBase := s.hbmBase, hbmEpoch := s.hbmEpoch, injected := s.injected.filter fun k => decide (2 ^ 40 ≤ k)
      boot := { kind := s.boot.kind, phaseAt := s.ticks }
      purser := { sensors := s.purser.sensors, cool := s.purser.cool, sampledAt := s.purser.sampledAt, calAt := s.purser.calAt } }
  s.warmFields new

/-- The drain is complete, or has taken 100 µs (`late`), and RST_N is high. -/
def State.drainDone (s : State) (late : Bool) : State :=
  if !s.boot.draining then s
  else (foldS (fun g s => if late then s.drainLate g else s.hcQuiesce g) (List.range 8) s).warmBase

/-! ### The phases (R707 to R713) -/

/-- The boot sequencer is in phase k. -/
def State.inPhase (s : State) (k : Nat) : Bool := s.phase == k && !s.boot.held && !s.boot.draining && !s.straps.testMode

def State.setPhase (s : State) (k : Nat) : State := s.set pgBOOT F.BOOT_BOOT_STATUS_PHASE k
def State.coldBoot (s : State) : Bool := s.boot.kind == .cold

/-- Phase k ends after a time in µs, and the next begins. (DEDUCED, log entry 152) -/
def State.phaseEnd (s : State) (k us : Nat) : State :=
  let s := (s.set pgBOOT (F.BOOT_PHASE_US_US.at k) us).setPhase (k + 1)
  { s with boot := { s.boot with phaseAt := s.ticks } }

/-- A phase that the time base times. -/
def State.phaseTime (s : State) : Nat := s.ticks - s.boot.phaseAt

/-- P0 (R174, R185, R530): the factory spare map on a cold reset, the mixers' comparison, the seeds. (DEDUCED, log entry 148; DEDUCED, log entry 179) -/
def State.p0End (s : State) (us fails : Nat) (fuseErr : Bool) : State :=
  if !s.inPhase 0 then s
  else
    let s := if s.coldBoot then
        { s with spares := s.fuses.spares.map fun e => (e.1, ⟨e.2, true, true, false⟩), boot := { s.boot with fuseErr := fuseErr } }
      else s
    let s := (foldS (fun g s => s.mixersCompared g (bits fails (8 * g) 8)) (List.range 8) s).seedAll
    s.phaseEnd 0 us

/-- Reference selection in P1 (R82). A grade of OUT made here is judged afresh by the first window. (DEDUCED, log entry 181) -/
def State.p1Refs (s : State) (a b agree : Bool) : State :=
  let pri := s.flag pgTBS F.TBS_REF_STATUS_PRI
  let sel := if a && b then pri else b
  let g (here : Bool) (x : Bool) : Nat := if !here then gLOST else if a && b && !agree && x != sel then gOUT else gGOOD
  let s := ((s.set pgTBS F.TBS_REF_STATUS_SEL (b2n sel)).set pgTBS F.TBS_REF_STATUS_GRADE_A (g a false)).set pgTBS F.TBS_REF_STATUS_GRADE_B (g b true)
  let s := s.set pgTBS F.TBS_REF_STATUS_TB_MODE 0
  s.modTime fun t => { t with running := true, refA := { present := a }, refB := { present := b } }

/-- P1 (R82 to R84, R696, R723): with no reference the die stays in it with STW_CK running. `v` and `i` are what the
purser reads of VCORE. -/
def State.p1End (s : State) (us : Nat) (a b agree : Bool) (v i : AvsRead) : State :=
  if !s.inPhase 1 then s
  else
    let on (s : State) : State := { s with outs := { s.outs with stwCk := true } }
    if s.coldBoot ∧ !a ∧ !b then
      let s := (s.set pgTBS F.TBS_REF_STATUS_GRADE_A gLOST).set pgTBS F.TBS_REF_STATUS_GRADE_B gLOST
      on (s.set pgTBS F.TBS_REF_STATUS_TB_MODE 2)
    else
      let s := if s.coldBoot then on (s.p1Refs a b agree) else s
      let s := (s.avsTake v true).avsTake i true
      let s := if s.coldBoot then s.set pgPRS F.PRS_VCORE_STATUS_REQ s.vRead else s
      if s.boot.fuseErr then (s.set pgBOOT (F.BOOT_PHASE_US_US.at 1) us).fatal pgBOOT Err.BOOT_FUSE_ERR
      else s.phaseEnd 1 us

/-! ### P2 (R42, R174, R709, R724) -/

/-- Every line and unused spare slot is zero with normal check bits; a line held in a spare slot is zero there. -/
def State.zeroSram (s : State) : State :=
  let s := { s with sram := [], injected := s.injected.filter fun k => decide (2 ^ 40 ≤ k) }
  let zero (b l : Nat) (s : State) : State :=
    foldS (fun g s =>
      s.granStore (granKey b (s.slotOf b l) g) 0 (checkByte (locWord b l g) 0)) (List.range 8) s
  foldS (fun (e : Nat × SpareEnt) s => if e.2.valid ∧ !e.2.failed then zero (e.1 / 24) e.2.line s else s) s.spares s

/-- A line that failed the march goes to the lowest free slot; the answer is whether there was one. The tinker's counts
are left alone. (DEDUCED, log entry 179) -/
def State.p2Repair (s : State) (b l : Nat) : Bool × State :=
  match s.freeSlot b with
  | some k => (true, s.setSpare b k ⟨l, true, false, false⟩)
  | none => (false, s.raise (bnkPage b) Err.BNK_P2_FAIL (detVal b l))

/-- The march failed in a slot of a bank. -/
def State.p2Fail (s : State) (b slot : Nat) : Bool × State :=
  if slot < 3072 then
    if (s.spareOf b slot).isSome then (true, s) else s.p2Repair b slot
  else
    let k := slot - 3072
    let e := s.spare b k
    let s := s.setSpare b k { e with failed := true }
    if e.valid && !e.failed then s.p2Repair b e.line else (true, s)

/-- Every failing slot in turn, unused spare slots first so that none of them is chosen. (DEDUCED, log entry 151) -/
def State.p2Fails (s : State) (fails : List (Nat × Nat)) : Bool × State :=
  let spareFail (s : State) (x : Nat × Nat) : Bool := decide (3072 ≤ x.2) && !(s.spare x.1 (x.2 - 3072)).valid
  let s := foldS (fun x s => if spareFail s x then (s.p2Fail x.1 x.2).2 else s) fails s
  let go := foldS (fun (x : Nat × Nat) (r : Bool × State) => let q := r.2.p2Fail x.1 x.2; (r.1 && q.1, q.2))
  let own := fails.filter fun x => decide (x.2 < 3072)
  let used := fails.filter fun x => decide (3072 ≤ x.2) && (s.spare x.1 (x.2 - 3072)).valid
  go (used ++ own) (true, s)

/-- The start-up check of the stair links and spoke of gallery g: bits of the links that failed. (DEDUCED, log entry 33) -/
def State.stairCheck (s : State) (g fail : Nat) : State :=
  let p := gswPage g
  let s := s.wr p 0x104 (BitVec.ofNat 32 (15 - fail % 16))
  let s := if fail % 8 = 0 then s else s.raise p Err.GSW_STAIR_LINK_FAIL (detVal fail 0)
  if fail.testBit 3 then s.raise p Err.GSW_SPOKE_FAIL else s

/-- Every enabled module begins to train, M15 of a pair as its twin link (R277, R623). -/
def State.p3Begin (s : State) : State :=
  let s := foldS (fun m s => if s.flag (modPage m) F.MOD_MOD_CTRL_ENABLE then s.set (modPage m) F.MOD_MOD_STATUS_STATE 1 else s) (List.range 16) s
  if s.straps.twinEn then s.setTwinState twJOINING else s

/-- P2 ends: `fails` are slots (bank, slot) that failed the march, `stair` four failure bits for each gallery. -/
def State.p2End (s : State) (fails : List (Nat × Nat)) (stair : Nat) : State :=
  if !s.inPhase 2 ∨ s.flag pgBOOT F.BOOT_BOOT_STATUS_STOPPED then s
  else
    let ok := fails.filter fun x => decide (x.1 < 512 ∧ x.2 < 3096)
    let r := s.p2Fails ok
    let s := foldS (fun g s => s.stairCheck g (bits stair (4 * g) 4)) (List.range 8) r.2.zeroSram
    if !r.1 ∨ stair % 2 ^ 32 ≠ 0 then (s.set pgBOOT F.BOOT_BOOT_STATUS_STOPPED 1).raise pgBOOT Err.BOOT_P2_STOP
    else (s.phaseEnd 2 s.phaseTime).p3Begin

/-! ### P3 and P4 (R277, R314, R317, R711) -/

def State.enabledMods (s : State) : List Nat := (List.range 16).filter fun m => s.flag (modPage m) F.MOD_MOD_CTRL_ENABLE

/-- A module that is not UP when P3 ends. -/
def State.modMissed (s : State) (m : Nat) : State :=
  if s.modUp m then s
  else
    let s := ((s.linkReset m).set (modPage m) F.MOD_MOD_STATUS_STATE 0).raise (modPage m) Err.MOD_TRAIN_FAIL
    if s.isTwin m then s.modTwin fun t => { t with retrainAt := s.ticks } else s

def State.upMask (f : Nat → Bool) (n : Nat) : Nat := (List.range n).foldl (fun a i => a + b2n (f i) * 2 ^ i) 0

def State.p3End (s : State) : State :=
  let ms := s.enabledMods
  if !s.inPhase 3 ∨ !(ms.all s.modUp || decide (5000 ≤ s.phaseTime)) then s
  else
    let s := foldS (fun m s => s.modMissed m) ms s
    let s := if s.straps.twinEn ∧ !s.modUp 15 then s.setTwinState twUNPAIRED else s
    let s := (s.set pgBOOT F.BOOT_BOOT_MODULES_UP (State.upMask s.modUp 16)).phaseEnd 3 s.phaseTime
    foldS (fun g s => s.set (hcPage g) F.HC_HC_STATUS_STATE (if s.inRefresh g then 3 else 1)) (List.range 8) s

/-- A stack that has not trained when P4 ends; one that failed after it had trained keeps its capacity (R311). (DEDUCED, log entry 36) -/
def State.stackMissed (s : State) (g : Nat) : State :=
  let st := s.hcState g
  if (s.hc g).trained then s
  else
    let s := if st = 3 then s.hcFail g else if st = 4 then s
      else ((s.set (hcPage g) F.HC_HC_STATUS_STATE 4).set pgMMAP (F.MMAP_HBM_CAP_TRAINED.at g) 0).raise (hcPage g) Err.HC_TRAIN_FAIL
    s.set pgMMAP (F.MMAP_HBM_CAP_GIB.at g) 0

/-- HBM_ALIAS_SIZE: eight times the smallest capacity among the stacks that trained (R93). -/
def State.aliasSize (s : State) : Nat :=
  let caps := ((List.range 8).filter fun g => (s.hc g).trained).map fun g => s.get pgMMAP (F.MMAP_HBM_CAP_GIB.at g)
  8 * (caps.min?.getD 0)

def State.bootUs (s : State) (n : Nat) : Nat := ((List.range n).map fun k => s.get pgBOOT (F.BOOT_PHASE_US_US.at k)).sum

/-- P5 begins later than the bound of R707 (R725). -/
def State.bootLate (s : State) : Bool :=
  let bound : Nat := if s.coldBoot then 100000 else 15000
  bound.blt (s.bootUs 5)

def State.p4End (s : State) : State :=
  let settled := (List.range 8).all fun g => (s.hc g).trained || s.hcState g == 4
  if !s.inPhase 4 ∨ !(settled || Nat.ble (if s.coldBoot then 60000 else 5000) s.phaseTime) then s
  else
    let s := foldS (fun g s => s.stackMissed g) (List.range 8) s
    let s := s.set pgMMAP F.MMAP_HBM_ALIAS_SIZE_GIB s.aliasSize
    let s := (s.set pgBOOT F.BOOT_BOOT_STACKS_UP (State.upMask (fun g => s.hcState g == 2) 8)).set pgBOOT F.BOOT_BOOT_STACKS_FAILED
      (State.upMask (fun g => s.hcState g == 4) 8)
    let s := s.phaseEnd 4 s.phaseTime
    let s := { s with outs := { s.outs with fatalN := false }, boot := { s.boot with done := true } }
    if s.bootLate then s.raise pgBOOT Err.BOOT_LATE else s

/-- BOOT_CMD.READY (R714, R176). -/
def State.ready (s : State) : State :=
  if !s.inPhase 5 then s.raise pgBOOT Err.BOOT_READY_IGNORED
  else
    let s := s.phaseEnd 5 s.phaseTime
    let s := s.set pgBOOT F.BOOT_READY_US_US (s.bootUs 6)
    { s with tinkers := s.tinkers.map fun e => (e.1, { e.2 with sweepBank := 0, sweepRegion := 0 }) }

end Sys2Proof.Machine
end

