-- ==== Sys2Proof/Machine/Arbiters.lean ====
section
/-! DEFINITION. The arbiters at work (chapter 5): draws and their grants, withdrawals, emergency beats, reseeding, urgency,
regulation windows with ADAPT, and saturation. -/

namespace Sys2Proof.Machine

/-! ### Instances and requesters (Table 5-1, Table 5-13) -/

/-- The ARB_ID names an arbiter. -/
def arbValid (id : Nat) : Bool :=
  let t := id / 4096
  let i := id % 4096
  if t = 1 then decide (i < 512) else if t = 2 then decide (i < 24) else if t = 3 then decide (i < 16) else if t = 4 then i == 0
  else if t = 6 then decide (i < 256) else if t = 7 ∨ t = 0xB then decide (i < 16)
  else if t = 5 ∨ t = 8 ∨ t = 9 ∨ t = 0xC then decide (i < 8)
  else if t = 0xA then
    (if i < 0x800 then decide (i % 256 < 13) else if i < 0x900 then decide (i % 256 < 11) else decide (i < 0xA00 ∧ i % 16 < 7))
  else false

/-! ### Draws (R182, R186, R187) -/

/-- A draw whose winner waits for its grant in the next turn. -/
def State.drawGrant (s : State) (id : Nat) (reqs : List Req) : State :=
  let d := s.drawAmong id (orderReqs id reqs)
  match d.1 with
  | some w => { d.2 with grants := put d.2.grants id ⟨w⟩ }
  | none => { d.2 with grants := del d.2.grants id }

/-- The errand entry arbiter's draw: the winner enters. -/
def State.drawErrand (s : State) (g : Nat) : State :=
  let s := s.flushCombs g
  let es := s.errandHeads g
  let index (e : Errand) : Nat := 8 * (e.m % 2) + e.cls
  let d := s.drawAmong (0x8000 + g) (es.map fun e => ⟨index e, e.cls, e.urg⟩)
  match d.1.bind fun w => es.find? fun e => index e == w with
  | some e => d.2.admitErrand g e true
  | none => d.2

/-- The stack admission arbiter's draw among the sources and classes that wait at stack g: the winner enters the queue. -/
def State.drawStack (s : State) (g : Nat) : State :=
  let index (r : StackReq) : Nat := 8 * r.source g + r.cls
  let heads := (List.range 80).filterMap fun i => ((s.hc g).waiting.find? (index · == i)).bind fun r =>
    if s.hcAdmits g r.cls r.urg then some r else none
  if !s.hcOpen g then s
  else
    let d := s.drawAmong (0x5000 + g) (heads.map fun r => ⟨index r, r.cls, r.urg⟩)
    match d.1.bind fun w => heads.find? (index · == w) with
    | some r => (d.2.modHc g fun h => { h with waiting := h.waiting.erase r }).hcEnter g { r with held := false } (popCount 64 r.en)
    | none => d.2

/-- A virtual channel of module m has a message that can leave now. -/
def State.vcReady (s : State) (m vc : Nat) : Bool :=
  !(fillFlit vc (s.txReady m) 15 (s.cred m vc) (b2n (s.modHeld m))).1.isEmpty

/-- The module egress arbiter: one flit, of the winning channel's messages; a replayed flit, a PACE or credit returns alone
need no draw (R232, R236, R256). -/
def State.drawEgress (s : State) (m : Nat) : State :=
  if !(s.link m).resend.isEmpty ∨ 64 ≤ (s.link m).replay.length then s.egressFlit m 0
  else
    let cls (v : Nat) : Nat := (((s.link m).tx.find? fun t => t.vc == v).map fun t => hSc t.msg.hdr).getD 0
    let reqs := ((List.range 8).filter (s.vcReady m)).map fun v => (⟨v, cls v, 0⟩ : Req)
    let d := s.drawAmong (0xB000 + m) reqs
    d.2.egressFlit m (d.1.getD 0)

/-- The requesters of an arbiter that the model holds and that a row of their own grants: stair buffers, queues that may
activate a descriptor, rings. -/
def State.heldReqs (s : State) (id : Nat) : List Req :=
  let i := id % 4096
  if id / 4096 = 2 then s.stairReqs (i / 3) (i % 3)
  else if id / 4096 = 7 then s.issueReqs i
  else if id / 4096 = 0xC then s.fetchReqs i
  else []

/-- One draw of an arbiter. The queues that the model holds name their own requesters; elsewhere `reqs` lists those that
wait at the start of the turn. (DESIGN CHOICE, log entry 5; DEDUCED, log entry 8) -/
def State.arbDraw (s : State) (id : Nat) (reqs : List Req) : State :=
  let i := id % 4096
  if !arbValid id then s
  else if id / 4096 = 5 then s.drawStack i
  else if id / 4096 = 8 then s.drawErrand i
  else if id / 4096 = 0xB then s.drawEgress i
  else if (find s.grants id).any fun w => (s.heldReqs id).any fun r => r.index == w.winner then s
  else if id / 4096 = 2 ∨ id / 4096 = 0xC then s.drawGrant id (s.heldReqs id)
  else s.drawGrant id (reqs ++ s.heldReqs id)

/-- The arbiter draws and grants in one step of the model (types 0x5, 0x8 and 0xB). -/
def drawsAtOnce (id : Nat) : Bool := id / 4096 == 5 || id / 4096 == 8 || id / 4096 == 0xB

/-- A drawn requester withdraws: a dead turn, in which the arbiter draws again (R187, R213, R792). -/
def State.arbWithdraw (s : State) (id : Nat) (reqs : List Req) : State :=
  if !arbValid id || ((find s.grants id).isNone && !drawsAtOnce id) then s
  else (s.count (arbPage (arbGallery id)) F.ARB_DEAD_TURNS).arbDraw id reqs

/-- An ordinary requester waits at the arbiter. -/
def State.arbWaits (s : State) (id : Nat) : Bool :=
  let i := id % 4096
  (find s.grants id).isSome ||
    !(s.heldReqs id).isEmpty ||
    (if id / 4096 = 5 then !(s.hc i).waiting.isEmpty
     else if id / 4096 = 6 then (s.hc (i / 32)).queue.any fun r => (s.hbmAddr (i / 32) r.line).chan == i % 32
     else if id / 4096 = 8 then !(s.errandHeads i).isEmpty
     else if id / 4096 = 0xB then (List.range 8).any (s.vcReady i)
     else false)

/-- An emergency beat: `cut` says that the transfer it interrupts had further beats, or that a drawn winner waits (R188).
After one such beat the next waits for an ordinary beat while a requester waits; refresh alone may follow itself. (DEDUCED, log entry 57) -/
def State.emergency (s : State) (id : Nat) (cut : Bool) : State :=
  if !arbValid id || (s.emerged.contains id && id / 4096 != 6 && s.arbWaits id) then s
  else
    let s := { s with emerged := id :: s.emerged.filter (· ≠ id) }
    if cut then s.count (arbPage (arbGallery id)) F.ARB_EMERG_CUTS else s

/-- ARB_CTRL.RESEED: every arbiter of the gallery takes its seed at its next draw (R217, R792). (DEDUCED, log entry 56) -/
def State.reseed (s : State) (g : Nat) : State :=
  { s with lfsrs := s.lfsrs.filter fun e => !(arbGallery e.1 == g)
           seeds := s.seeds.filter fun e => !(e.1 == g || (g == 0 && e.1 == 8)) }

/-! ### Urgency (R191, R220) -/

def State.urgAdopt (s : State) (m : Nat) : State :=
  let l := s.link m
  if l.urgIn = l.urg then s
  else
    let s := s.setLink m { l with urg := l.urgIn, urgSince := s.ticks, urgNoted := false }
    let f := F.ARB_URG_STATE_LEVEL
    s.set (arbPage (m / 2)) f (putBits (s.get (arbPage (m / 2)) f) (2 * (m % 2)) 2 l.urgIn)

def State.urgCrit (s : State) (m : Nat) : State :=
  let l := s.link m
  let w := s.get (arbPage (m / 2)) F.ARB_URG_CTRL_CRIT_WARN
  if l.urg = 3 ∧ w ≠ 0 ∧ l.urgSince + w ≤ s.ticks ∧ !l.urgNoted then
    (s.setLink m { l with urgNoted := true }).raise (arbPage (m / 2)) Err.ARB_URG_CRIT (detVal m 0)
  else s

/-! ### Regulation windows and ADAPT (R198, R200, R201) -/

/-- The registers of a ticket group: LIVE, BASE, TMIN, TMAX. -/
def ticketFlds (grp : Nat) : Fld × Fld × Fld × Fld :=
  if grp = 0 then (F.ARB_TICKETS_LOCAL_LIVE, F.ARB_TICKETS_LOCAL_BASE, F.ARB_TICKETS_LOCAL_TMIN, F.ARB_TICKETS_LOCAL_TMAX)
  else if grp = 1 then (F.ARB_TICKETS_STAIR_LIVE, F.ARB_TICKETS_STAIR_BASE, F.ARB_TICKETS_STAIR_TMIN, F.ARB_TICKETS_STAIR_TMAX)
  else (F.ARB_TICKETS_STACK_LIVE, F.ARB_TICKETS_STACK_BASE, F.ARB_TICKETS_STACK_TMIN, F.ARB_TICKETS_STACK_TMAX)

/-- Lines of class k in a group in the running window. -/
def State.winLines (s : State) (g grp k : Nat) : Nat := (find (s.arb g).win (grp * 8 + k)).getD 0

/-- A value moved towards another by at most a step. -/
def towards (x y step : Nat) : Nat := if x < y then min y (x + step) else max y (x - step)

/-- The classes of a group that are deprived: wanting, with a share below MIN. -/
def State.deprived (s : State) (g grp : Nat) : List Nat :=
  let a := s.arb g
  let total := ((List.range 8).map (s.winLines g grp)).sum
  (List.range 8).filter fun k =>
    let share := if total = 0 then 0 else 64 * s.winLines g grp k / total
    (a.heldWin.testBit k || a.lost.testBit (grp * 8 + k)) && decide (share < s.get (arbPage g) (F.ARB_CLASS_SHARE_MIN.at k))

/-- The loop of R200 for one group. -/
def State.adaptGroup (s : State) (g grp : Nat) : State :=
  let p := arbPage g
  let (live, base, lo, hi) := ticketFlds grp
  let step := s.get p F.ARB_ADAPT_CFG_STEP
  let total := ((List.range 8).map (s.winLines g grp)).sum
  let share (k : Nat) : Nat := if total = 0 then 0 else 64 * s.winLines g grp k / total
  let d := s.deprived g grp
  let quiet (n : Nat) (s : State) : State := s.setArb g { s.arb g with quiet := put (s.arb g).quiet grp n }
  if !d.isEmpty then
    let mins := (List.range 8).map fun k => s.get p (F.ARB_CLASS_SHARE_MIN.at k)
    quiet 0 (foldS (fun k s =>
      let v := s.get p (live.at k)
      if d.contains k then
        let s := if v = s.get p (hi.at k) then s.raise p Err.ARB_ADAPT_LIMIT (detVal k grp) else s
        s.set p (live.at k) (min (v + step) (s.get p (hi.at k)))
      else if mins.getD k 0 < share k then s.set p (live.at k) (max (v - step) (s.get p (lo.at k)))
      else s) (List.range 8) s)
  else
    let q := (find (s.arb g).quiet grp).getD 0 + 1
    if s.get p F.ARB_ADAPT_CFG_RELAX ≤ q then
      quiet 0 (foldS (fun k s => s.set p (live.at k) (towards (s.get p (live.at k)) (s.get p (base.at k)) step)) (List.range 8) s)
    else quiet q s

/-- The end of a regulation window of gallery g. -/
def State.windowEnd (s : State) (g : Nat) : State :=
  let p := arbPage g
  if s.ticks < (s.arb g).winAt + s.get p F.ARB_REG_WINDOW_US ∨ !s.time.running then s
  else
    let s := foldS (fun k s =>
      ((s.set p (F.ARB_WIN_LINES_LOCAL.at k) (s.winLines g 0 k)).set p (F.ARB_WIN_LINES_STAIR.at k) (s.winLines g 1 k)).set p
        (F.ARB_WIN_LINES_STACK.at k) (s.winLines g 2 k)) (List.range 8) s
    let s := s.set p F.ARB_WIN_SEQ ((s.get p F.ARB_WIN_SEQ + 1) % 2 ^ 32)
    let on := s.flag p F.ARB_ARB_CTRL_ADAPT
    let dep := if on then (List.range 3).flatMap (s.deprived g) else []
    let s := if on then foldS (fun grp s => s.adaptGroup g grp) (List.range 3) s else s.setArb g { s.arb g with quiet := [] }
    let s := s.set p F.ARB_CLASS_STATE_DEPRIVED (dep.foldl (fun n k => n ||| 2 ^ k) 0)
    s.setArb g { s.arb g with win := [], lost := 0, heldWin := 0, winAt := s.ticks }

/-! ### Saturation (R209) -/

def State.saturated (s : State) (g k : Nat) : State :=
  let p := arbPage g
  let m := s.get p F.ARB_CLASS_STATE_SATURATED
  if !m.testBit k ∧ max 1 (s.arb g).satAfter ≤ (find (s.arb g).heldRun k).getD 0 then
    (s.set p F.ARB_CLASS_STATE_SATURATED (m + 2 ^ k)).raise p Err.ARB_SATURATED (detVal k 0)
  else s

def State.saturatedClear (s : State) (g k : Nat) : State :=
  let p := arbPage g
  let m := s.get p F.ARB_CLASS_STATE_SATURATED
  if m.testBit k ∧ max 1 (s.arb g).satClear ≤ (find (s.arb g).freeRun k).getD 0 then
    s.set p F.ARB_CLASS_STATE_SATURATED (m - 2 ^ k)
  else s

end Sys2Proof.Machine
end

