-- ==== Sys2Proof/Machine/RegRead.lean ====
section
/-! DEFINITION. Reads of register pages (R68, R109, R111, R115, R117, R501, R585, R649): stored fields, and the registers
that show other state. -/

namespace Sys2Proof.Machine

def wordOf (n : Nat) : Word := BitVec.ofNat 32 n

/-! ### Views of other state -/

/-- TNK_STATUS (Table 4-12): between steps the tinker is idle; the bank and region are those its sweep tests next. (DESIGN CHOICE, log entry 28) -/
def State.tnkStatus (s : State) (g : Nat) : Nat :=
  let t := s.tinker g
  t.sweepBank * 2 ^ 3 + t.sweepRegion * 2 ^ 9 + t.targets.length * 2 ^ 15 + b2n t.bg55 * 2 ^ 18

/-- The DPA of a steward memory operation. -/
def StwOp.mem? : StwOp → Option Nat
  | .regRead _ => none
  | .regWrite _ _ => none
  | .memRead a _ _ => some a
  | .memWrite a _ _ _ _ => some a
  | .memAtom a _ _ _ _ _ => some a

/-- HC_QUEUE (Table 7-7): regulated slots in use, and operations of the steward port that wait for the stack. -/
def State.hcQueue (s : State) (g : Nat) : Nat :=
  let mine (q : StwQueued) : Bool := match q.op.bind StwOp.mem? with
    | some a => match s.target a with
      | .ok (.hbm h _) => h == g
      | _ => false
    | none => false
  (s.hc g).queue.length + (s.stw.queue.filter mine).length * 2 ^ 16

/-- ENG_STATUS (Table 9-4). -/
def State.engStatus (s : State) (e : Nat) : Nat :=
  (s.slotsUsed e).foldl (fun n k => n + 2 ^ k) 0 + s.engTokens e * 2 ^ 4 + s.engLines e * 2 ^ 16

/-- RING_STATUS_s (Table 10-7). -/
def State.ringStatus (s : State) (g k : Nat) : Nat :=
  let r := s.get (fmnPage g) (F.FMN_RING_SLOT_RING.at k)
  if s.flag (fmnPage g) (F.FMN_RING_SLOT_EN.at k) then
    s.ringState r + (s.ring r).fetched.length * 2 ^ 4 + ((s.ring r).out.filter fun o => !o.fin).length * 2 ^ 16
  else 0

/-- CRY_STATUS (Table 13-12). -/
def State.cryStatus (s : State) (g : Nat) : Nat :=
  let x := s.crier g
  x.phase + (x.counts.map (·.2)).sum * 2 ^ 8

/-- ALERT_SRC, and word w of ALERT_MAP for page set t: 0 to 7 a gallery, 8 the central pages (Table 15-12). -/
def State.alertSrc (s : State) : Nat :=
  (List.range 9).foldl (fun n t =>
    let ps := if t = 8 then centralPages else galleryPages t
    n + b2n (ps.any fun p => s.alertBits p ≠ 0) * 2 ^ t) 0
def State.alertMap (s : State) (t w : Nat) : Nat :=
  if w ≠ 0 then 0
  else (List.range 13).foldl (fun n j =>
    match (if t = 8 then centralPage j else galleryPage t j) with
    | some p => n + b2n (decide (s.alertBits p ≠ 0)) * 2 ^ j
    | none => n) 0

/-- HALL_STATUS (Table 11-9): operations in the hall are the waits held for a record. -/
def State.hallStatus (s : State) : Nat :=
  s.hall.held.length + s.hall.waiters.length * 2 ^ 8 + s.hall.holders.length * 2 ^ 20

/-- QUEUE_STATE_q and QEND_q (Table 9-7). -/
def State.queueStateWord (s : State) (q : Nat) : Nat :=
  let x := s.queue q
  s.queueState q + x.descs.length * 2 ^ 4 + (x.descs.filter (·.active)).length % 4 * 2 ^ 9 + s.qLines q * 2 ^ 16
def Queue.endWord (x : Queue) : Nat := x.endStatus + x.endCode * 2 ^ 4 + b2n x.endSat * 2 ^ 12 + x.endSeq % 2 ^ 16 * 2 ^ 16

/-- The resume-record window of a queue, by offset (Table 9-7). -/
def Queue.window (x : Queue) (off : Nat) : Nat :=
  if off = 0x740 then x.doneElems % 2 ^ 32
  else if off = 0x744 then x.doneElems / 2 ^ 32
  else match x.rr with
    | none => 0
    | some r =>
      if off = 0x704 then 1 + b2n r.write * 2 + b2n r.taken * 4 + r.kind % 16 * 2 ^ 3 + r.flags % 8 * 2 ^ 7
      else if off = 0x708 then r.desc % 2 ^ 32
      else if off = 0x70C then r.desc / 2 ^ 32
      else if off = 0x710 then r.tva % 2 ^ 32
      else if off = 0x714 then r.tva / 2 ^ 32
      else if 0x718 ≤ off ∧ off < 0x730 then r.idx.getD ((off - 0x718) / 4) 0
      else if off = 0x730 then r.part % 2 ^ 32
      else if off = 0x734 then r.part / 2 ^ 32
      else 0

/-- A TQC register: 0 for a queue of another context (R409). -/
def State.tqcRead (s : State) (port : Port) (c off : Nat) : Word :=
  let sel := (s.portRd port ⟨.TQC, c⟩ 0x700).toNat % 128
  if off = 0x700 then s.portRd port ⟨.TQC, c⟩ 0x700
  else if 0x300 ≤ off ∧ off < 0x500 then
    let q := (off - 0x300) / 4
    if s.qCtx q = c then wordOf (s.queueStateWord q) else 0
  else if 0x500 ≤ off ∧ off < 0x700 then
    let q := (off - 0x500) / 4
    if s.qCtx q = c then wordOf (s.queue q).endWord else 0
  else if 0x700 < off ∧ s.qCtx sel = c then wordOf ((s.queue sel).window off)
  else 0

/-- A TTV register that shows the hall (R501). -/
def State.ttvRead (s : State) (port : Port) (c off : Nat) : Word :=
  if off = 0x100 then wordOf (s.tallyCount c)
  else if off = 0x104 then wordOf (s.get pgTHL (F.THL_DEFAULT_TIMEOUT_US.at c))
  else if off = 0x108 then s.portRd port (ttvPage c) off
  else match s.ttvSel port c with
    | none => 0
    | some p => if off = 0x10C then s.tallyWord p 0 else if off = 0x110 then wordOf (b2n (s.tally p).lock) else 0

/-- The table window of the event context (Table 13-13): gallery, table, live, index that a port has selected. -/
structure TblSel where
  g : Nat
  t : Nat
  live : Bool
  i : Nat
  deriving DecidableEq, Repr
def State.tblSel (s : State) (port : Port) (c : Nat) : TblSel :=
  let w := s.portRd port (tevPage c) 0x180
  ⟨wbits w 0 3, wbits w 4 2, w.getLsbD 6, wbits w 8 11⟩
def State.tblRead (s : State) (port : Port) (c k : Nat) : Word :=
  let x := s.tblSel port c
  if tblSize x.t ≤ x.i ∨ tblWords x.t ≤ k then 0
  else wordOf (bits (if x.live then s.liveEnt x.t x.g x.i else s.shadowEnt x.t x.g x.i) (32 * k) 32)

/-- A TEV register; a context that is not the event context reads 0 (R585). -/
def State.tevRead (s : State) (port : Port) (c off : Nat) : Word :=
  let p := tevPage c
  if s.evCtx ≠ c then 0
  else if off = 0x180 then s.portRd port p off
  else if 0x184 ≤ off ∧ off < 0x194 then s.tblRead port c ((off - 0x184) / 4)
  else if off = 0x1A4 then wput (s.rd p off) 4 3 s.evState
  else s.readFields p off

/-- The in-doubt window (Table 14-9): entry 0 is the newest. -/
def State.inDoubtRead (s : State) (port : Port) (off : Nat) : Word :=
  if off = 0x1C0 then s.portRd port pgTWN off
  else match s.twin.inDoubt[(s.portRd port pgTWN 0x1C0).toNat % 1024]? with
    | none => 0
    | some d =>
      if off = 0x1C4 then wordOf d.mseq
      else wordOf (d.mkind % 16 + d.okind % 4 * 2 ^ 4 + d.oid % 128 * 2 ^ 6 + d.otag % 512 * 2 ^ 13 + d.status % 16 * 2 ^ 22 + 2 ^ 31)

/-- The table entry that a port has selected on a MIX page (Table 12-7). -/
def State.nrmRead (s : State) (port : Port) (g : Nat) : Word :=
  let i := (s.portRd port (mixPage g) 0x160).toNat
  wordOf (qTable (if 1 ≤ i ∧ i ≤ 1024 then i else 1))

/-- Word k of the trace entry that a port has selected (Table 15-13). -/
def State.trcEntry (s : State) (i : Nat) : Nat := (find s.trace.mem i).getD 0
def State.trcRead (s : State) (port : Port) (k : Nat) : Word :=
  wordOf (bits (s.trcEntry ((s.portRd port pgDBG 0x138).toNat % 4096)) (32 * k) 32)

/-! ### The read -/

/-- A 64-bit counter's snapshot is taken by a read of its LO half (R44, R115). -/
def State.snapshot (s : State) (port : Port) (p : Page) (off : Nat) : State := s.portWr port p (off + 4) (s.rd p (off + 4))

/-- A read of TIME_NS takes the snapshot of TIME_SEC (R68). -/
def State.timeSnapshot (s : State) (port : Port) : State :=
  (s.portWr port pgTBS 0x124 (wordOf (s.time.sec % 2 ^ 32))).portWr port pgTBS 0x128 (wordOf (s.time.sec / 2 ^ 32 % 2 ^ 16))

/-- A read of TRC_DATA_3 advances the port's index (R649). -/
def State.trcAdvance (s : State) (port : Port) : State :=
  s.portWr port pgDBG 0x138 (wordOf (((s.portRd port pgDBG 0x138).toNat + 1) % 4096))

/-- The offset is half of a 64-bit counter: of its LO half, or of its HI half. -/
def wideHalf (k : PageKind) (off : Nat) : Option Bool :=
  match findReg k off with
  | some d => if d.wide then some (decide (off - d.off = d.index off * d.stride)) else none
  | none => none

/-- The value of a register with no side effect of its read, beyond the fields that are stored. (DESIGN CHOICE, log entry 157) -/
def State.viewReg (s : State) (port : Port) (p : Page) (off : Nat) : Word :=
  match p.kind with
  | .TNK => if off = 0x10C then wordOf (s.tnkStatus p.inst) else if off = 0x124 then s.spareWord p.inst else s.readFields p off
  | .MOD =>
    if off = 0x12C then wordOf ((s.link p.inst).tags.length + (s.link p.inst).srds.length * 2 ^ 16)
    else if off = 0x130 then wordOf (s.link p.inst).quarantined.length
    else s.readFields p off
  | .HC => if off = 0x11C then wordOf (s.hcQueue p.inst) else s.readFields p off
  | .ENG => if off = 0x160 then wordOf (s.engStatus p.inst) else s.readFields p off
  | .ERP =>
    if off = 0x104 then wordOf (s.errandsUsed p.inst + (s.path p.inst).combs.length * 2 ^ 8) else s.readFields p off
  | .FMN =>
    if 0x100 ≤ off ∧ off < 0x180 ∧ off % 16 = 12 then wordOf (s.ringStatus p.inst ((off - 0x100) / 16))
    else if off = 0x180 then wordOf (s.board p.inst).length
    else s.readFields p off
  | .MIX =>
    if off = 0x160 then s.portRd port p off else if off = 0x164 then s.nrmRead port p.inst else s.readFields p off
  | .CRY => if off = 0x110 then wordOf (s.cryStatus p.inst) else s.readFields p off
  | .STW =>
    if off = 0x11C then wordOf s.elog.buf.length
    else if off = 0x128 then wordOf (s.stw.queue.length + s.stw.done.length)
    else if off = 0x130 then wordOf s.alertSrc
    else if 0x140 ≤ off ∧ off < 0x260 then wordOf (s.alertMap ((off - 0x140) / 32) ((off - 0x140) % 32 / 4))
    else s.readFields p off
  | .DBG =>
    if off = 0x138 then s.portRd port p off
    else if 0x140 ≤ off ∧ off < 0x150 then s.trcRead port ((off - 0x140) / 4)
    else s.readFields p off
  | .TBS =>
    if off = 0x120 then wordOf s.time.ns
    else if off = 0x124 ∨ off = 0x128 then s.portRd port p off
    else s.readFields p off
  | .THL => if off = 0x288 then wordOf s.hallStatus else s.readFields p off
  | .TWN => if 0x1C0 ≤ off ∧ off < 0x1CC then s.inDoubtRead port off else s.readFields p off
  | .TDB =>
    if off < 0x140 ∧ off % 16 = 8 then wput (s.rd p off) 0 3 (s.ringState (4 * p.inst + (off - 0x100) / 16)) else s.readFields p off
  | .TFQ => if off = 0x114 then wput (s.rd p off) 4 4 (s.faultBuf p.inst).buf.length else s.readFields p off
  | .TTV => if off < 0x114 then s.ttvRead port p.inst off else s.readFields p off
  | .TQC => s.tqcRead port p.inst off
  | .TEV => s.tevRead port p.inst off
  | _ => s.readFields p off

/-- A read of a register: its value, and the state with the snapshot or index that the read moves. -/
def State.readReg (s : State) (port : Port) (p : Page) (off : Nat) : Word × State :=
  if off < 0x100 then (s.readCommon p off, s)
  else if p.kind = .TEV ∧ s.evCtx ≠ p.inst then (0, s)
  else match wideHalf p.kind off with
    | some true => (s.rd p off, s.snapshot port p off)
    | some false => (s.portRd port p off, s)
    | none =>
      let w := s.viewReg port p off
      if p.kind = .TBS ∧ off = 0x120 then (w, s.timeSnapshot port)
      else if p.kind = .DBG ∧ off = 0x14C then (w, s.trcAdvance port)
      else (w, s)

end Sys2Proof.Machine
end

