-- ==== Sys2Proof/Machine/RegWrite.lean ====
section
/-! DEFINITION. Writes of register pages (R109, R111, R755) with the registers whose write is more than their fields, the
mirrored registers (R602), and accesses that a page holds (R124, R652, R709). -/

namespace Sys2Proof.Machine

/-- The value of a field in a written word, and the word with a field as another word has it. -/
def fldIn (w : Word) (f : Fld) : Nat := wbits w f.lo f.w
def keepFld (w old : Word) (f : Fld) : Word := wput w f.lo f.w (fldIn old f)

/-! ### Central pages -/

/-- TBS: REF_CTRL (R72, R78), the TIME_SET registers (R70), TIME_APPLY, TIME_FREQ_ADJ (R67), TURN_CTRL. -/
def State.tbsWrite (s : State) (off : Nat) (w : Word) : State :=
  let p := pgTBS
  if off = 0x100 then
    let warn := fldIn w F.TBS_REF_CTRL_WARN_PPM
    let out := fldIn w F.TBS_REF_CTRL_OUT_PPM
    if out ≤ warn ∨ warn = 0 then s.raise p Err.TBS_BAD_VALUE
    else (s.writeFields p off (keepFld w (s.rd p off) F.TBS_REF_CTRL_FORCE)).forceWrite (fldIn w F.TBS_REF_CTRL_FORCE)
  else if 0x130 ≤ off ∧ off < 0x13C ∧ s.flag p F.TBS_TIME_STATUS_PENDING then s.set p F.TBS_TIME_STATUS_SET_IGNORED 1
  else if off = 0x13C then s.timeApply (wbits w 0 2)
  else if off = 0x144 ∧ 100000 < (toSigned 32 w.toNat).natAbs then s.raise p Err.TBS_BAD_VALUE
  else if off = 0x1A8 then (if w.getLsbD 0 then s.clearMax else s)
  else s.writeFields p off w

/-- STW: ELOG_CTRL, ELOG_BASE (R655), ELOG_TAIL (R642). (DEDUCED, log entry 26; DEDUCED, log entry 27) -/
def State.stwWrite (s : State) (off : Nat) (w : Word) : State :=
  let p := pgSTW
  let en := s.flag p F.STW_ELOG_CTRL_EN
  let bad (s : State) : State := s.raise p Err.STW_BAD_VALUE
  if off = 0x108 then
    let f := F.STW_ELOG_CTRL_LOG2
    let n := fldIn w f
    if n = s.get p f ∨ (!en ∧ 4 ≤ n ∧ n ≤ 16) then s.writeFields p off w else bad (s.writeFields p off (keepFld w (s.rd p off) f))
  else if off = 0x10C ∨ off = 0x110 then (if en then bad s else s.writeFields p off w)
  else if off = 0x118 then
    let d (a : Nat) : Nat := (a + 2 ^ 32 - s.get p F.STW_ELOG_TAIL) % 2 ^ 32
    if d (s.get p F.STW_ELOG_HEAD) < d w.toNat then bad s else s.writeFields p off w
  else s.writeFields p off w

/-- DBG: DBG_CTRL (R645), TRC_CTRL (R651), TRC_IDX, held per port. -/
def State.dbgWrite (s : State) (port : Port) (off : Nat) (w : Word) : State :=
  let p := pgDBG
  if off = 0x100 then
    if !w.getLsbD 0 then s.writeFields p off w
    else if wbits w 24 8 ≠ 0xD6 then s.raise pgSTW Err.STW_BAD_VALUE
    else ((s.writeFields p off w).set p F.DBG_DBG_STATUS_UNLOCKED 1).raise pgSTW Err.STW_DBG_UNLOCKED {} true
  else if off = 0x110 then
    let was := s.flag p F.DBG_TRC_CTRL_EN
    let s := s.writeFields p off w
    if w.getLsbD 0 && !was then { s with trace := { s.trace with written := 0 } } else s
  else if off = 0x138 then s.portWr port p off (w &&& 0xFFF#32)
  else s.writeFields p off w

/-- TWN, beyond the mirrored regions (R610, R619, R624, R763). -/
def State.twnWrite (s : State) (port : Port) (off : Nat) (w : Word) : State :=
  let p := pgTWN
  let bad (s : State) : State := s.raise p Err.TWN_BAD_VALUE
  if off = 0x1C0 then s.portWr port p off (w &&& 0x3FF#32)
  else if !s.straps.twinEn then
    if off = 0x100 ∨ off = 0x10C ∨ (0x140 ≤ off ∧ off < 0x1C0) ∨ (off = 0x104 ∧ w &&& 3 ≠ 0) then bad s else s.writeFields p off w
  else if off = 0x100 then
    if wbits w 16 16 < 10 then bad (s.writeFields p off (keepFld w (s.rd p off) F.TWN_TWN_CTRL_BEAT_TIMEOUT)) else s.writeFields p off w
  else if off = 0x104 then
    let s := if w.getLsbD 0 then s.rejoin else s
    if w.getLsbD 1 then s.takeOver else s
  else if off = 0x10C then
    let n := wbits w 0 12
    if n = 0 ∨ 4000 < n then bad (s.writeFields p off (keepFld w (s.rd p off) F.TWN_RESILVER_CTRL_RATE)) else s.writeFields p off w
  else s.writeFields p off w

/-! ### Gallery pages -/

/-- TNK: TNK_INTERVAL, TNK_TARGET (R161), SPARE_ENTRY (R178, R755). -/
def State.tnkWrite (s : State) (g off : Nat) (w : Word) : State :=
  let p := tnkPage g
  if off = 0x104 ∧ wbits w 0 16 = 0 then s.raise p Err.TNK_BAD_VALUE
  else if off = 0x108 then s.queueTarget g (wbits w 0 6) (wbits w 6 6)
  else if off = 0x124 then s.spareWrite g w
  else s.writeFields p off w

/-- A module whose phase is not over: its resets are ignored (R720). -/
def State.modEarly (s : State) : Bool := decide (s.phase < 4)

/-- MOD_CTRL (Table 6-14, R279, R720). (DEDUCED, log entry 150) -/
def State.modCtrl (s : State) (m : Nat) (w : Word) : State :=
  let p := modPage m
  let w := if fldIn w F.MOD_MOD_CTRL_MAX_RATE = 3 then keepFld w (s.rd p 0x100) F.MOD_MOD_CTRL_MAX_RATE else w
  let was := s.flag p F.MOD_MOD_CTRL_ENABLE
  let s := s.writeFields p 0x100 w
  let early := w.getLsbD 4 && s.modEarly
  let s := if early then s.raise pgBOOT Err.BOOT_EARLY_RESET (detVal p.kind.blockType m) else s
  if (was && !w.getLsbD 0) || (w.getLsbD 4 && !early) then s.moduleReset m
  else if w.getLsbD 0 && !was then s.modTrain m
  else s

/-- MOD: PORT_AUTH of the twin link is 0 (R762). -/
def State.modWrite (s : State) (m off : Nat) (w : Word) : State :=
  if off = 0x100 then s.modCtrl m w
  else if off = 0x108 ∧ s.isTwin m then s
  else s.writeFields (modPage m) off w

/-- HC: HC_CTRL (Table 7-7, R310, R316), HC_SCHED (R301). -/
def State.hcWrite (s : State) (g off : Nat) (w : Word) : State :=
  let p := hcPage g
  if off = 0x100 then
    let bad := fldIn w F.HC_HC_CTRL_MAX_RATE = 3
    let s := s.writeFields p off (if bad then keepFld w (s.rd p off) F.HC_HC_CTRL_MAX_RATE else w)
    let s := if bad then s.raise p Err.HC_BAD_VALUE else s
    let s := if w.getLsbD 4 then s else s.modHc g fun h => { h with asleep := [] }
    let s := if w.getLsbD 8 then s.hcRetrain g else s
    if w.getLsbD 9 then s.stackClear g else s
  else if off = 0x108 ∧ wbits w 16 16 < 16 then s.raise p Err.HC_BAD_VALUE
  else s.writeFields p off w

/-- The staging area of a base in 4 KiB units and a count of blocks lies in SRAM (R391). -/
def stageFits (base blocks : Nat) : Bool := decide ((base + blocks) * 4096 ≤ 0x6000000)

/-- ENG: QUEUE_CFG_i and QUEUE_STAGE_i (R391). -/
def State.engWrite (s : State) (e off : Nat) (w : Word) : State :=
  let p := engPage e
  if 0x100 ≤ off ∧ off < 0x140 then
    let i := (off - 0x100) / 8
    let base := F.ENG_QUEUE_STAGE_BASE.at i
    let blk := F.ENG_QUEUE_CFG_STAGE_BLOCKS.at i
    let f := if off % 8 = 0 then blk else base
    let fits := if off % 8 = 0 then stageFits (s.get p base) (fldIn w blk + 1) else stageFits (fldIn w base) (s.get p blk + 1)
    if fits ∨ fldIn w f = s.get p f then s.writeFields p off w
    else (s.writeFields p off (keepFld w (s.rd p off) f)).raise p Err.ENG_BAD_VALUE
  else s.writeFields p off w

/-- FMN: RING_SLOT_s (R410, R449) and its base. A changed ring, size or base is fetched anew. -/
def State.fmnWrite (s : State) (g off : Nat) (w : Word) : State :=
  let p := fmnPage g
  if 0x100 ≤ off ∧ off < 0x180 then
    let k := (off - 0x100) / 16
    let r (s : State) : Nat := s.get p (F.FMN_RING_SLOT_RING.at k)
    if off % 16 = 0 then
      let f := F.FMN_RING_SLOT_LOG2SIZE.at k
      let n := fldIn w f
      let bad := (n < 6 ∨ 12 < n) ∧ n ≠ s.get p f
      let old := r s
      let w' := if bad then keepFld w (s.rd p off) f else w
      let s := s.writeFields p off (keepFld w' (s.rd p off) (F.FMN_RING_SLOT_EN.at k))
      let s := if bad then s.raise p Err.FMN_BAD_VALUE else s
      let s := if r s ≠ old then (s.refetch old).refetch (r s) else s
      s.slotEn g k (fldIn w (F.FMN_RING_SLOT_EN.at k) == 1)
    else if off % 16 = 4 ∧ w.toNat / 4096 % (2 ^ s.get p (F.FMN_RING_SLOT_LOG2SIZE.at k) / 64) ≠ 0 then s.raise p Err.FMN_BAD_VALUE
    else if off % 16 < 12 then
      let t := s.writeFields p off w
      if t.rd p off = s.rd p off then t else t.refetch (r t)
    else s
  else s.writeFields p off w

/-- MIX: MIX_CTRL (R528), CHK_CTRL (R519), NRM_TBL_IDX, held per port. -/
def State.mixWrite (s : State) (port : Port) (g off : Nat) (w : Word) : State :=
  if off = 0x100 then s.mixReturn g (wbits w 0 8)
  else if off = 0x128 then (if w.getLsbD 0 then s.chkStart g else s)
  else if off = 0x160 then s.portWr port (mixPage g) off (w &&& 0x7FF#32)
  else s.writeFields (mixPage g) off w

/-- CRY: the areas of a crier (R583, R754). -/
def State.cryWrite (s : State) (g off : Nat) (w : Word) : State :=
  let p := cryPage g
  if 0x100 ≤ off ∧ off < 0x110 then
    let land := decide (0x108 ≤ off)
    let size := off % 8 == 4
    let fb := if land then F.CRY_LAND_BASE_BASE else F.CRY_ARENA_BASE_BASE
    let fs := if land then F.CRY_LAND_SIZE_BLOCKS else F.CRY_ARENA_SIZE_BLOCKS
    let f := if size then fs else fb
    let v := fldIn w f
    let base := if size then s.get p fb else v
    let n := if size then v else s.get p fs
    let bad := decide (0x6000 < base + n) || (land && size && (v == 0 || decide (128 < v)))
    if v = s.get p f then s
    else if !s.hardOpen p then s.raise p Err.WRITE_WHILE_RUN
    else if bad then s.raise p Err.CRY_BAD_VALUE
    else s.set p f v
  else s.writeFields p off w

/-! ### Tenant pages -/

/-- TDB: DOORBELL_r (R412) and RING_CMD_r (R433, R443). -/
def State.tdbWrite (s : State) (c off : Nat) (w : Word) : State :=
  if 0x100 ≤ off ∧ off < 0x140 then
    let r := 4 * c + (off - 0x100) / 16
    if off % 16 = 0 then s.doorbell r (wbits w 0 16)
    else if off % 16 = 12 then
      let s := if w.getLsbD 0 then s.ringRestart r else s
      if w.getLsbD 1 then s.ringClear r else s
    else s
  else s

/-- The translation of a fault queue's base for writing (R734). -/
def State.fqLookup (s : State) (c : Nat) : Option (Except XFault Nat) × State :=
  let p := tfqPage c
  let tva := s.get p F.TFQ_FQ_BASE_LO_TVA * 2 ^ 10 + s.get p F.TFQ_FQ_BASE_HI_TVA * 2 ^ 32
  s.translateNow 0 c tva (s.get p F.TFQ_FQ_CTRL_CLASS) .wr (.steward c)

/-- FQ_CTRL.EN = 1: the base is translated in the context (R734). -/
def State.fqEnable (s : State) (c : Nat) : State :=
  let p := tfqPage c
  let r := s.fqLookup c
  match r.1 with
  | some (.ok dpa) => (r.2.setFaultBuf c { r.2.faultBuf c with dpaBase := dpa }).set p F.TFQ_FQ_CTRL_EN 1
  | _ => r.2.set p F.TFQ_FQ_STATUS_BASE_FAULT 1

/-- FQ_CTRL.EN = 1 waits while the tables it needs are held (R122). -/
def State.fqWaits (s : State) (c : Nat) : Bool :=
  !s.flag (tfqPage c) F.TFQ_FQ_CTRL_EN && (s.fqLookup c).1.isNone

/-- TFQ: the base and size (R734), FQ_TAIL (R737). -/
def State.tfqWrite (s : State) (c off : Nat) (w : Word) : State :=
  let p := tfqPage c
  let en := s.flag p F.TFQ_FQ_CTRL_EN
  let ignored (s : State) : State := s.set p F.TFQ_FQ_STATUS_WRITE_IGNORED 1
  if off = 0x100 ∨ off = 0x104 then (if en then ignored s else s.writeFields p off w)
  else if off = 0x108 then
    let f := F.TFQ_FQ_CTRL_LOG2
    let n := fldIn w f
    let bad := n ≠ s.get p f ∧ (en ∨ n < 4 ∨ 10 < n)
    let w' := if bad then keepFld w (s.rd p off) f else w
    let s := if bad then ignored s else s
    if w.getLsbD 0 && !en then (s.writeFields p off (wput w' 0 1 0)).fqEnable c else s.writeFields p off w'
  else if off = 0x110 then
    let d (a : Nat) : Nat := (a + 2 ^ 32 - s.get p F.TFQ_FQ_TAIL) % 2 ^ 32
    if d (s.get p F.TFQ_FQ_HEAD) < d w.toNat then ignored s
    else (s.writeFields p off w).set p F.TFQ_FQ_STATUS_INT_PENDING 0
  else s.writeFields p off w

/-- TTV, beyond its mirrored registers: TTV_SEL, held per port, and TTV_CMD (R458, R501). -/
def State.ttvWrite (s : State) (port : Port) (c off : Nat) (w : Word) : State :=
  if off = 0x108 then s.portWr port (ttvPage c) off (w &&& 0x1FFF#32)
  else if off = 0x114 then (if w.getLsbD 0 then s.clearSat port c else s)
  else s.writeFields (ttvPage c) off w

/-- TQC: QUEUE_CMD_q (R381, R382, R409) and RR_SEL, held per port. -/
def State.tqcWrite (s : State) (port : Port) (c off : Nat) (w : Word) : State :=
  if 0x100 ≤ off ∧ off < 0x300 then s.tqcCmd c ((off - 0x100) / 4) (w.getLsbD 0) (w.getLsbD 1) (w.getLsbD 2)
  else if off = 0x700 then s.portWr port ⟨.TQC, c⟩ off (w &&& 0x7F#32)
  else s

/-- A write of TBL_DATA_k to the shadow entry that the port has selected (Table 13-13). -/
def State.tblWrite (s : State) (port : Port) (c k : Nat) (w : Word) : State :=
  let x := s.tblSel port c
  if x.live || s.flag (tevPage c) F.TEV_TEV_STATUS_COPY_BUSY || decide (tblSize x.t ≤ x.i) || decide (tblWords x.t ≤ k) then s
  else s.modEvent fun e =>
    { e with shadow := putEnt e.shadow (tblKey x.t x.g x.i) (putBits (s.shadowEnt x.t x.g x.i) (32 * k) 32 w.toNat) }

/-- TEV: STEP_CTRL, the table window, TEV_CMD; another context than the event context ignores the write (R585). -/
def State.tevWrite (s : State) (port : Port) (c off : Nat) (w : Word) : State :=
  let p := tevPage c
  if s.evCtx ≠ c then s
  else if off = 0x100 then
    (s.writeFields p off (keepFld w (s.rd p off) F.TEV_STEP_CTRL_RUN)).runWrite c (w.getLsbD 0)
  else if off = 0x180 then s.portWr port p off (w &&& 0x7FF77#32)
  else if 0x184 ≤ off ∧ off < 0x194 then s.tblWrite port c ((off - 0x184) / 4) w
  else if off = 0x1A0 then
    let s := if w.getLsbD 0 then s.swapWrite c else s
    let s := if w.getLsbD 1 then s.copyLive c else s
    if w.getLsbD 2 then s.swapCancel c else s
  else s.writeFields p off w

/-! ### Any register of this die alone -/

/-- A write to a register that is not mirrored. -/
def State.writeReg (s : State) (port : Port) (p : Page) (off : Nat) (w : Word) : State :=
  if off < 0x100 then (if p.kind = .TEV ∧ s.evCtx ≠ p.inst ∧ (off = 0x010 ∨ off = 0x014) then s else s.writeCommon p off w)
  else match p.kind with
  | .TBS => s.tbsWrite off w
  | .STW => s.stwWrite off w
  | .DBG => s.dbgWrite port off w
  | .MMAP => if off = 0x1C0 then s.invalWrite (wbits w 0 4) (wbits w 4 2) else s.writeFields p off w
  | .EVM => if off = 0x100 then s.evmWrite (w.getLsbD 0) (wbits w 1 4) (wbits w 5 3) else s
  | .TWN => s.twnWrite port off w
  | .PRS => if off = 0x104 ∧ (wbits w 0 11 < 320 ∨ 1360 < wbits w 0 11) then s.raise p Err.PRS_BAD_VALUE else s.writeFields p off w
  | .BOOT => if off = 0x104 then (if w.getLsbD 0 then s.ready else s) else s.writeFields p off w
  | .TNK => s.tnkWrite p.inst off w
  | .ARB =>
    let s := s.writeFields p off w
    if off = 0x100 ∧ w.getLsbD 1 then s.reseed p.inst else s
  | .MOD => s.modWrite p.inst off w
  | .HC => s.hcWrite p.inst off w
  | .ENG => s.engWrite p.inst off w
  | .FMN => s.fmnWrite p.inst off w
  | .MIX => s.mixWrite port p.inst off w
  | .CRY => s.cryWrite p.inst off w
  | .TDB => s.tdbWrite p.inst off w
  | .TFQ => s.tfqWrite p.inst off w
  | .TTV => s.ttvWrite port p.inst off w
  | .TQC => s.tqcWrite port p.inst off w
  | .TEV => s.tevWrite port p.inst off w
  | _ => s.writeFields p off w

/-! ### Mirrored registers (Table 14-1, Table 19-2, Table 19-3, R602) -/

/-- The write of a register is a mirrored operation. -/
def State.mirroredReg (s : State) (p : Page) (off : Nat) : Bool :=
  match p.kind with
  | .THL => true
  | .MMAP => decide (0x140 ≤ off ∧ off < 0x1C0)
  | .TWN => s.straps.twinEn && decide (0x140 ≤ off ∧ off < 0x1C0)
  | .TTV => decide (0x140 ≤ off ∧ off < 0x180) || off == 0x110 || off == 0x180
  | .TMK => off == 0x110
  | .CTX => off == 0x100
  | _ => false

/-- A write of a mirrored register: whether it is answered later, when both dies have applied it. -/
def State.mirrorWrite (s : State) (port : Port) (p : Page) (off : Nat) (w : Word) (fin : MirDone) : Bool × State :=
  match p.kind with
  | .TTV =>
    if off = 0x110 then
      match s.ttvSel port p.inst with
      | none => (false, s)
      | some q => s.configWriteTo (p.base + off) (BitVec.ofNat 32 (b2n (w.getLsbD 0) + q * 2 ^ 16)) fin
    else s.configWriteTo (p.base + off) w fin
  | .TMK => if w.getLsbD 0 then s.keyApplyTo p.inst fin else (false, s)
  | .CTX =>
    let op := wbits w 4 2
    if op = 1 then s.ctxCmdTo (wbits w 0 4) true fin else if op = 2 then s.ctxCmdTo (wbits w 0 4) false fin else (false, s)
  | _ => s.configWriteTo (p.base + off) w fin

/-! ### Accesses that wait (R110, R124, R652, R709) -/

/-- The block of a page has not finished its own phase of the start-up. (DEDUCED, log entry 24) -/
def State.phaseHolds (s : State) (p : Page) : Bool :=
  match p.kind with
  | .BNK | .TNK | .GSW => s.phase == 2 && !s.flag pgBOOT F.BOOT_BOOT_STATUS_STOPPED
  | .MOD => s.phase == 3 && s.flag p F.MOD_MOD_CTRL_ENABLE && !s.modUp p.inst
  | .HC => s.phase == 4 && (s.hcState p.inst == 0 || s.hcState p.inst == 1 || s.hcState p.inst == 3)
  | _ => false

/-- The write asks for a reset that R720 ignores: it is served, without its reset, although the page is held. -/
def earlyReset (p : Page) (off : Nat) (data : Option Word) : Bool :=
  match data with
  | none => false
  | some w => (p.kind == .MOD && off == 0x100 && w.getLsbD 4) || (p.kind == .HC && off == 0x008 && w.getLsbD 1)

/-- An access has to wait. -/
def State.regHeld (s : State) (port : Port) (p : Page) (off : Nat) (data : Option Word) : Bool :=
  s.run p == RESETTING || (s.phaseHolds p && !earlyReset p off data) ||
  (p.kind.tenant && port == .steward && s.ctxState p.inst == 1) ||
  (data.isSome && s.mirroredReg p off && s.twinState == twSRC && s.twin.pass == 0) ||
  (p.kind == .TFQ && off == 0x108 && data.any (·.getLsbD 0) && s.fqWaits p.inst) ||
  s.heldRegs.any fun x => x.port == port && x.page == p

/-- Answer a register access: a module's REG_RSP, or a steward operation that waited. -/
def State.regAnswer (s : State) (port : Port) (hdr : BitVec 128) (handle : Option Nat) (v : Option Word) : State :=
  match port, handle with
  | .module m, _ => if hdr = 0 then s else s.respond m hdr 0 0 0 ((v.map (·.toNat)).getD 0) []
  | _, some h => s.portDone h 0 0 0 (match v with | some w => leBytes 4 w.toNat | none => [])
  | _, _ => s

/-- Serve an access now. -/
def State.regServe (s : State) (x : HeldReg) : State :=
  match x.data with
  | none =>
    let r := s.readReg x.port x.page x.off
    ({ r.2 with readRsp := put r.2.readRsp x.port.code r.1 }).regAnswer x.port x.hdr x.handle (some r.1)
  | some w =>
    let fin : MirDone := match x.port, x.handle with
      | .module m, _ => .write m x.hdr
      | _, some h => .port h 0 [] 0 0 false
      | _, _ => .nobody
    let r := if s.mirroredReg x.page x.off then s.mirrorWrite x.port x.page x.off w fin else (false, s.writeReg x.port x.page x.off w)
    if r.1 then r.2 else r.2.regAnswer x.port x.hdr x.handle none

/-- The translation that an enable of a fault queue waits for is asked for (R101, R734). -/
def State.fqAsk (s : State) (x : HeldReg) : State :=
  if x.page.kind == .TFQ && x.off == 0x108 && x.data.any (·.getLsbD 0) && s.run x.page != RESETTING && s.fqWaits x.page.inst then
    (s.fqLookup x.page.inst).2
  else s

/-- A register access reaches its page: it is served, or waits. -/
def State.regAccess (s : State) (x : HeldReg) : State :=
  if s.regHeld x.port x.page x.off x.data then
    let s := s.fqAsk x
    { s with heldRegs := s.heldRegs ++ [x] }
  else s.regServe x

/-- A write to a register by a port that needs no answer. -/
def State.pageWrite (s : State) (port : Port) (p : Page) (off : Nat) (w : Word) : State :=
  s.regAccess { port := port, page := p, off := off, data := some w }

/-- Accesses that waited are served in their order as far as their pages let them. (DESIGN CHOICE, log entry 25) -/
def State.serveHeld : List HeldReg → State → State
  | [], s => s
  | x :: xs, s => serveHeld xs (s.regAccess x)

/-- The end of every step: answers of the hall are taken and accesses that no longer wait are served. -/
def State.finish (s : State) : State :=
  let s := s.settle
  if s.heldRegs.isEmpty then s else (State.serveHeld s.heldRegs { s with heldRegs := [] }).settle

end Sys2Proof.Machine
end

