-- ==== Sys2Proof/Machine/Vtl.lean ====
section
/-! DEFINITION. What a module receives (chapter 6): flits, their acknowledgement and credits (R229 to R243), protocol errors
(R271), requests and messages (R239, R244 to R260), and the timers of a link (R234, R237, R273 to R277). -/

namespace Sys2Proof.Machine

/-! ### Protocol errors -/

/-- A protocol error of a code, with the opcode, slot and SEQ that PROTO_LAST records for the first one (R271). (DEDUCED, log entry 66) -/
def State.protoError (s : State) (m code opc slot seq : Nat) : State :=
  let p := modPage m
  let first := !(s.rd p 0x020).getLsbD Err.MOD_PROTO_ERR
  let w := code + opc % 256 * 2 ^ 8 + slot % 16 * 2 ^ 16 + seq % 4096 * 2 ^ 20
  let s := if first then s.wr p F.MOD_PROTO_LAST_CODE.off (BitVec.ofNat 32 w) else s
  (s.raise p Err.MOD_PROTO_ERR (detVal w m) first).moduleReset m

/-! ### Data slots -/

/-- An opcode of the twin link (Table 14-2). -/
def twinOpcode (op : Nat) : Bool :=
  op == opM_APPLY || op == opM_FWD || op == opM_COPY || op == opM_ACK || op == opM_REFUSE || op == opM_BEAT || op == opM_JOIN || op == opM_LEAVE

/-- A request of Table 6-4. -/
def fabricRequest (op : Nat) : Bool := decide (opRD ≤ op ∧ op ≤ opTALLY)

/-- The atomic of a KSPEC returns data (Table 4-5). -/
def kspecReturns (k : Nat) : Bool := bits k 4 3 != 0 || bit k 10

/-- Data slots of a header received by this die; `org` is the slot after it, an origin slot in M_APPLY, M_FWD and M_COPY
(Table 14-2, Table 14-3). -/
def State.msgSlots (s : State) (h : BitVec 128) (org : Nat) : Nat :=
  let op := hOpc h
  let k := bits org 0 4
  if op = opM_APPLY then
    1 + (if k = mkLINE then 4
         else if k = mkATOM then (if bits org 22 1 = s.dieNo ∧ kspecReturns (bits org 96 32) then 8 else 4)
         else if k = mkCONFIG then 1 else 0)
  else if op = opM_FWD then 1 + (if k = mkLINE ∨ k = mkATOM then 4 else if k = mkCONFIG then 1 else 0)
  else if op = opM_COPY then 1 + (if k = mkCOPY_LINE then 4 else 1)
  else dataSlots h

/-- A message of a header and the bytes that follow it, cut to its slots. -/
def State.mkMsg (s : State) (h : BitVec 128) (data : List Byte) : Msg := ⟨h, padTo (16 * s.msgSlots h (leNat (data.take 16))) data⟩

/-! ### The receive buffer (R239 to R244) -/

/-- The opcode may arrive on a module: Table 6-4 from the fabric, Table 14-2 from the peer. -/
def State.opcodeFits (s : State) (m op : Nat) : Bool :=
  fabricRequest op || op == opCRED_INIT || (if s.isTwin m then twinOpcode op else op == opSRD_RSP || op == opEVT)

/-- What the receive buffer advertises on each VC (Table 6-9). -/
def rxDepth (pool : Nat) : Nat := if pool = 0 then 48 else if pool = 1 then 32 else if pool = 2 then 16 else 256

def Link.inUse (l : Link) (vc pool : Nat) : Nat := (find l.used (vc * 4 + pool)).getD 0
def Link.use (l : Link) (vc pool n : Nat) : Link :=
  if n = 0 then l else { l with used := put l.used (vc * 4 + pool) (l.inUse vc pool + n) }

/-- A message enters the receive buffer, or breaks a rule with a code of Table 6-12. -/
def State.rxAdmit (s : State) (m : Nat) (msg : Msg) : Except Nat State :=
  let l := s.link m
  let op := hOpc msg.hdr
  let tag := hTag msg.hdr
  let vc := hVc msg.hdr
  let k := opClass op
  let n := msg.data.length / 16
  if fabricRequest op && l.tags.contains tag then .error 3
  else if rxDepth k ≤ l.inUse vc k ∨ rxDepth 3 < l.inUse vc 3 + n then .error 4
  else if op = opSRD_RSP ∧ !(l.srds.any (·.tag == tag)) ∧ !(l.quarantined.contains tag) then .error 5
  else
    let l := (l.use vc k 1).use vc 3 n
    .ok (s.setLink m { l with rx := l.rx ++ [⟨msg, false⟩], tags := if fabricRequest op then l.tags ++ [tag] else l.tags
                              gotWr := l.gotWr + 16 * n, bktWr := if s.metered m then l.bktWr - 16 * n else l.bktWr })

/-- A CRED_INIT is received; the twin link's eighth sends M_JOIN (R242, R623). -/
def State.credInitTake (s : State) (m : Nat) (h : BitVec 128) : Bool × State :=
  let r := s.credInit m h
  (r.1, if r.1 && s.isTwin m && r.2.modUp m then r.2.sendJoin else r.2)

/-- The slots of an accepted PAYLOAD flit, in order from `slot`; `fuel` bounds them (R230). -/
def State.rxSlots (m seq : Nat) : Nat → Nat → List Byte → State → State
  | 0, _, _, s => s
  | fuel + 1, slot, bs, s =>
    if 15 ≤ slot then s
    else
      let h := BitVec.ofNat 128 (leNat (bs.take 16))
      let op := hOpc h
      let rest := bs.drop 16
      let n := s.msgSlots h (leNat (rest.take 16))
      if op = opNOP then State.rxSlots m seq fuel (slot + 1) rest s
      else if !s.opcodeFits m op then s.protoError m 1 op slot seq
      else if 15 < slot + 1 + n then s.protoError m 2 op slot seq
      else if op = opCRED_INIT then
        let r := s.credInitTake m h
        if r.1 then State.rxSlots m seq fuel (slot + 1) rest r.2 else s.protoError m 6 op slot seq
      else if !s.modUp m then s.protoError m 6 op slot seq
      else match s.rxAdmit m ⟨h, rest.take (16 * n)⟩ with
        | .error code => s.protoError m code op slot seq
        | .ok s => State.rxSlots m seq fuel (slot + 1 + n) (rest.drop (16 * n)) s

/-! ### Acknowledgement and replay (R234 to R237) -/

/-- The link goes down (R276). (DEDUCED, log entry 71) -/
def State.linkDown (s : State) (m : Nat) : State :=
  if s.modState m = 0 ∨ s.modState m = 4 then s
  else (s.raise (modPage m) Err.MOD_LINK_DOWN).moduleReset m

/-- A UCIe retrain is asked for; the third within one second takes the link down (R237). -/
def State.askRetrain (s : State) (m : Nat) : State :=
  let recent := (s.link m).retrains.filter fun t => s.ticks < t + 1000000
  let s := (s.count (modPage m) F.MOD_RETRAINS).raise (modPage m) Err.MOD_RETRAIN
  let s := s.modLink m fun l => { l with retrains := recent ++ [s.ticks], retraining := true, replays := 0 }
  if 2 ≤ recent.length then s.linkDown m else s

/-- Buffered flits are to be sent again, from the oldest: one more replay since the last progress. -/
def State.replayAll (s : State) (m : Nat) : State :=
  let l := s.link m
  if l.replay.isEmpty then s
  else ((s.setLink m { l with resend := l.replay.map (·.seq), replays := l.replays + 1 }).count (modPage m) F.MOD_REPLAYS).raise (modPage m) Err.MOD_REPLAY

/-- A replay, or, after four in a row without progress, a retrain (R237). -/
def State.replayOr (s : State) (m : Nat) : State := if (s.link m).replays < 4 then s.replayAll m else s.askRetrain m

/-- What the acceptance of a flit's messages means: a line of a stream is accepted (R253), the tag of a response is free
(R244). -/
def State.flitAccepted (s : State) (m : Nat) (f : TxFlit) : State :=
  foldS (fun k s => match k with
    | .swr q n b => s.swrAccepted q n b
    | .rsp tag => s.modLink m fun l => { l with tags := l.tags.erase tag }
    | _ => s) f.kinds s

/-- The ACK or NAK of a flit with a good CRC. (DEDUCED, log entry 59) -/
def State.takeAck (s : State) (m a : Nat) (nak : Bool) : State :=
  let l := s.link m
  match l.replay.findIdx? (·.seq == a) with
  | some i =>
    let done := l.replay.take (i + 1)
    let s := s.setLink m { l with replay := l.replay.drop (i + 1), resend := l.resend.filter fun q => !done.any (·.seq == q)
                                  ackAt := s.ticks, replays := 0 }
    let s := foldS (fun f s => s.flitAccepted m f) done s
    if nak then s.replayAll m else s
  | none =>
    if !nak then s
    else if l.replay.head?.any fun f => a == (f.seq + 4095) % 4096 then s.replayOr m
    else s.count (modPage m) F.MOD_CRC_ERR_COUNT

/-- A credit return is applied; one of a stalled VC's blocking pool restarts its timer (R240, R273). (DEDUCED, log entry 67) -/
def State.credBack (s : State) (m : Nat) (c : Nat × Nat × Nat) : State :=
  if c.2.2 = 0 then s
  else
    let f := credFld c.1 c.2.1
    let l := s.link m
    let s := if stallPool s m c.1 l.tx 0 = some c.2.1 ∧ (find l.stallAt c.1).isSome then s.setLink m { l with stallAt := put l.stallAt c.1 s.ticks } else s
    (s.set (modPage m) f (min (s.get (modPage m) f + c.2.2) (2 ^ f.w - 1))).updStall m

/-- A flit that R234 discards and that is no duplicate. (DEDUCED, log entry 58) -/
def State.flitBad (s : State) (m : Nat) : State :=
  let s := (s.count (modPage m) F.MOD_CRC_ERR_COUNT).raise (modPage m) Err.MOD_CRC_ERR
  s.modLink m fun l => if l.awaiting then l else { l with nakOwed := true, awaiting := true }

/-- FLIT_RECEIVE: the 256 bytes of a flit reach module m (R229 to R242). -/
def State.flitReceive (s : State) (m : Nat) (raw : List Byte) : State :=
  let t := parseTrailer (leAt raw 240 12)
  if s.modState m ≠ 2 ∧ s.modState m ≠ 3 then s
  else if crc32 (raw.take 252) ≠ leAt raw 252 4 then s.flitBad m
  else if 2 ≤ t.kind ∨ t.ackKind = 3 then
    let f := s.free
    f.2.protoError m 7 f.1 15 t.seq
  else
    let s := if s.isTwin m then s.modTwin fun w => { w with beatAt := s.ticks } else s
    let s := if t.ackKind = 0 then s else s.takeAck m t.ack (t.ackKind == 2)
    if t.kind = 1 then s
    else
      let l := s.link m
      if t.seq ≠ l.expSeq then
        (if (l.expSeq + 4095 - t.seq) % 4096 < 64 then s else s.flitBad m)
      else
        let s := (s.setLink m { l with expSeq := (l.expSeq + 1) % 4096, awaiting := false }).countW (modPage m) F.MOD_FLITS_RX
        let s := foldS (fun c s => s.credBack m c) t.creds s
        State.rxSlots m t.seq 15 0 (raw.take 240) s

/-! ### Taking a message from the buffer -/

/-- The message at the front of its VC and class in module m's buffer is taken and acted on; one that is not there yet
enters first, and stays there behind any other of its VC and class. `wait` keeps it in the buffer. (DESIGN CHOICE, log entry 70) -/
def State.takeMsg (s : State) (m : Nat) (msg : Msg) (wait : State → Bool) (run : State → State) : State :=
  if !s.modUp m then s
  else
    let mine (x : RxMsg) : Bool := hVc x.msg.hdr == hVc msg.hdr && opClass (hOpc x.msg.hdr) == opClass (hOpc msg.hdr)
    match (if (s.link m).rx.any (·.msg == msg) then Except.ok s else s.rxAdmit m msg) with
    | .error code => s.protoError m code (hOpc msg.hdr) 15 (s.link m).expSeq
    | .ok s =>
      match takeFirst mine (s.link m).rx with
      | none => s
      | some (x, rest) =>
        if x.msg ≠ msg ∨ wait s then s else run (s.modLink m fun l => { l with rx := rest })

/-! ### Requests (R10, R118, R239, R248, R260, R262) -/

/-- An encoding of a request that its chapter leaves undefined. -/
def undefinedReq (h : BitVec 128) : Bool :=
  (hOpc h == opTALLY && decide (8 ≤ hb h 40 4)) ||
  (hOpc h == opATOM && ((Atop.ofCode (hb h 100 3)).isNone || (Rnd.ofCode (hb h 103 2)).isNone))

/-- The first check that a request fails: STATUS and DETAIL. (DEDUCED, log entry 61) -/
def State.reqCheck (s : State) (m : Nat) (h : BitVec 128) : Option (Nat × Nat) :=
  if s.isTwin m then some (5, dtNotPermitted)
  else if reservedOf h then some (10, dtReserved)
  else if undefinedReq h then some (10, dtUndefined)
  else if hVc h ≠ s.vcMap m (hSc h) then some (10, dtBadVc)
  else if !s.authorised m (hCtx h) then some (5, dtNotAuth)
  else if !s.assigned (hCtx h) ∨ s.twinState = twFENCED ∨ s.twinState = twTGT then some (5, dtNotValid)
  else none

/-- The DPA that a REG_RD or REG_WR names. -/
def regDpa (h : BitVec 128) : Nat := 0x21000000 + hCtx h * 0x10000 + hAddr h % 0x10000

/-- A register request that has passed the checks of every request (R11, R88, R118). (DEDUCED, log entry 74) -/
def State.regRequest (s : State) (m : Nat) (msg : Msg) : State :=
  let h := msg.hdr
  let off := hAddr h % 0x1000
  let s := s.giveBack m msg
  match tenantPage (hCtx h) (hAddr h / 0x1000 % 16) with
  | none => (s.raise pgMMAP Err.MMAP_RESERVED_DPA (detMem (regDpa h) 0 0 0 0) true).respond m h 10 dtRegister 0 0 []
  | some p =>
    if hLen h ≠ 4 ∨ off % 4 ≠ 0 then (s.raise p Err.BAD_ACCESS).respond m h 10 dtRegister 0 0 []
    else s.regAccess { port := .module (Fin.ofNat 16 m), page := p, off := off
                       data := if hOpc h = opREG_WR then some (BitVec.ofNat 32 (hXf h)) else none, hdr := h }

/-- A request leaves the receive buffer. -/
def State.request (s : State) (m : Nat) (msg : Msg) : State :=
  let h := msg.hdr
  let op := hOpc h
  match s.reqCheck m h with
  | some (st, d) =>
    let s := if st = 10 ∧ d ≠ dtBadVc then s.logRec (modPage m) 0x1F (detReq m (hTag h) op (hCtx h) st d (hAddr h)) false false else s
    let s := if st = 5 ∧ (d = dtNotAuth ∨ d = dtNotPermitted) ∧ (op = opREG_RD ∨ op = opREG_WR) then
        (match tenantPage (hCtx h) (hAddr h / 0x1000 % 16) with
         | some p => s.raise p Err.ACCESS_DENIED
         | none => s)
      else s
    (s.giveBack m msg).respond m h st d 0 0 []
  | none =>
    let s := s.traceEv 1 m (hCtx h) (op + hTag h * 2 ^ 8 + hSc h * 2 ^ 17 + (hLen h - 1) * 2 ^ 20 + bits (hAddr h) 0 24 * 2 ^ 26)
    if op = opREG_RD ∨ op = opREG_WR then s.regRequest m msg
    else if op = opTALLY then
      (s.giveBack m msg).tallyOp ⟨.module m (hTag h), hCtx h, hb h 40 4, hb h 48 13, hb h 64 24, hXf h, hSc h, h, 0⟩
    else s.beginErrand m msg (s.keyOf (hCtx h))

/-- A request row: the request of an opcode, held while its page is halted (R756). -/
def State.requestRow (s : State) (m : Nat) (h : BitVec 128) (data : List Byte) (fits : Bool) : State :=
  if !fits then s else s.takeMsg m (s.mkMsg h data) (fun s => s.modHeld m) (fun s => s.request m (s.mkMsg h data))

/-! ### Responses and events of the fabric -/

/-- SRD_RSP (R254, R275). (DEDUCED, log entry 64) -/
def State.srdRsp (s : State) (m : Nat) (msg : Msg) : State :=
  let h := msg.hdr
  let l := s.link m
  let s := s.giveBack m msg
  match takeFirst (fun (r : Srd) => r.tag == hTag h) l.srds with
  | some (r, rest) =>
    let err := hStatus h != 0 && hStatus h != 3
    let s := s.modLink m fun l => { l with srds := rest }
    let s := if err then s.logRec (modPage m) 0x1F (detReq m (hTag h) opSRD_RSP (hCtx h) (hStatus h) 0 0) false false else s
    s.srdDone r msg.data (if hStatus h = 3 then hPoison h else 0) err
  | none => if l.quarantined.contains (hTag h) then s.count (modPage m) F.MOD_LATE_RSP else s

/-- An incoming EVT is not refused (R259, R260). -/
def State.evtFits (s : State) (m : Nat) (msg : Msg) : Bool :=
  s.authorised m (hCtx msg.hdr) && s.assigned (hCtx msg.hdr) && s.evOn && s.evCtx == hCtx msg.hdr && !evtReserved msg

/-- EVT (R259, R556). -/
def State.evtTake (s : State) (m : Nat) (msg : Msg) : State :=
  let s := s.giveBack m msg
  if s.evtFits m msg then s.modCrier (m / 2) fun x => { x with intake := x.intake ++ evtKeys msg }
  else (s.count (modPage m) F.MOD_EVT_REFUSED).raise (modPage m) Err.MOD_EVT_REFUSED
    (detReq m 0 opEVT (hCtx msg.hdr) 0 0 (evtKeys msg).length) true

def State.srdRow (s : State) (m : Nat) (h : BitVec 128) (data : List Byte) : State :=
  if hOpc h ≠ opSRD_RSP ∨ s.isTwin m then s
  else s.takeMsg m (s.mkMsg h data) (fun _ => false) (fun s => s.srdRsp m (s.mkMsg h data))

def State.evtRow (s : State) (m : Nat) (h : BitVec 128) (data : List Byte) : State :=
  let msg := s.mkMsg h data
  if hOpc h ≠ opEVT ∨ s.isTwin m then s
  else s.takeMsg m msg (fun s => s.modHeld m || (s.evtFits m msg && !s.intakeRoom (m / 2) (evtKeys msg).length)) (fun s => s.evtTake m msg)

/-- A message of the peer on M15. -/
def State.twinRow (s : State) (h : BitVec 128) (data : List Byte) (op : Nat) (run : State → Msg → State) : State :=
  let msg := s.mkMsg h data
  if hOpc h ≠ op ∨ !s.isTwin 15 then s
  else s.takeMsg 15 msg (fun _ => false) (fun s => run (s.giveBack 15 msg) msg)

/-- CRED_INIT on its own. -/
def State.credInitRow (s : State) (m : Nat) (h : BitVec 128) : State :=
  if hOpc h ≠ opCRED_INIT ∨ (s.modState m ≠ 2 ∧ s.modState m ≠ 3) then s
  else
    let r := s.credInitTake m h
    if r.1 then r.2 else s.protoError m 6 opCRED_INIT 15 (s.link m).expSeq

/-! ### Timers of a link -/

/-- NAK_RESEND: the expected SEQ has not arrived after REPLAY_TIMER (R234). -/
def State.nakResend (s : State) (m : Nat) : State := s.modLink m fun l => if l.awaiting then { l with nakOwed := true } else l

/-- REPLAY_TIMER: 4,096 flit periods in whole ticks, by the link's rate, without ACK progress (R237). (DEDUCED, log entry 60) -/
def State.replayTimer (s : State) (m : Nat) : State :=
  let l := s.link m
  let d := if s.get (modPage m) F.MOD_MOD_STATUS_RATE = 0 then 4 else 2
  if (s.modState m ≠ 2 ∧ s.modState m ≠ 3) ∨ l.replay.isEmpty ∨ l.retraining ∨ s.ticks < l.ackAt + d then s
  else (s.modLink m fun l => { l with ackAt := s.ticks }).replayOr m

/-- LINK_RETRAIN_DONE (R237, R276). -/
def State.retrainDone (s : State) (m lanes : Nat) (ok : Bool) : State :=
  let l := s.link m
  if !l.retraining then s
  else if !ok then s.linkDown m
  else
    let p := modPage m
    let s := ((s.setLink m { l with retraining := false, ackAt := s.ticks }).replayAll m).set p F.MOD_MOD_STATUS_REPAIRED_LANES lanes
    if lanes = 0 then s else s.raise p Err.MOD_LANE_REPAIRED

/-- LINK_UP: training ends, with 64 lanes or without (R276, R277). (DEDUCED, log entry 72; DEDUCED, log entry 129) -/
def State.linkUp (s : State) (m rate lanes : Nat) (formed : Bool) : State :=
  if s.modState m ≠ 1 then s
  else if formed then s.linkTrained m rate lanes
  else (s.set (modPage m) F.MOD_MOD_STATUS_STATE 0).raise (modPage m) Err.MOD_TRAIN_FAIL

/-- Ticks for which a VC has been stalled. -/
def State.stalledFor (s : State) (m vc : Nat) : Option Nat := (find (s.link m).stallAt vc).map fun t => s.ticks - t

/-- STALL_WARN (R273). -/
def State.stallWarn (s : State) (m vc : Nat) : State :=
  let p := modPage m
  let w := s.get p F.MOD_STALL_STATE_WARNED
  if (s.stalledFor m vc).any (fun n => max 1 (s.get p F.MOD_STALL_CTRL_STALL_WARN) ≤ n) && !w.testBit vc then
    (s.set p F.MOD_STALL_STATE_WARNED (w ||| 2 ^ vc)).raise p Err.MOD_PORT_STALL
  else s

/-- ABANDON (R274), once the tick in which it expires is over (R268). (DEDUCED, log entry 68) -/
def State.stallAbandon (s : State) (m vc : Nat) : State :=
  let n := s.get (modPage m) F.MOD_STALL_CTRL_ABANDON
  if n ≠ 0 ∧ !s.isTwin m ∧ (s.stalledFor m vc).any (fun t => decide (n < t)) then (s.abandonOn m vc).updStall m else s

/-- RSP_TIMEOUT of the SRD with a tag (R275). -/
def State.rspTimeout (s : State) (m tag : Nat) : State :=
  let l := s.link m
  match takeFirst (fun (r : Srd) => r.tag == tag && r.deadline.any fun d => decide (d ≤ s.ticks)) l.srds with
  | none => s
  | some (r, rest) =>
    let p := modPage m
    let s := s.setLink m { l with srds := rest, quarantined := l.quarantined ++ [tag] }
    let s := s.raise p Err.MOD_RSP_TIMEOUT (detReq m tag opSRD_RSP (s.qCtx r.queue) 10 0 0) true
    s.srdDone r [] 0 true

end Sys2Proof.Machine
end

