-- ==== Sys2Proof/Machine/Steward.lean ====
section
/-! DEFINITION. The steward port: frames, answers, queued operations (R630 to R637, R652, R656, R659, R661), and what register,
tally and memory operations do by DPA (R11, R88, R633, R638). -/

namespace Sys2Proof.Machine

/-! ### Frames (Tables 15-2 to 15-4) -/

/-- The CRC-16 of a frame's bytes (R631). -/
def crc16 (bs : List Byte) : Nat := crc16Go 0x1021 0xFFFF bs

/-- A body with its CRC. -/
def withCrc (bs : List Byte) : List Byte := bs ++ leBytes 2 (crc16 bs)

/-- A defined CMD. -/
def stwCmd (c : Nat) : Bool := decide (1 ≤ c ∧ c ≤ 6) || c == 0x0D || c == 0x0E

/-- RCMD of the answer to a frame. -/
def rcmdOf (fr : List Byte) : Nat := match fr.head? with
  | some b => if stwCmd b.toNat then 0x80 + b.toNat else 0xFF
  | none => 0xFF

/-- SEQ of the answer to a frame. -/
def seqOf (fr : List Byte) : Nat := if fr.length < 2 then 0 else byteAt fr 1

/-- LEN + 1 of a memory command, and the bytes that a request of its CMD has. -/
def frLen (fr : List Byte) : Nat := bits (byteAt fr 8) 0 6 + 1
def frameBytes (fr : List Byte) : Nat :=
  match byteAt fr 0 with
  | 0x02 => 10
  | 0x03 => 14
  | 0x04 => 12
  | 0x05 => 13 + frLen fr
  | 0x06 => if bits (leAt fr 11 4) 4 3 = 2 then 81 else 17 + frLen fr
  | _ => 4

def psDONE : Nat := 0
def psQUEUED : Nat := 1
def psFULL : Nat := 2
def psCRC_ERR : Nat := 3
def psBAD_FRAME : Nat := 4
def psEMPTY : Nat := 5
def psNOT_READY : Nat := 6

/-- The response frame of Table 15-3. -/
def respFrame (rcmd seq pstat handle st detail poison : Nat) (data : List Byte) : List Byte :=
  withCrc ([BitVec.ofNat 8 rcmd, BitVec.ofNat 8 seq, BitVec.ofNat 8 (pstat + handle * 16), BitVec.ofNat 8 st, BitVec.ofNat 8 detail,
            BitVec.ofNat 8 poison] ++ data)

/-- A response goes out and is the last one. (DESIGN CHOICE, log entry 161) -/
def State.stwReply (s : State) (f : List Byte) : State := { s with stw := { s.stw with last := some f, out := f } }

/-- The answer to a frame that carries no result. -/
def State.stwStatus (s : State) (fr : List Byte) (pstat detail : Nat) : State :=
  s.stwReply (respFrame (rcmdOf fr) (seqOf fr) pstat 0 0 detail 0 [])

/-- A bad frame is counted and answered (R659). -/
def State.stwBad (s : State) (fr : List Byte) (crc : Bool) : State :=
  ((s.count pgSTW F.STW_PORT_ERRORS).raise pgSTW (if crc then Err.STW_PORT_CRC else Err.STW_PORT_FRAME)).stwStatus fr (if crc then psCRC_ERR else psBAD_FRAME) 0

/-! ### Register and tally operations by DPA -/

/-- A register or tally-window access of the steward port under a handle. -/
def State.portReg (s : State) (h a : Nat) (data : Option Word) : State :=
  let refuse (s : State) : State := s.portDone h 10 dtRegister 0 []
  match region a with
  | .page p off =>
    if a % 4 ≠ 0 then refuse (s.raise p Err.BAD_ACCESS)
    else s.regAccess { port := .steward, page := p, off := off, data := data, handle := some h }
  | .tally =>
    let t := (a - 0x10000000) / 16
    if a % 4 ≠ 0 then refuse s
    else match data with
      | none => s.portDone h 0 0 0 (leBytes 4 (s.tallyWord t (a % 16 / 4)).toNat)
      | some w =>
        if a % 16 ≠ 8 then s.portDone h 0 0 0 []
        else s.opWord t w (some h)
  | .reserved => refuse (s.flagTarget a .reserved)
  | _ => refuse s

/-! ### Memory operations by DPA -/

/-- The account of a steward memory operation. -/
def stwAcc (sc : Nat) : Acc := ⟨8, sc, 0, 0⟩
def stwOrg (sc : Nat) : MirOrg := ⟨3, 0, 0, sc, 0⟩

/-- One line of a memory operation: its target and DPA, first byte, length and position. -/
structure MemLine where
  t : Tgt
  dpa : Nat
  off : Nat
  n : Nat
  pos : Nat
  deriving DecidableEq, Repr

/-- The lines of n bytes at a DPA, or the first address that is refused. -/
def State.memLines (s : State) : List (Nat × Nat × Nat × Nat) → Except (Nat × TgtErr) (List MemLine)
  | [] => .ok []
  | x :: xs =>
    match s.target x.1, State.memLines s xs with
    | .error e, _ => .error (x.1, e)
    | _, .error e => .error e
    | .ok t, .ok ls => .ok (⟨t, x.1, x.2.1, x.2.2.1, x.2.2.2⟩ :: ls)

/-- Read the lines of a memory operation in order. -/
def State.portRead (sc : Nat) : List MemLine → State → (Status × List PByte) × State
  | [], s => ((.ok, []), s)
  | l :: ls, s =>
    let r := s.tgtRead l.t (stwAcc sc) l.n
    let q := State.portRead sc ls r.2
    (((r.1.status l.off l.n).worst q.1.1, r.1.slice l.off l.n ++ q.1.2), q.2)

/-- Write the lines of a memory operation; the last one answers, at once or when both dies have written it. -/
def State.portWrite (h sc pois : Nat) (data : List Byte) : List MemLine → Status → State → State
  | [], st, s => s.portDone h st.code 0 0 []
  | l :: ls, st, s =>
    let w := s.memWrite l.dpa l.t (enables l.off l.n) (atOffset l.off ((data.drop l.pos).take l.n)) (wrPoison pois l.off l.n l.pos) (stwAcc sc) l.n
      (stwOrg sc) fun o => if ls.isEmpty then .port h (st.worst o.status).code [] 0 0 false else .nobody
    match w.1 with
    | some o => State.portWrite h sc pois data ls (st.worst o.status) w.2
    | none => if ls.isEmpty then w.2 else State.portWrite h sc pois data ls st w.2

/-- MEM_ATOM on its line (R147, R633). -/
def State.portAtom (s : State) (h sc ctx kspec n : Nat) (data : List Byte) (ls : List MemLine) : State :=
  match ls, ls.head? with
  | [_], some l =>
    match mkAtom kspec (s.keyOf ctx) l.off n data with
    | none => (s.raise ⟨.BNK, l.t.gallery⟩ Err.BNK_ATOMIC_ERROR).portDone h 10 dtAtomic 0 []
    | some a =>
      let r := s.memAtomic l.dpa l.t a l.off n (stwAcc sc) (stwOrg sc) fun o => .port h o.st o.bytes l.off n a.returns
      match r.1 with
      | .refused => r.2.portDone h 10 dtAtomic 0 []
      | .done o => r.2.portDone h o.st 0 (unitMask 8 o.bytes) (if a.returns then o.bytes.map (·.1) else [])
      | .later => r.2
  | _, some l => (s.raise ⟨.BNK, l.t.gallery⟩ Err.BNK_ATOMIC_ERROR).portDone h 10 dtAtomic 0 []
  | _, _ => s.portDone h 10 dtAtomic 0 []

/-- A region that memory commands reach (R633). -/
def isMemory (a : Nat) : Bool := match region a with
  | .sram | .hbm _ _ | .aliasHbm _ => true
  | _ => false

/-- Reserved fields and encodings of an operation (R10): the DETAIL of its ERROR. (DEDUCED, log entry 134) -/
def StwOp.badField : StwOp → Option Nat
  | .regRead _ | .regWrite _ _ => none
  | .memRead _ len sc | .memWrite _ len sc _ _ => if len ≥ 64 ∨ sc ≥ 8 then some dtReserved else none
  | .memAtom _ len sc ctx k _ =>
    if len ≥ 64 ∨ sc ≥ 8 ∨ ctx ≥ 16 ∨ bits k 11 5 ≠ 0 then some dtReserved
    else if (Atop.ofCode (bits k 4 3)).isNone ∨ (Rnd.ofCode (bits k 7 2)).isNone then some dtUndefined else none

/-- The fields of a memory operation: address, bytes, class. -/
def StwOp.mem : StwOp → Option (Nat × Nat × Nat)
  | .memRead a len sc => some (a, len + 1, sc)
  | .memWrite a len sc _ _ => some (a, len + 1, sc)
  | .memAtom a len sc _ _ _ => some (a, len + 1, sc)
  | _ => none

/-- A memory line may be accessed now (R122, R709). (DEDUCED, log entry 135) -/
def State.portOpen (s : State) (l : MemLine) : Bool :=
  s.stwOpen l.t && !(match l.t with | .sram _ _ => s.phase == 2 && !s.flag pgBOOT F.BOOT_BOOT_STATUS_STOPPED | _ => false)

/-- Perform a memory operation; none while its lines are held. -/
def State.portMem (s : State) (h : Nat) (op : StwOp) (a n sc : Nat) : Option State :=
  let ls := linesOf a n
  if s.isFatal then let f := s.free; some (f.2.portDone h 10 (f.1 % 256) 0 [])
  else match ls.find? fun x => !isMemory x.1 with
  | some x => some ((if region x.1 = .reserved then s.flagTarget x.1 .reserved else s).portDone h 10 dtRegister 0 [])
  | none => match s.memLines ls with
    | .error (d, e) => some ((s.flagTarget d e).portDone h 10 dtTarget 0 [])
    | .ok ls =>
      if !ls.all s.portOpen then none
      else some (match op with
        | .memRead _ _ _ =>
          let r := s.portRead sc ls
          let st := r.1.1
          r.2.portDone h st.code 0 (unitMask 8 r.1.2) (if st.hasData then r.1.2.map (·.1) else [])
        | .memWrite _ _ _ pois data =>
          let mir (l : MemLine) : Bool := (s.mirRegion l.dpa).isSome
          s.portWrite h sc pois data (ls.filter (fun l => !mir l) ++ ls.filter mir) .ok
        | .memAtom _ _ _ ctx k data => s.portAtom h sc ctx k n data ls
        | _ => s)

/-! ### The operation queue -/

/-- Two operations take effect in arrival order: on one page or tally slot, or on a common line in one class (R636). (DEDUCED, log entry 133) -/
def StwOp.clash (x y : StwOp) : Bool :=
  let reg : StwOp → Option Nat
    | .regRead a => some a
    | .regWrite a _ => some a
    | _ => none
  match reg x, reg y, x.mem, y.mem with
  | some a, some b, _, _ => if region a = .tally then a / 16 == b / 16 else a / 4096 == b / 4096
  | _, _, some (a, n, c), some (b, m, d) => c == d && decide (a / 64 ≤ (b + m - 1) / 64 ∧ b / 64 ≤ (a + n - 1) / 64)
  | _, _, _, _ => false

/-- The operation that holds a handle is performed if nothing ahead of it or on its lines holds it back. -/
def State.portPerform (s : State) (h : Nat) : State :=
  match s.stw.queue.find? (·.handle == h) with
  | none => s
  | some q => match q.op with
    | none => s
    | some op =>
      let ahead := s.stw.queue.takeWhile (·.handle != h)
      if ahead.any fun x => x.op.any fun y => y.clash op then s
      else
        let t : State := { s with stw := { s.stw with queue := s.stw.queue.map fun x => if x.handle == h then { x with op := none } else x } }
        match op.badField with
        | some d => (t.logRec pgSTW 0x1F (detVal q.cmd 0) false false).portDone h 10 d 0 []
        | none => match op with
          | .regRead a => t.portReg h a none
          | .regWrite a w => t.portReg h a (some (BitVec.ofNat 32 w))
          | _ => match op.mem with
            | some (a, n, sc) => (t.portMem h op a n sc).getD s
            | none => t

/-- The frame of a finished operation, and the state with its handle free (R635). -/
def State.portFetch (s : State) (q : StwQueued) (fetched : Bool) : State :=
  match q.res with
  | none => s
  | some r =>
    let data := if r.data.isEmpty then [] else padTo (max q.pad r.data.length) r.data
    let s : State := { s with stw := { s.stw with done := s.stw.done.filter (·.handle != q.handle) } }
    s.stwReply (respFrame (0x80 + q.cmd) q.seq psDONE (if fetched then q.handle else 0) r.status r.detail r.poison data)

/-- Handles in use. -/
def State.handles (s : State) : Nat := (s.stw.queue ++ s.stw.done).foldl (fun n q => n ||| 2 ^ q.handle) 0

/-- An operation arrives: it takes the lowest free handle and is performed, and is answered DONE if it is complete within 48
periods, else QUEUED. `slow` says that 48 periods pass first. (DESIGN CHOICE, log entry 132) -/
def State.portOp (s : State) (cmd seq pad : Nat) (op : StwOp) (slow : Bool) : State :=
  match lowestClear 4 s.handles with
  | none => s.stwReply (respFrame (0x80 + cmd) seq psFULL 0 0 0 0 [])
  | some h =>
    let s : State := { s with stw := { s.stw with queue := s.stw.queue ++ [{ handle := h, cmd := cmd, seq := seq, op := some op, res := none, pad := pad }] } }
    let s := if slow then s else s.portPerform h
    match s.stw.done.find? (·.handle == h) with
    | some q => s.portFetch q false
    | none => s.stwReply (respFrame (0x80 + cmd) seq psQUEUED h 0 0 0 [])

/-- The operation that a frame asks for, and the length of its returned data. -/
def frameOp (fr : List Byte) : Option (StwOp × Nat) :=
  let a := leAt fr 2 6
  let len := byteAt fr 8
  let sc := byteAt fr 9
  match byteAt fr 0 with
  | 0x02 => some (.regRead a, 0)
  | 0x03 => some (.regWrite a (leAt fr 8 4), 0)
  | 0x04 => some (.memRead a len sc, 0)
  | 0x05 => some (.memWrite a len sc (byteAt fr 10) ((fr.drop 11).take (frLen fr)), 0)
  | 0x06 =>
    let k := leAt fr 11 4
    let c := bits k 4 3 == 2
    some (.memAtom a len sc (byteAt fr 10) k ((fr.drop 15).take (if c then 64 else frLen fr)), if c then 32 else 0)
  | _ => none

/-- PING data (R634). -/
def State.pingData (s : State) : List Byte :=
  leBytes 4 (s.rd pgSTW 0x100).toNat ++
    [BitVec.ofNat 8 s.phase, BitVec.ofNat 8 (s.stw.queue.length + s.stw.done.length),
     BitVec.ofNat 8 (b2n s.alertN + 2 * b2n s.outs.fatalN + 4 * b2n (s.flag pgDBG F.DBG_DBG_STATUS_UNLOCKED)), 0]

/-- The port takes frames: from the end of P1, never in test mode (R82, R83, R661, R701). -/
def State.portAnswers (s : State) : Bool := s.outs.stwCk && !s.straps.testMode && s.phase != 0

/-- A request frame of a row's CMD, or one that is bad in any way, reaches the port. A good frame of another CMD is another
row's. (DEDUCED, log entry 130; DEDUCED, log entry 131) -/
def State.stwFrame (s : State) (cmd : Nat) (fr : List Byte) (slow : Bool) : State :=
  if !s.portAnswers ∨ s.stw.long.isSome then s
  else if 96 ≤ fr.length then { s with stw := { s.stw with long := some (byteAt fr 0, byteAt fr 1) } }
  else if fr.length < 4 then s.stwBad fr false
  else if crc16 (fr.take (fr.length - 2)) ≠ leAt fr (fr.length - 2) 2 then s.stwBad fr true
  else if !stwCmd (byteAt fr 0) ∨ fr.length ≠ frameBytes fr then s.stwBad fr false
  else if byteAt fr 0 ≠ cmd then s
  else if s.phase = 1 ∧ cmd ≠ 1 then s.stwStatus fr psNOT_READY 0
  else if cmd = 0x01 then s.stwReply (respFrame 0x81 (seqOf fr) psDONE 0 0 0 0 s.pingData)
  else if cmd = 0x0D then
    match s.stw.last with
    | some f => { s with stw := { s.stw with out := f } }
    | none => { s with stw := { s.stw with out := respFrame 0x8D (seqOf fr) psEMPTY 0 0 s.stw.queue.length 0 [] } }
  else if cmd = 0x0E then
    match s.stw.done.head? with
    | some q => s.portFetch q true
    | none => s.stwStatus fr psEMPTY s.stw.queue.length
  else match frameOp fr with
    | some (op, pad) => s.portOp cmd (seqOf fr) pad op slow
    | none => s

/-- STW_FRM low for 2 periods: a frame that was too long is answered BAD_FRAME and the port is in step (R659). -/
def State.frmLow (s : State) : State :=
  match s.stw.long with
  | none => s
  | some (c, q) => ({ s with stw := { s.stw with long := none } }).stwBad [BitVec.ofNat 8 c, BitVec.ofNat 8 q] false

end Sys2Proof.Machine
end

