-- ==== Sys2Proof/Machine/Records.lean ====
section
/-! DEFINITION. Records on their way to their rings: fault queues (R733 to R736, R747) and the error log (R642, R655, R660). -/

namespace Sys2Proof.Machine

/-- A record's write at a DPA: its status where it is complete, none where it waits for the other die. (DEDUCED, log entry 136) -/
def State.recordWrite (s : State) (dpa sc : Nat) (bytes : List Byte) (t : Tgt) (c : Option Nat) : Option Nat × State :=
  let o := dpa % 64
  let n := bytes.length
  let w := s.memWrite dpa t (enables o n) (atOffset o bytes) 0 (stwAcc sc) n (stwOrg sc) fun _ => .record c
  (w.1.map (·.status.code), w.2)

/-- FAULT_RECORD_WRITE: the oldest buffered record of a context goes to its ring. -/
def State.faultWrite (s : State) (c : Nat) : State :=
  let p := tfqPage c
  let fb := s.faultBuf c
  let head := s.get p F.TFQ_FQ_HEAD
  let size := 2 ^ s.get p F.TFQ_FQ_CTRL_LOG2
  if !s.flag p F.TFQ_FQ_CTRL_EN ∨ fb.writing ∨ (head + 2 ^ 32 - s.get p F.TFQ_FQ_TAIL) % 2 ^ 32 = size then s
  else match fb.buf with
    | [] => s
    | r :: _ =>
      let dpa := fb.dpaBase + 64 * (head % size)
      match s.target dpa with
      | .error e => (s.flagTarget dpa e).faultWritten c 10
      | .ok t =>
        if !s.stwOpen t then s
        else
          let w := s.recordWrite dpa (s.get p F.TFQ_FQ_CTRL_CLASS) r.bytes t (some c)
          match w.1 with
          | some st => w.2.faultWritten c st
          | none => w.2.setFaultBuf c { w.2.faultBuf c with writing := true }

/-- The 32 bytes of an error log record (Table 15-7). -/
def LogRec.bytes (r : LogRec) : List Byte :=
  leBytes 32 (r.stamp + r.btype * 2 ^ 64 + r.inst * 2 ^ 80 +
    (r.index + b2n r.injected * 2 ^ 5 + b2n r.fatal * 2 ^ 6 + b2n r.lostBefore * 2 ^ 7) * 2 ^ 88 + r.seq * 2 ^ 96 + r.dkind * 2 ^ 128 + r.det * 2 ^ 136)

/-- ELOG_WRITE: the oldest buffered record goes to the ring at ELOG_BASE. -/
def State.elogWrite (s : State) : State :=
  let p := pgSTW
  let head := s.get p F.STW_ELOG_HEAD
  let size := 2 ^ s.get p F.STW_ELOG_CTRL_LOG2
  if !s.flag p F.STW_ELOG_CTRL_EN ∨ s.elog.writing ∨ (head + 2 ^ 32 - s.get p F.STW_ELOG_TAIL) % 2 ^ 32 = size then s
  else match s.elog.buf with
    | [] => s
    | r :: _ =>
      let base := s.get p F.STW_ELOG_BASE_LO_A * 2 ^ 5 + s.get p F.STW_ELOG_BASE_HI_A * 2 ^ 32
      let dpa := base + 32 * (head % size)
      match s.target dpa with
      | .error e => (s.flagTarget dpa e).logWritten 10
      | .ok t =>
        if !s.stwOpen t then s
        else
          let w := s.recordWrite dpa (s.get p F.STW_ELOG_CTRL_CLASS) r.bytes t none
          match w.1 with
          | some st => w.2.logWritten st
          | none => { w.2 with elog := { w.2.elog with writing := true } }

end Sys2Proof.Machine
end

