-- ==== Sys2Proof/Machine/Tap.lean ====
section
/-! DEFINITION. The TAP (R646 to R650, R653, R658, R778): its instructions, the debug read path, the trace and the instruments. -/

namespace Sys2Proof.Machine

/-- The code of BYPASS, which every undefined code and every refused instruction acts as (R647). -/
def tapBYPASS : Nat := 0xFF
/-- The identity of the die (R647). -/
def tapIDCODE : Nat := 0x200969CB

/-- A defined instruction code of Table 15-8. -/
def tapCode (c : Nat) : Bool := [0xFF, 0x01, 0x02, 0x00, 0x03, 0x04, 0x10, 0x11, 0x20].contains c

def State.modTap (s : State) (f : Tap → Tap) : State := { s with tap := f s.tap }
def State.unlocked (s : State) : Bool := s.flag pgDBG F.DBG_DBG_STATUS_UNLOCKED

/-- The instruction acts as BYPASS: the 1-bit register captures 0. -/
def State.tapBypass (s : State) : State := s.modTap fun t => { t with ir := tapBYPASS, dr := 0 }

/-- An instruction that requires the unlock; without it, it acts as BYPASS and sets TAP_REFUSED. (DEDUCED, log entry 139) -/
def State.tapNeeds (s : State) (f : State → State) : State :=
  if s.unlocked then f s else s.tapBypass.set pgDBG F.DBG_DBG_STATUS_TAP_REFUSED 1

/-- An instruction that requires SCAN_EN as well; without it, it acts as BYPASS. -/
def State.tapScan (s : State) (f : State → State) : State :=
  s.tapNeeds fun s => if s.flag pgDBG F.DBG_DBG_CTRL_SCAN_EN then f s else s.tapBypass

/-- SAMPLE/PRELOAD: the boundary scan register captures the bumps, and Update-DR loads its update stage. (DESIGN CHOICE, log entry 140) -/
def State.tapSample (s : State) (pins scan : Nat) : State := s.modTap fun t => { t with ir := 0x02, dr := pins, scan := scan }
/-- EXTEST: the update stage drives the scanned bumps. -/
def State.tapExtest (s : State) (pins scan : Nat) : State := s.tapScan fun s => s.modTap fun t => { t with ir := 0x00, dr := pins, scan := scan }
/-- CLAMP and HIGHZ: the scanned outputs are held at the update stage, or released; the 1-bit register is selected. -/
def State.tapHold (s : State) (code : Nat) : State := s.tapScan fun s => s.modTap fun t => { t with ir := code, dr := 0 }

/-- What Capture-DR loads under DBG_ACCESS (R648). -/
def Tap.capture (t : Tap) : Nat := b2n t.done + t.status * 2 + t.poison * 2 ^ 8 + t.dpa * 2 ^ 16 + t.data * 2 ^ 64

/-- Update-DR under DBG_ACCESS starts a read, unless one is in progress (R648). -/
def State.dbgAccess (s : State) (dpa : Nat) (line : Bool) : State :=
  s.tapNeeds fun s => s.modTap fun t =>
    let t := if t.busy.isSome then { t with ir := 0x10 } else { t with ir := 0x10, busy := some (dpa, line), done := false, dpa := dpa }
    { t with dr := t.capture }

/-- A debug read is over. -/
def State.dbgDone (s : State) (st pois data : Nat) : State :=
  s.modTap fun t =>
    let t := { t with busy := none, done := true, status := st, poison := pois, data := data }
    if t.ir = 0x10 then { t with dr := t.capture } else t

/-- DBG_READ_DONE: the read in progress completes, without effect on the device (R646). A register whose page holds
accesses keeps it waiting (R124). (DEDUCED, log entry 141) -/
def State.dbgReadDone (s : State) : State :=
  match s.tap.busy with
  | none => s
  | some (a, line) =>
    let bad := s.dbgDone 10 0 0
    if line then
      if a % 64 ≠ 0 ∨ !isMemory a then bad
      else match s.target a with
        | .error _ => bad
        | .ok t =>
          let r := s.tgtPeek t
          s.dbgDone (r.status 0 64).code r.poisonMask (leNat r.bytes)
    else match region a with
      | .page p off =>
        if a % 4 ≠ 0 then bad
        else if s.regHeld .tap p off none then s
        else
          let r := s.readReg .tap p off
          r.2.dbgDone 0 0 r.1.toNat
      | .tally => if a % 4 ≠ 0 then bad else s.dbgDone 0 0 (s.tallyWord ((a - 0x10000000) / 16) (a % 16 / 4)).toNat
      | _ => bad

/-- TRACE_READ: the entry at the TAP's index, which then increments (R649). -/
def State.traceRead (s : State) : State :=
  s.tapNeeds fun s =>
    let i := (s.portRd .tap pgDBG 0x138).toNat % 4096
    let e := s.trcEntry i
    (s.trcAdvance .tap).modTap fun t => { t with ir := 0x11, dr := e }

/-- The instruments of Table 15-9: segment 0 to 7 a gallery, 8 the central block. Within a gallery: 0 the sensor, 1 the turn
period, 2 the tinker, 3 the stair links, 4 + b and 68 + b the counts of bank b, from 132 the spare map by bank and slot. In the
central block: 0 the centre sensor, 1 to 8 the PHY sensors, 9 to 11 the deviations, 12 the VCORE request and read-back; the
oscillator's own count is not state of its own, so it is a free value. -/
def State.instrument (s : State) (seg k : Nat) : Nat × State :=
  if seg < 8 then
    (if k = 0 then s.get pgPRS (F.PRS_SENSOR_TEMP.at seg)
     else if k = 1 then s.get pgTBS (F.TBS_TURN_PERIOD_PERIOD.at seg)
     else if k = 2 then s.tnkStatus seg
     else if k = 3 then (s.rd (gswPage seg) 0x104).toNat
     else if k < 68 then s.get ⟨.BNK, seg⟩ (F.BNK_CE_COUNT.at (k - 4))
     else if k < 132 then s.get ⟨.BNK, seg⟩ (F.BNK_UE_COUNT.at (k - 68))
     else match find s.spares ((64 * seg + (k - 132) / 24) * 24 + (k - 132) % 24) with
       | some e => e.line + b2n e.valid * 2 ^ 12 + b2n e.factory * 2 ^ 13 + b2n e.failed * 2 ^ 14
       | none => 0, s)
  else if k = 0 then (s.get pgPRS (F.PRS_SENSOR_TEMP.at 16), s)
  else if k < 9 then (s.get pgPRS (F.PRS_SENSOR_TEMP.at (7 + k)), s)
  else if k = 9 then (s.get pgTBS F.TBS_DEV_AB_PPM, s)
  else if k = 10 then (s.get pgTBS F.TBS_DEV_AO_PPM, s)
  else if k = 11 then (s.get pgTBS F.TBS_DEV_BO_PPM, s)
  else if k = 12 then ((s.rd pgPRS 0x120).toNat, s)
  else s.free

/-- IJTAG: an instrument of the network is read (R650). -/
def State.ijtag (s : State) (seg k : Nat) : State :=
  s.tapNeeds fun s =>
    let r := s.instrument seg k
    r.2.modTap fun t => { t with ir := 0x20, dr := r.1 }

/-- TRST_N low: test-logic reset, IDCODE selected (R647, R778). -/
def State.tapReset (s : State) : State := s.modTap fun _ => { dr := tapIDCODE }

end Sys2Proof.Machine
end

