-- ==== Sys2Proof/Machine/Faults.lean ====
section
/-! DEFINITION. Errors that arise of themselves: parity and storage errors (R81, R126, R127, R172, R402, R403, R444, R445, R494 to
R496, R529, R579, R622, R660, R695, R748) and faults of the switch, the stair and the central block (R40, R219). -/

namespace Sys2Proof.Machine

/-- A register's page and offset by DPA, if its page is implemented. -/
def regAt (dpa : Nat) : Option (Page × Nat) := match region dpa with
  | .page p off => some (p, alignDown off 4)
  | _ => none

/-- A register with a field that R127 guards. -/
def guarded (p : Page) (off : Nat) : Bool := match findReg p.kind off with
  | some d => !d.wide && d.fields.any fun f => f.attr == .rwL || f.attr == .rwS || f.attr == .rwH
  | none => false

/-- A counter fails its parity (R127): it is forced to its maximum, and a CNT-S counter has overflowed. -/
def State.counterParity (s : State) (p : Page) (off : Nat) : State :=
  match findReg p.kind off with
  | none => s
  | some d =>
    if d.wide then
      let lo := if (off - d.off) % (max d.stride 8) = 4 then off - 4 else off
      ((s.wr p lo 0xFFFFFFFF#32).wr p (lo + 4) 0xFFFFFFFF#32).raise p Err.REG_PARITY
    else
      let m := d.maskOf .cntS
      if m = 0 then s
      else ((s.wr p off (s.rd p off ||| BitVec.ofNat 32 m)).raise p Err.REG_PARITY).raise p Err.CNT_OVERFLOW

/-- An uncorrectable tally record: BROKEN, logged, and every waiter is refused (R494). -/
def State.tallyBroken (s : State) (p : Nat) : State :=
  let ws := s.hall.waiters.filter (·.phys == p)
  let s := (s.setTally p { s.tally p with broken := true }).raise pgTHL Err.THL_TALLY_UE (detTally 0 0 p 0 0 0 0 (s.tally p).val) true
  let s := s.modHall fun h => { h with waiters := h.waiters.filter (·.phys != p) }
  (foldS (fun w s => s.tallyRefuse w.req p) ws s).hallSettle

/-- An uncorrectable holder record: an orphan of an unknown holder, with nothing added back (R495). (DEDUCED, log entry 112) -/
def State.holderBroken (s : State) (i : Nat) : State :=
  match s.hall.holders[i]? with
  | none => s
  | some h =>
    let s := (s.modHall fun x => { x with holders := eraseAt i x.holders }).setTally h.phys { s.tally h.phys with orph := true }
    let s := (s.count pgTHL F.THL_ORPHANS).count (ttvPage h.ctx) F.TTV_ORPHANS
    (s.raise pgTHL Err.THL_LOCK_ORPHANED (detTally h.ctx 0 h.phys 0xFF 0xFF 0 0 0) true).hallSettle

/-- A prefetched command fails its parity: it and every later one is fetched again (R444). -/
def State.prefetchBroken (s : State) (r : Nat) : State := if (s.ring r).fetched.isEmpty then s else s.refetch r

/-- An entry of a context's fault buffer fails its parity (R748). -/
def State.faultBroken (s : State) (c i : Nat) : State :=
  let fb := s.faultBuf c
  if fb.buf.length ≤ i then s
  else (s.setFaultBuf c { fb with buf := eraseAt i fb.buf, lost := true, writing := fb.writing && i != 0 }).count (tfqPage c) F.TFQ_FQ_LOST

/-- PARITY_ERROR. (DEDUCED, log entry 154) -/
def State.parityError (s : State) (x : ParityAt) : State :=
  match x with
  | .field a => match regAt a.toNat with
    | some (p, off) => if guarded p off then s.fatal p Err.REG_PARITY (detVal off 0) else s
    | none => s
  | .counter a => match regAt a.toNat with
    | some (p, off) => s.counterParity p off
    | none => s
  | .timeCounter => (s.raise pgTBS Err.TBS_TIME_PARITY).set pgTBS F.TBS_TIME_STATUS_UNSET 1
  | .xltCache g k w =>
    let x := s.xl g
    let ls := (find x.cache k).getD []
    if ls.length ≤ w.val then s
    else
      let rest := eraseAt w ls
      (s.setXl g { x with cache := if rest.isEmpty then del x.cache k else put x.cache k rest }).raise pgMMAP Err.MMAP_XLT_CACHE_PARITY
  | .spareMap g => s.fatal (tnkPage g) Err.REG_PARITY
  | .errandState g => s.fatal (erpPage g) Err.ERP_ERRAND_PARITY
  | .combinerData g i k => s.modPath g fun p => { p with combs := modAt (fun c => { c with bad := c.bad ||| 2 ^ k.val }) i p.combs }
  | .resumeRecord q =>
    if (s.queue q).rr.isNone then s
    else (s.modQueue q fun x => { x with rrBad := true }).raise (qPage q) Err.REG_PARITY
  | .prefetched r => s.prefetchBroken r
  | .scoreboard g => s.fatal (fmnPage g) Err.FMN_SB_PARITY
  | .tally p corrected => if corrected then s.count pgTHL F.THL_CE_COUNT else s.tallyBroken p
  | .holder i => s.holderBroken i
  | .hall => s.fatal pgTHL Err.THL_WAITER_UE
  | .checkUnit g => s.chkFault g
  | .table g t i =>
    let k := tblKey t g i
    if tblSize t ≤ i.val ∨ s.liveEnt t g i = 0 then s
    else (s.modEvent fun e => { e with live := putEnt e.live k 0 }).raise (cryPage g) Err.CRY_TABLE_PARITY (detVal t i) true
  | .stepEngine g => s.fatal (cryPage g) Err.CRY_TABLE_PARITY
  | .twin => s.fatal pgTWN Err.REG_PARITY
  | .contextTable => s.fatal pgSTW Err.REG_PARITY (detVal 0 0)
  | .portQueue => s.fatal pgSTW Err.REG_PARITY (detVal 1 0)
  | .traceControl => (s.raise pgSTW Err.REG_PARITY (detVal 2 0)).set pgDBG F.DBG_TRC_CTRL_EN 0
  | .purser => s.purserParity
  | .faultBuffer c i => s.faultBroken c i

/-- SWITCH_FAULT: a fault inside a switch, an arbiter's grant logic, a stair node or the central block (R40). (DEDUCED, log entry 34) -/
def State.switchFault (s : State) (u : UnitAt) : State :=
  match u with
  | .switch g => s.fatalPlain (gswPage g) (detVal 0 0)
  | .stairNode g => s.fatalPlain (gswPage g) (detVal 1 0)
  | .arbiter g => s.fatalPlain (arbPage g) (detVal 2 0)
  | .central k => match centralPage k with
    | some p => s.fatalPlain p (detVal 3 0)
    | none => s

/-! ### A bank's port (R132 to R144) -/

/-- What a bank's port answers. (DESIGN CHOICE, log entry 160) -/
def State.bankAnswer (s : State) (b st mask : Nat) (data : List Byte) : State := { s with bankRsp := put s.bankRsp b ⟨st, mask, data⟩ }

/-- A read of a line by the bank. -/
def State.bankReadRow (s : State) (b l : Nat) : State :=
  let r := s.bankRead b l
  r.2.bankAnswer b (r.1.status 0 64).code r.1.poisonMask r.1.bytes

/-- A write of enabled bytes of a line by the bank; the answer's mask counts units from the first enabled byte (R144). -/
def State.bankWriteRow (s : State) (b l en pois : Nat) (data : List Byte) : State :=
  let r := s.bankWrite b l en data pois
  let o := ((List.range 64).find? en.testBit).getD 0
  r.2.bankAnswer b r.1.status.code (unitMask 8 (((r.1.marks 0 64).zipIdx.map fun x => (x.1.1, x.1.2 && en.testBit x.2)).drop o)) []

/-- Some granule of a mask of byte enables is enabled in 1 to 7 bytes. -/
def partialGranule (en : Nat) : Bool := (List.range 8).any fun j => bits en (8 * j) 8 != 0 && bits en (8 * j) 8 != 0xFF

end Sys2Proof.Machine
end

