-- ==== Sys2Proof/Machine/RowBase.lean ====
section
/-! DEFINITION. What the rows of the opcode table share: a write or a read of a register by a port that may make it, and
the rows whose effect is put together from the operations of more than one chapter. -/

namespace Sys2Proof.Machine

/-- The page exists (Tables 19-1 to 19-3). -/
def pageValid (p : Page) : Bool := decide (p.inst < p.kind.instances)

/-- An event of a page that exists. -/
def State.onPage (s : State) (p : Page) (f : State → State) : State := if pageValid p then f s else s

/-- The steward port serves register and memory commands (R82, R634): its clock runs, P1 is over, no test mode. -/
def State.stwServes (s : State) : Bool := s.portAnswers && decide (1 < s.phase)

/-- Requests of a context are denied to a module (R118, R619, R626). -/
def State.fabricDenied (s : State) (m c : Nat) : Bool :=
  !s.authorised m c || !s.assigned c || s.twinState == twFENCED || s.twinState == twTGT

/-- Requests of a fabric module reach the interior: it is UP, is not the twin link, and its page is not halted (R756). (DEDUCED, log entry 12) -/
def State.fabricServes (s : State) (m : Nat) : Bool := s.modUp m && !s.isTwin m && !s.modHeld m

/-- A port may write a page now: the TAP never writes (R646), a module only tenant pages (R118). -/
def State.portMay (s : State) (port : Port) (p : Page) : Bool :=
  match port with
  | .steward => s.stwServes
  | .tap => false
  | .module m => s.fabricServes m && p.kind.tenant && !s.fabricDenied m p.inst

/-- A port may read a page now: the TAP only unlocked (R645). -/
def State.portReads (s : State) (port : Port) (p : Page) : Bool :=
  match port with
  | .tap => s.unlocked
  | _ => s.portMay port p

/-- The write of a word to a register, by a port that may write its page. (DESIGN CHOICE, log entry 11) -/
def State.regRow (s : State) (port : Port) (p : Page) (off : Nat) (w : Word) : State :=
  if pageValid p && s.portMay port p then s.pageWrite port p off w else s

/-- The read of a register, by a port that may read its page; the word is kept as the port's last one. -/
def State.readRow (s : State) (port : Port) (p : Page) (off : Nat) : State :=
  if pageValid p && s.portReads port p then s.regAccess { port := port, page := p, off := off, data := none } else s

/-- The read of the LO half of a 64-bit counter (R44, R115). -/
def State.snapRow (s : State) (port : Port) (dpa : Nat) : State :=
  match region dpa with
  | .page p off => if dpa % 4 = 0 ∧ wideHalf p.kind off = some true then s.readRow port p off else s
  | _ => s

/-- A word of the tally window is written: the OP word of a slot is an operation, the others take no write (R486, R501). -/
def State.tallyRow (s : State) (a : Nat) (w : Word) : State :=
  let t := (a - 0x10000000) / 16
  if a % 16 ≠ 8 then s
  else s.opWord t w

/-- A write to a DPA: misaligned, to nothing, denied, to the tally window, or to a register. -/
def State.writeRow (s : State) (port : Port) (a : Nat) (w : Word) : State :=
  match region a, port with
  | .page p off, .module m =>
    if !(s.fabricServes m && p.kind.tenant) then s
    else if s.fabricDenied m p.inst then (if s.authorised m p.inst then s else s.raise p Err.ACCESS_DENIED)
    else if a % 4 ≠ 0 then s.raise p Err.BAD_ACCESS
    else s.regRow port p off w
  | .page p off, .steward =>
    if !s.stwServes then s
    else if a % 4 ≠ 0 then s.raise p Err.BAD_ACCESS
    else s.regRow port p off w
  | .tally, .steward => if !s.stwServes || a % 4 != 0 then s else s.tallyRow a w
  | .reserved, .steward => if s.stwServes then s.flagTarget a .reserved else s
  | _, _ => s

/-- SET by the tally window (R486, R488). -/
def State.setRow (s : State) (p n : Nat) : State := if s.stwServes then s.stewardOp 5 p n else s

/-- The words that the named writes of a register keep: PAGE_CTRL's READ_LIVE, and MOD_CTRL and HC_CTRL without the bits
that start something. -/
def State.ctrlWord (s : State) (p : Page) : Word := wordOf (4 * s.get p F.PAGE_CTRL_READ_LIVE)
def State.modWord (s : State) (m : Nat) : Word := s.rd (modPage m) 0x100 &&& ~~~0x10#32
def State.hcWord (s : State) (g : Nat) : Word := s.rd (hcPage g) 0x100 &&& ~~~0x300#32

/-- One waiter of a walk goes on with its result. -/
def walkWaiter (g : Nat) (k : Walk) (r : WalkRes) (w : XWait) (s : State) : State :=
  match w with
  | .errand id => s.errandWalked g id k.stale r
  | .queue q _ _ => s.queueWalked q k.page r
  | .ring _ | .steward _ => s

/-- A running walk of a gallery ends, and every waiter goes on with its result (R102, R107, R379). -/
def State.walkRow (s : State) (g k : Nat) : State :=
  let r := s.endWalk g k
  match r.1 with
  | none => r.2
  | some (res, k) => foldS (walkWaiter g k res) k.waiters r.2

/-- Byte enables of a mask of granules. -/
def granEnables (en : Nat) : Nat := (List.range 8).foldl (fun n j => if en.testBit j then n + 0xFF * 2 ^ (8 * j) else n) 0

/-- The operation code of a TALLY and of an ATOM, and whether a header is a TALLY of a code. -/
def tallyTop (h : BitVec 128) : Nat := hb h 40 4
def atomOp (h : BitVec 128) : Nat := hb h 100 3
def isTally (h : BitVec 128) (top : Nat) : Bool := hOpc h == opTALLY && tallyTop h == top

end Sys2Proof.Machine
end

