-- ==== Sys2Proof/Machine/RowsBoot.lean ====
section
/-! DEFINITION. Rows of reset and start-up (chapter 17). One meaning for each row; every step ends with `State.finish`. -/

namespace Sys2Proof.Machine

/-- PWR_OK_FALL (R718). The die is held in cold reset; nothing drains. -/
def execPwrOkFall (s : State) : Host.Outcome State Fault Refusal :=
  .next ((s.coldBase).finish)

/-- RESET_RELEASE (R703). P0 of the cold reset begins with the straps sampled; only while held. -/
def execResetRelease (x : Straps) (s : State) : Host.Outcome State Fault Refusal :=
  .next ((s.resetRelease x).finish)

/-- WARM_RESET (R704). A drain begins, or a cold reset where the spec turns it into one (R705, R742). -/
def execWarmReset (s : State) : Host.Outcome State Fault Refusal :=
  .next ((s.warmReset).finish)

/-- WARM_DRAIN_DONE (R704). P0 of the warm reset begins; `late` says 100 µs have passed with work left (R725). -/
def execWarmDrainDone (late : Bool) (s : State) : Host.Outcome State Fault Refusal :=
  .next ((s.drainDone late).finish)

/-- FATAL_WARM_TIMER (R706). The drain of a warm reset begins if FATAL_WARM asks for it and 1 ms has passed. -/
def execFatalWarmTimer (s : State) : Host.Outcome State Fault Refusal :=
  .next ((s.fatalWarm).finish)

/-- P0_END (R707). `us` is the phase's time, `fails` the mixers that disagreed, eight for each gallery, `fuseErr` a fuse error (R723). -/
def execP0End (us : Nat) (fails : BitVec 64) (fuseErr : Bool) (s : State) : Host.Outcome State Fault Refusal :=
  .next ((s.p0End us fails.toNat fuseErr).finish)

/-- P1_END (R82). Which references are present, whether they agree, and what the purser reads of VCORE. -/
def execP1End (us : Nat) (a b agree : Bool) (v cur : AvsRead) (s : State) : Host.Outcome State Fault Refusal :=
  .next ((s.p1End us a b agree v cur).finish)

/-- P2_END (R709). Slots that failed the march by bank and slot, and four stair and spoke failures for each gallery (R159, R174). -/
def execP2End (fails : List (Nat × Nat)) (stair : BitVec 32) (s : State) : Host.Outcome State Fault Refusal :=
  .next ((s.p2End fails stair.toNat).finish)

/-- P3_END (R277). P4 begins when every enabled module is UP or 5 ms have passed. -/
def execP3End (s : State) : Host.Outcome State Fault Refusal :=
  .next ((s.p3End).finish)

/-- P4_END (R314). P5 begins when every stack is UP or FAILED, with HBM_ALIAS_SIZE formed (R93). -/
def execP4End (s : State) : Host.Outcome State Fault Refusal :=
  .next ((s.p4End).finish)

/-- READY (R714). The write of BOOT_CMD.READY; only in P5 (R176). -/
def execBootReady (s : State) : Host.Outcome State Fault Refusal :=
  .next ((s.regRow .steward pgBOOT 0x104 1).finish)

end Sys2Proof.Machine
end

