-- ==== Sys2Proof/Machine/RowsEvent.lean ====
section
/-! DEFINITION. Rows of mixers, event mode, twin mode (chapters 12 to 14). One meaning for each row; every step ends with `State.finish`. -/

namespace Sys2Proof.Machine

/-- KEY_APPLY (R507). The write, mirrored (R602). -/
def execKeyApply (port : Port) (c : Fin 16) (s : State) : Host.Outcome State Fault Refusal :=
  .next ((s.regRow port (tmkPage c) 0x110 1).finish)

/-- START (R519). The write of CHK_CTRL. -/
def execChkStart (g : Fin 8) (s : State) : Host.Outcome State Fault Refusal :=
  .next ((s.regRow .steward (mixPage g) 0x128 1).finish)

/-- CHECK_DONE (R519). Only while a computation runs. -/
def execCheckDone (g : Fin 8) (s : State) : Host.Outcome State Fault Refusal :=
  .next ((s.chkDone g).finish)

/-- RETURN (R528). The write of MIX_CTRL: the mixers to return. -/
def execMixReturn (g : Fin 8) (mask : BitVec 8) (s : State) : Host.Outcome State Fault Refusal :=
  .next ((s.regRow .steward (mixPage g) 0x100 (wordOf mask.toNat)).finish)

/-- MIXER_COMPARE_DONE (R528). The mixers whose block agreed. -/
def execMixerCompareDone (g : Fin 8) (agree : BitVec 8) (s : State) : Host.Outcome State Fault Refusal :=
  .next ((s.compareDone g agree.toNat).finish)

/-- STEP_DUE (R553). Only in REAL mode at or past the due tick. -/
def execStepDue (s : State) : Host.Outcome State Fault Refusal :=
  .next ((s.stepDue).finish)

/-- STEP_OPEN (R550). Only when the next step may open (R553, R554). -/
def execStepOpen (s : State) : Host.Outcome State Fault Refusal :=
  .next ((s.stepOpen).finish)

/-- EVALUATE (R537). Only in the crier's EVALUATE phase (R538). -/
def execCrierEvaluate (g : Fin 8) (s : State) : Host.Outcome State Fault Refusal :=
  .next ((s.evaluate g).finish)

/-- DRAIN (R550). Only once every crier has evaluated (R563, R564). -/
def execCrierDrain (g : Fin 8) (s : State) : Host.Outcome State Fault Refusal :=
  .next ((s.drain g).finish)

/-- STEP_ARRIVE (R551). Only once the crier has drained. -/
def execStepArrive (g : Fin 8) (s : State) : Host.Outcome State Fault Refusal :=
  .next ((s.stepArrive g).finish)

/-- EVENT_DELIVERY (R542). The oldest event on its way to the crier (R544, R545). -/
def execEventDelivery (g : Fin 8) (s : State) : Host.Outcome State Fault Refusal :=
  .next ((s.eventDelivery g).finish)

/-- RUN (R555). The write of STEP_CTRL with its other fields as they are. -/
def execStepRun (port : Port) (c : Fin 16) (on : Bool) (s : State) : Host.Outcome State Fault Refusal :=
  .next ((s.regRow port (tevPage c) 0x100 (wput (s.rd (tevPage c) 0x100) 0 1 (b2n on))).finish)

/-- COPY_LIVE (R566). The write of TEV_CMD. -/
def execCopyLive (port : Port) (c : Fin 16) (s : State) : Host.Outcome State Fault Refusal :=
  .next ((s.regRow port (tevPage c) 0x1A0 2).finish)

/-- COPY_LIVE_DONE (R566). Only while COPY_BUSY. -/
def execCopyLiveDone (s : State) : Host.Outcome State Fault Refusal :=
  .next ((s.copyLiveDone).finish)

/-- SWAP_CANCEL (R566). The write of TEV_CMD. -/
def execSwapCancel (port : Port) (c : Fin 16) (s : State) : Host.Outcome State Fault Refusal :=
  .next ((s.regRow port (tevPage c) 0x1A0 4).finish)

/-- TEV_CMD_SWAP (R566). The write of TEV_CMD. -/
def execTevCmdSwap (port : Port) (c : Fin 16) (s : State) : Host.Outcome State Fault Refusal :=
  .next ((s.regRow port (tevPage c) 0x1A0 1).finish)

/-- EVM_CTRL (R795). The write of EVM_CTRL (R583). -/
def execEvmCtrl (w : Word) (s : State) : Host.Outcome State Fault Refusal :=
  .next ((s.regRow .steward pgEVM 0x100 w).finish)

/-- M_APPLY (R592). From the peer on M15. -/
def execMApply (h : BitVec 128) (data : List Byte) (s : State) : Host.Outcome State Fault Refusal :=
  .next ((s.twinRow h data opM_APPLY (fun s msg => s.recvApply msg)).finish)

/-- M_FWD (R593). From the peer on M15. -/
def execMFwd (h : BitVec 128) (data : List Byte) (s : State) : Host.Outcome State Fault Refusal :=
  .next ((s.twinRow h data opM_FWD (fun s msg => s.recvFwd msg)).finish)

/-- M_COPY (R626). From the peer on M15. -/
def execMCopy (h : BitVec 128) (data : List Byte) (s : State) : Host.Outcome State Fault Refusal :=
  .next ((s.twinRow h data opM_COPY (fun s msg => s.recvCopy msg)).finish)

/-- M_ACK (R593). From the peer on M15. -/
def execMAck (h : BitVec 128) (s : State) : Host.Outcome State Fault Refusal :=
  .next ((s.twinRow h [] opM_ACK (fun s msg => s.recvAck msg.hdr)).finish)

/-- M_REFUSE (R598). From the peer on M15. -/
def execMRefuse (h : BitVec 128) (s : State) : Host.Outcome State Fault Refusal :=
  .next ((s.twinRow h [] opM_REFUSE (fun s msg => s.recvRefuse msg.hdr)).finish)

/-- M_BEAT (R617). From the peer on M15. -/
def execMBeat (h : BitVec 128) (s : State) : Host.Outcome State Fault Refusal :=
  .next ((s.twinRow h [] opM_BEAT (fun s msg => s.recvBeat msg.hdr)).finish)

/-- M_JOIN (R623). From the peer on M15. -/
def execMJoin (h : BitVec 128) (s : State) : Host.Outcome State Fault Refusal :=
  .next ((s.twinRow h [] opM_JOIN (fun s msg => s.recvJoin msg.hdr)).finish)

/-- M_LEAVE (R617). From the peer on M15. -/
def execMLeave (h : BitVec 128) (s : State) : Host.Outcome State Fault Refusal :=
  .next ((s.twinRow h [] opM_LEAVE (fun s msg => s.recvLeave msg.hdr)).finish)

/-- BEAT_TIMEOUT (R617). Only past the time (R610). -/
def execBeatTimeout (s : State) : Host.Outcome State Fault Refusal :=
  .next ((s.beatTimeout).finish)

/-- TWIN_RETRAIN (R618). Only without a peer and 10 ms after the last. -/
def execTwinRetrain (s : State) : Host.Outcome State Fault Refusal :=
  .next ((s.twinRetrain).finish)

/-- REJOIN (R624). The write of TWN_CMD. -/
def execTwinRejoin (s : State) : Host.Outcome State Fault Refusal :=
  .next ((s.regRow .steward pgTWN 0x104 1).finish)

/-- TAKE_OVER (R619). The write of TWN_CMD. -/
def execTakeOver (s : State) : Host.Outcome State Fault Refusal :=
  .next ((s.regRow .steward pgTWN 0x104 2).finish)

/-- RESILVER_COPY (R625). Within RESILVER_RATE (R626). -/
def execResilverCopy (s : State) : Host.Outcome State Fault Refusal :=
  .next ((s.resilverCopy).finish)

/-- RESILVER_DONE (R627). Only when every copy is there. -/
def execResilverDone (s : State) : Host.Outcome State Fault Refusal :=
  .next ((s.resilverDone).finish)

/-- REGION_ENABLE (R604). The write of MIR_SIZE_k, mirrored (R605). -/
def execRegionEnable (k : Fin 16) (w : Word) (s : State) : Host.Outcome State Fault Refusal :=
  .next ((s.regRow .steward pgTWN (0x144 + 8 * k.val) w).finish)

end Sys2Proof.Machine
end

