-- ==== Sys2Proof/Machine/RowsLink.lean ====
section
/-! DEFINITION. Rows of the fabric ports (chapter 6). One meaning for each row; every step ends with `State.finish`. -/

namespace Sys2Proof.Machine

/-- FLIT_RECEIVE (R234). The 256 bytes of the flit, byte 0 lowest. -/
def execFlitReceive (m : Fin 16) (raw : BitVec 2048) (s : State) : Host.Outcome State Fault Refusal :=
  .next ((s.flitReceive m (leBytes 256 raw.toNat)).finish)

/-- NAK_RESEND (R234). Only while PAYLOAD flits are discarded. -/
def execNakResend (m : Fin 16) (s : State) : Host.Outcome State Fault Refusal :=
  .next ((s.nakResend m).finish)

/-- REPLAY_TIMER (R237). Only with an unacknowledged flit and no progress for the timer's ticks. -/
def execReplayTimer (m : Fin 16) (s : State) : Host.Outcome State Fault Refusal :=
  .next ((s.replayTimer m).finish)

/-- LINK_DOWN (R276). A twin link also loses its peer (R617). -/
def execLinkDown (m : Fin 16) (s : State) : Host.Outcome State Fault Refusal :=
  .next ((s.linkDown m).finish)

/-- LINK_UP (R277). Training ends, with the lanes repaired, or not (`formed`, R276). -/
def execLinkUp (m : Fin 16) (rate : Fin 3) (lanes : BitVec 8) (formed : Bool) (s : State) : Host.Outcome State Fault Refusal :=
  .next ((s.linkUp m rate lanes.toNat formed).finish)

/-- CRED_INIT (R242). The header as received. -/
def execCredInit (m : Fin 16) (h : BitVec 128) (s : State) : Host.Outcome State Fault Refusal :=
  .next ((s.credInitRow m h).finish)

/-- NOP (R230). Ignored, whatever else its slot holds. -/
def execNopMsg (_m : Fin 16) (_h : BitVec 128) (s : State) : Host.Outcome State Fault Refusal :=
  .next s.finish

/-- RD (R250). A header of another opcode is another row's. -/
def execVtlRd (m : Fin 16) (h : BitVec 128) (data : List Byte) (s : State) : Host.Outcome State Fault Refusal :=
  .next ((s.requestRow m h data (hOpc h == opRD)).finish)

/-- WR (R251). A header of another opcode is another row's. -/
def execVtlWr (m : Fin 16) (h : BitVec 128) (data : List Byte) (s : State) : Host.Outcome State Fault Refusal :=
  .next ((s.requestRow m h data (hOpc h == opWR)).finish)

/-- REG_RD (R118). A header of another opcode is another row's. -/
def execVtlRegRd (m : Fin 16) (h : BitVec 128) (data : List Byte) (s : State) : Host.Outcome State Fault Refusal :=
  .next ((s.requestRow m h data (hOpc h == opREG_RD)).finish)

/-- REG_WR (R118). A header of another opcode is another row's. -/
def execVtlRegWr (m : Fin 16) (h : BitVec 128) (data : List Byte) (s : State) : Host.Outcome State Fault Refusal :=
  .next ((s.requestRow m h data (hOpc h == opREG_WR)).finish)

/-- SRD_RSP (R254). A header of another opcode is another row's. -/
def execSrdRsp (m : Fin 16) (h : BitVec 128) (data : List Byte) (s : State) : Host.Outcome State Fault Refusal :=
  .next ((s.srdRow m h data).finish)

/-- EVT (R556). A header of another opcode is another row's. -/
def execVtlEvt (m : Fin 16) (h : BitVec 128) (data : List Byte) (s : State) : Host.Outcome State Fault Refusal :=
  .next ((s.evtRow m h data).finish)

/-- STALL_WARN (R273). Only once the stall has lasted. -/
def execStallWarn (m : Fin 16) (vc : Fin 8) (s : State) : Host.Outcome State Fault Refusal :=
  .next ((s.stallWarn m vc).finish)

/-- ABANDON (R274). Only once the stall has lasted. -/
def execVcAbandon (m : Fin 16) (vc : Fin 8) (s : State) : Host.Outcome State Fault Refusal :=
  .next ((s.stallAbandon m vc).finish)

/-- RSP_TIMEOUT (R275). Only past the SRD's deadline. -/
def execRspTimeout (m : Fin 16) (tag : BitVec 9) (s : State) : Host.Outcome State Fault Refusal :=
  .next ((s.rspTimeout m tag.toNat).finish)

/-- MODULE_RESET (R279). The write of MOD_CTRL with RESET; its other fields as they are (R720). -/
def execModuleReset (m : Fin 16) (s : State) : Host.Outcome State Fault Refusal :=
  .next ((s.regRow .steward (modPage m) 0x100 (s.modWord m ||| 0x10)).finish)

/-- ENABLE (R279). The write of MOD_CTRL with ENABLE; its other fields as they are. -/
def execModEnable (m : Fin 16) (on : Bool) (s : State) : Host.Outcome State Fault Refusal :=
  .next ((s.regRow .steward (modPage m) 0x100 (wput (s.modWord m) 0 1 (b2n on))).finish)

/-- MODULE_RESET_DONE (R279). Only once nothing of the module remains (R759). -/
def execModuleResetDone (m : Fin 16) (s : State) : Host.Outcome State Fault Refusal :=
  .next ((s.linkResetDone m).finish)

/-- LINK_RETRAIN_DONE (R237). A retrain that fails takes the link down. -/
def execLinkRetrainDone (m : Fin 16) (lanes : BitVec 8) (ok : Bool) (s : State) : Host.Outcome State Fault Refusal :=
  .next ((s.retrainDone m lanes.toNat ok).finish)

end Sys2Proof.Machine
end

