-- ==== Sys2Proof/Machine/RowsMemory.lean ====
section
/-! DEFINITION. Rows of translation, banks, hall, tinker, stacks (chapters 3, 4, 7, 11). One meaning for each row; every step ends with `State.finish`. -/

namespace Sys2Proof.Machine

/-- XLT_WALK_DONE (R102). Running walk k of the gallery; every request that waited for it goes on (R102, R107, R379). -/
def execXltWalkDone (g : Fin 8) (k : Nat) (s : State) : Host.Outcome State Fault Refusal :=
  .next ((s.walkRow g k).finish)

/-- RANGE (R104). The write of XLT_INVAL_CTRL; the base and count are in their registers. -/
def execInvalRange (c : Fin 16) (s : State) : Host.Outcome State Fault Refusal :=
  .next ((s.regRow .steward pgMMAP 0x1C0 (wordOf c)).finish)

/-- CONTEXT (R104). The write of XLT_INVAL_CTRL. -/
def execInvalContext (c : Fin 16) (s : State) : Host.Outcome State Fault Refusal :=
  .next ((s.regRow .steward pgMMAP 0x1C0 (wordOf (c.val + 16))).finish)

/-- ALL (R104). The write of XLT_INVAL_CTRL. -/
def execInvalAll (c : Fin 16) (s : State) : Host.Outcome State Fault Refusal :=
  .next ((s.regRow .steward pgMMAP 0x1C0 (wordOf (c.val + 32))).finish)

/-- XLT_INVAL_DONE (R105). Only when nothing it covers remains. -/
def execXltInvalDone (s : State) : Host.Outcome State Fault Refusal :=
  .next ((s.xltInvalDone).finish)

/-- BANK_READ (R134). The answer goes to `bankRsp` of the bank (R134 to R139). -/
def execBankRead (b : Fin 512) (l : Fin 3072) (s : State) : Host.Outcome State Fault Refusal :=
  .next ((s.bankReadRow b l).finish)

/-- BANK_WRITE (R132). Granules enabled, granules to poison (R135), the line's bytes. -/
def execBankWrite (b : Fin 512) (l : Fin 3072) (en pois : BitVec 8) (data : BitVec 512) (s : State) : Host.Outcome State Fault Refusal :=
  .next ((s.bankWriteRow b l (granEnables en.toNat) pois.toNat (leBytes 64 data.toNat)).finish)

/-- READ_MODIFY_WRITE (R141). Byte enables, with some granule enabled in part (R141, R142). -/
def execReadModifyWrite (b : Fin 512) (l : Fin 3072) (en : BitVec 64) (pois : BitVec 8) (data : BitVec 512) (s : State) : Host.Outcome State Fault Refusal :=
  .next ((if partialGranule en.toNat then s.bankWriteRow b l en.toNat pois.toNat (leBytes 64 data.toNat) else s).finish)

/-- ECC_INJECT (R173). The write arms it. -/
def execEccInject (g : Fin 8) (w : Word) (s : State) : Host.Outcome State Fault Refusal :=
  .next ((s.regRow .steward ⟨.BNK, g⟩ 0x118 w).finish)

/-- ADD (R462). A fabric TALLY with TOP ADD, or with a TOP that no row names, which answers ERROR (R460). (DEDUCED, log entry 13) -/
def execTallyAdd (m : Fin 16) (h : BitVec 128) (data : List Byte) (s : State) : Host.Outcome State Fault Refusal :=
  .next ((s.requestRow m h data (hOpc h == opTALLY && (tallyTop h == 0 || tallyTop h == 5 || decide (8 ≤ tallyTop h)))).finish)

/-- SUB (R463). A fabric TALLY with TOP SUB. -/
def execTallySub (m : Fin 16) (h : BitVec 128) (data : List Byte) (s : State) : Host.Outcome State Fault Refusal :=
  .next ((s.requestRow m h data (isTally h 1)).finish)

/-- WAIT_GE (R464). A fabric TALLY with TOP WAIT_GE (R465, R466). -/
def execTallyWaitGe (m : Fin 16) (h : BitVec 128) (data : List Byte) (s : State) : Host.Outcome State Fault Refusal :=
  .next ((s.requestRow m h data (isTally h 2)).finish)

/-- WAIT_TAKE (R464). A fabric TALLY with TOP WAIT_TAKE (R465, R466). -/
def execTallyWaitTake (m : Fin 16) (h : BitVec 128) (data : List Byte) (s : State) : Host.Outcome State Fault Refusal :=
  .next ((s.requestRow m h data (isTally h 3)).finish)

/-- READ (R461). A fabric TALLY with TOP READ. -/
def execTallyRead (m : Fin 16) (h : BitVec 128) (data : List Byte) (s : State) : Host.Outcome State Fault Refusal :=
  .next ((s.requestRow m h data (isTally h 4)).finish)

/-- SET (R488). A write of the tally window with the OP word of SET (R486, R488). (DEDUCED, log entry 14) -/
def execTallySet (p : Fin 8192) (n : BitVec 24) (s : State) : Host.Outcome State Fault Refusal :=
  .next ((s.setRow p n.toNat).finish)

/-- ARRIVE (R469). A fabric TALLY with TOP ARRIVE (R469, R470). -/
def execTallyArrive (m : Fin 16) (h : BitVec 128) (data : List Byte) (s : State) : Host.Outcome State Fault Refusal :=
  .next ((s.requestRow m h data (isTally h 6)).finish)

/-- CLEAR_ORPHAN (R478). A fabric TALLY with TOP CLEAR_ORPHAN. -/
def execClearOrphan (m : Fin 16) (h : BitVec 128) (data : List Byte) (s : State) : Host.Outcome State Fault Refusal :=
  .next ((s.requestRow m h data (isTally h 7)).finish)

/-- WAIT_TIMEOUT (R466). Waiter record k in order of age; only past its deadline. -/
def execWaitTimeout (k : Fin 2048) (s : State) : Host.Outcome State Fault Refusal :=
  .next ((s.waitTimeout k).finish)

/-- REALIGN (R472). Only when the context's period has passed (R473). -/
def execTallyRealign (c : Fin 16) (s : State) : Host.Outcome State Fault Refusal :=
  .next ((s.realignDue c).finish)

/-- DEADLOCK (R480). Only under the conditions of the rule (R481). -/
def execTallyDeadlock (c : Fin 16) (s : State) : Host.Outcome State Fault Refusal :=
  .next ((s.deadlock c).finish)

/-- LINK_WRITE (R473). The write of LINK_k, mirrored (R602). -/
def execLinkWrite (port : Port) (c k : Fin 16) (w : Word) (s : State) : Host.Outcome State Fault Refusal :=
  .next ((s.regRow port (ttvPage c) (0x140 + 4 * k.val) w).finish)

/-- LOCK_WRITE (R479). The write of TTV_ATTR for the tally that the port has selected, mirrored. -/
def execLockWrite (port : Port) (c : Fin 16) (on : Bool) (s : State) : Host.Outcome State Fault Refusal :=
  .next ((s.regRow port (ttvPage c) 0x110 (wordOf (b2n on))).finish)

/-- CLEAR_SAT (R458). The write of TTV_CMD for the tally that the port has selected. -/
def execClearSat (port : Port) (c : Fin 16) (s : State) : Host.Outcome State Fault Refusal :=
  .next ((s.regRow port (ttvPage c) 0x114 1).finish)

/-- ATOMIC_ADD (R149). A fabric ATOM with ATOP ADD, or with a reserved ATOP, which answers ERROR (R147 to R150). -/
def execAtomAdd (m : Fin 16) (h : BitVec 128) (data : List Byte) (s : State) : Host.Outcome State Fault Refusal :=
  .next ((s.requestRow m h data (hOpc h == opATOM && atomOp h != 1 && atomOp h != 2)).finish)

/-- SWAP (R147). A fabric ATOM with ATOP SWAP. -/
def execAtomSwap (m : Fin 16) (h : BitVec 128) (data : List Byte) (s : State) : Host.Outcome State Fault Refusal :=
  .next ((s.requestRow m h data (hOpc h == opATOM && atomOp h == 1)).finish)

/-- CSWAP (R151). A fabric ATOM with ATOP CSWAP. -/
def execAtomCswap (m : Fin 16) (h : BitVec 128) (data : List Byte) (s : State) : Host.Outcome State Fault Refusal :=
  .next ((s.requestRow m h data (hOpc h == opATOM && atomOp h == 2)).finish)

/-- TINKER_REGION_START (R161). What the test of each line finds; lines not listed are good. -/
def execTinkerRegionStart (g : Fin 8) (faults : List LineTest) (s : State) : Host.Outcome State Fault Refusal :=
  .next ((s.tinkerRegionStart g faults).finish)

/-- TNK_TARGET (R161). The write of TNK_TARGET: bank and region. -/
def execTnkTarget (g : Fin 8) (b r : BitVec 6) (s : State) : Host.Outcome State Fault Refusal :=
  .next ((s.regRow .steward (tnkPage g) 0x108 (wordOf (b.toNat + r.toNat * 64))).finish)

/-- CE_TRIGGER (R162). Once in a window. -/
def execCeTrigger (b : Fin 512) (s : State) : Host.Outcome State Fault Refusal :=
  .next ((s.ceTrigger b).finish)

/-- SPARE_ENTRY (R178). The write for the entry that SPARE_INDEX selects (R755). -/
def execSpareEntry (g : Fin 8) (w : Word) (s : State) : Host.Outcome State Fault Refusal :=
  .next ((s.regRow .steward (tnkPage g) 0x124 w).finish)

/-- STACK_BURST (R286). `busy` names pseudo-channels whose timing lets no burst start. -/
def execStackBurst (g : Fin 8) (ch : Fin 32) (busy : BitVec 2) (s : State) : Host.Outcome State Fault Refusal :=
  .next ((s.stackBurst g ch busy).finish)

/-- STACK_READ_DONE (R291). `sev` is the stack's own report: none, corrected, uncorrected (R292). -/
def execStackReadDone (g : Fin 8) (line : Fin (2 ^ 30)) (sev : Fin 3) (s : State) : Host.Outcome State Fault Refusal :=
  .next ((s.stackReadDone g line sev).finish)

/-- PATROL_READ (R294). `sev` is the stack's own report. -/
def execPatrolRead (g : Fin 8) (sev : Fin 3) (s : State) : Host.Outcome State Fault Refusal :=
  .next ((s.patrolRead g sev).finish)

/-- REFRESH_DUE (R295). The bank refreshed. -/
def execRefreshDue (g : Fin 8) (ch : Fin 32) (pc : Fin 2) (bank : Fin 64) (s : State) : Host.Outcome State Fault Refusal :=
  .next ((s.refreshDue g ch pc bank).finish)

/-- RFM_DUE (R296). The bank whose count is due. -/
def execRfmDue (g : Fin 8) (ch : Fin 32) (pc : Fin 2) (bank : Fin 64) (s : State) : Host.Outcome State Fault Refusal :=
  .next ((s.rfmDue g ch pc bank).finish)

/-- HBM_TEMP_READ (R297). No answer, or the temperature and the refresh rate asked for (R682, R683). -/
def execHbmTempRead (g : Fin 8) (r : Option (BitVec 8 × Fin 3)) (s : State) : Host.Outcome State Fault Refusal :=
  .next ((s.hbmTemp g r).finish)

/-- ROW_CLOSE (R287). Only without a queued hit. -/
def execRowClose (g : Fin 8) (ch : Fin 32) (pc : Fin 2) (bank : Fin 64) (s : State) : Host.Outcome State Fault Refusal :=
  .next ((s.rowClose g ch pc bank).finish)

/-- POWER_DOWN (R298). Only with nothing queued for the channel. -/
def execPowerDown (g : Fin 8) (ch : Fin 32) (s : State) : Host.Outcome State Fault Refusal :=
  .next ((s.powerDown g ch).finish)

/-- CA_PARITY (R309). The fourth event within 1 ms retrains the channel (R310). -/
def execCaParity (g : Fin 8) (ch : Fin 32) (s : State) : Host.Outcome State Fault Refusal :=
  .next ((s.caParity g ch).finish)

/-- WR_PARITY (R309). The fourth event within 1 ms retrains the channel (R310). -/
def execWrParity (g : Fin 8) (ch : Fin 32) (s : State) : Host.Outcome State Fault Refusal :=
  .next ((s.wrParity g ch).finish)

/-- CHAN_RETRAIN_DONE (R310). `ok` says that it succeeded. -/
def execChanRetrainDone (g : Fin 8) (ch : Fin 32) (ok : Bool) (s : State) : Host.Outcome State Fault Refusal :=
  .next ((s.chanRetrainDone g ch ok).finish)

/-- STACK_FAILED (R311). Requests that wait answer ERROR (R311, R312). -/
def execStackFailed (g : Fin 8) (s : State) : Host.Outcome State Fault Refusal :=
  .next ((s.stackFailed g).finish)

/-- CLEAR (R316). The write of HC_CTRL with CLEAR; its other fields as they are. -/
def execStackClear (g : Fin 8) (s : State) : Host.Outcome State Fault Refusal :=
  .next ((s.regRow .steward (hcPage g) 0x100 (s.hcWord g ||| 0x200)).finish)

/-- STACK_CLEAR_DONE (R316). Every line is zero with normal check bits. -/
def execStackClearDone (g : Fin 8) (s : State) : Host.Outcome State Fault Refusal :=
  .next ((s.stackClearDone g).finish)

/-- RETRAIN (R310). The write of HC_CTRL with RETRAIN; its other fields as they are. -/
def execHcRetrain (g : Fin 8) (s : State) : Host.Outcome State Fault Refusal :=
  .next ((s.regRow .steward (hcPage g) 0x100 (s.hcWord g ||| 0x100)).finish)

/-- STACK_TRAINED (R314). What training found. -/
def execStackTrained (g : Fin 8) (sids : Fin 4) (rate : Fin 3) (lanes : BitVec 8) (s : State) : Host.Outcome State Fault Refusal :=
  .next ((s.stackTrained g sids rate lanes).finish)

end Sys2Proof.Machine
end

