-- ==== Sys2Proof/Machine/RowsPage.lean ====
section
/-! DEFINITION. Rows of pages, stair, arbiters, purser (chapters 1, 3, 5, 16). One meaning for each row; every step ends with `State.finish`. -/

namespace Sys2Proof.Machine

/-- COMMIT (R112). The write of PAGE_COMMIT with COMMIT. -/
def execPageCommit (port : Port) (p : Page) (s : State) : Host.Outcome State Fault Refusal :=
  .next ((s.regRow port p 0x010 1).finish)

/-- COMMIT_TAKES_EFFECT (R112). Nothing without a pending commit; the PRS and TEV pages take theirs elsewhere (R567, R685). -/
def execCommitTakesEffect (p : Page) (s : State) : Host.Outcome State Fault Refusal :=
  .next ((s.onPage p fun s => s.commitBoundary p).finish)

/-- DISCARD (R113). The write of PAGE_COMMIT with DISCARD. -/
def execPageDiscard (port : Port) (p : Page) (s : State) : Host.Outcome State Fault Refusal :=
  .next ((s.regRow port p 0x010 2).finish)

/-- HALT (R114). The write of PAGE_CTRL with READ_LIVE as it is. -/
def execPageHalt (p : Page) (s : State) : Host.Outcome State Fault Refusal :=
  .next ((s.regRow .steward p 0x008 (s.ctrlWord p + 1)).finish)

/-- HALT_COMPLETE (R114). Only when the work in flight is done (Table 3-8). -/
def execHaltComplete (p : Page) (s : State) : Host.Outcome State Fault Refusal :=
  .next ((s.onPage p fun s => s.haltDone p).finish)

/-- HALT_RELEASE (R114). The write of PAGE_CTRL with READ_LIVE as it is. -/
def execHaltRelease (p : Page) (s : State) : Host.Outcome State Fault Refusal :=
  .next ((s.regRow .steward p 0x008 (s.ctrlWord p)).finish)

/-- SOFT_RESET (R715). The write of PAGE_CTRL with HALT and READ_LIVE as they are. -/
def execSoftReset (p : Page) (s : State) : Host.Outcome State Fault Refusal :=
  .next ((s.regRow .steward p 0x008 (s.ctrlWord p + wordOf (s.get p F.PAGE_CTRL_HALT) + 2)).finish)

/-- SOFT_RESET_DONE (R715). `pass`: on an HC page bit 0, that training succeeded; on a MIX page the mixers that agree (R405, R447, R531). (DESIGN CHOICE, log entry 20) -/
def execSoftResetDone (p : Page) (pass : BitVec 8) (s : State) : Host.Outcome State Fault Refusal :=
  .next ((s.onPage p fun s => s.softResetEnd p pass.toNat).finish)

/-- ERR_INJECT (R738). Each bit written acts once (R738, R739). -/
def execErrInject (p : Page) (w : Word) (s : State) : Host.Outcome State Fault Refusal :=
  .next ((s.regRow .steward p 0x030 w).finish)

/-- STAIR_MESSAGE_FORWARD (R24). Outgoing link, lane, response or request buffers, class; `bad` is a message that failed its check (R30 to R34). -/
def execStairMessageForward (g : Fin 8) (k : Fin 3) (lane : Fin 2) (rsp : Bool) (cls : Fin 8) (bad : Bool) (s : State) : Host.Outcome State Fault Refusal :=
  .next ((s.stairForward g k lane rsp cls bad).finish)

/-- ARBITER_DRAW (R182). ARB_ID (R181); `reqs` are the requesters of an arbiter whose queue the model does not hold. -/
def execArbiterDraw (id : BitVec 16) (reqs : List Req) (s : State) : Host.Outcome State Fault Refusal :=
  .next ((s.arbDraw id.toNat reqs).finish)

/-- WITHDRAWAL (R187). Only with a drawn winner. -/
def execArbWithdrawal (id : BitVec 16) (reqs : List Req) (s : State) : Host.Outcome State Fault Refusal :=
  .next ((s.arbWithdraw id.toNat reqs).finish)

/-- EMERGENCY_BEAT (R188). `cut` says that a transfer was cut or a drawn winner waits. -/
def execEmergencyBeat (id : BitVec 16) (cut : Bool) (s : State) : Host.Outcome State Fault Refusal :=
  .next ((s.emergency id.toNat cut).finish)

/-- RESEED (R217). The write of ARB_CTRL with ADAPT as it is. -/
def execArbReseed (g : Fin 8) (s : State) : Host.Outcome State Fault Refusal :=
  .next ((s.regRow .steward (arbPage g) 0x100 (s.rdSh (arbPage g) 0x100 &&& 1 ||| 2)).finish)

/-- URG_CHANGE (R191). The level on the pins. -/
def execUrgChange (m : Fin 16) (v : Fin 4) (s : State) : Host.Outcome State Fault Refusal :=
  .next ((s.modLink m fun l => { l with urgIn := v }).finish)

/-- URG_ADOPT (R191). The level driven becomes the level adopted. -/
def execUrgAdopt (m : Fin 16) (s : State) : Host.Outcome State Fault Refusal :=
  .next ((s.urgAdopt m).finish)

/-- URG_CRIT (R220). Once in each stay at level 3. -/
def execUrgCrit (m : Fin 16) (s : State) : Host.Outcome State Fault Refusal :=
  .next ((s.urgCrit m).finish)

/-- REG_WINDOW_END (R198). Counts are copied, and the tickets adapt where ADAPT is set (R200, R201). -/
def execRegWindowEnd (g : Fin 8) (s : State) : Host.Outcome State Fault Refusal :=
  .next ((s.windowEnd g).finish)

/-- SATURATED (R209). Class k of gallery g. -/
def execClassSaturated (g k : Fin 8) (s : State) : Host.Outcome State Fault Refusal :=
  .next ((s.saturated g k).finish)

/-- SATURATED_CLEAR (R209). Class k of gallery g. -/
def execSaturatedClear (g k : Fin 8) (s : State) : Host.Outcome State Fault Refusal :=
  .next ((s.saturatedClear g k).finish)

/-- PURSER_COMPUTATION (R664). `a` is what the AVSBus brought (R690 to R694). -/
def execPurserComputation (a : AvsRead) (s : State) : Host.Outcome State Fault Refusal :=
  .next ((s.compute a).finish)

/-- PACE_INTERVAL_START (R204). What the last computation formed comes into force (R206, R207). -/
def execPaceIntervalStart (s : State) : Host.Outcome State Fault Refusal :=
  .next ((s.intervalStart).finish)

/-- CAL_UPDATE (R666). `est` is the estimate of the interval in mW. -/
def execCalUpdate (est : Nat) (s : State) : Host.Outcome State Fault Refusal :=
  .next ((s.calibrate est).finish)

/-- SENSOR_SAMPLE (R677). Readings in quarter degrees, 12 bits for each sensor; sensors whose self-check failed (R678 to R681). -/
def execSensorSample (temps : BitVec 204) (fails : BitVec 17) (s : State) : Host.Outcome State Fault Refusal :=
  .next ((s.sample temps.toNat fails.toNat).finish)

/-- LEND_START (R482). Only under the conditions of the rule. -/
def execLendStart (e : Fin 16) (s : State) : Host.Outcome State Fault Refusal :=
  .next ((s.lendStart e).finish)

end Sys2Proof.Machine
end

