-- ==== Sys2Proof/Machine/RowsSteward.lean ====
section
/-! DEFINITION. Rows of the steward, the TAP and fault reports (chapters 15, 18). One meaning for each row; every step ends with `State.finish`. -/

namespace Sys2Proof.Machine

/-- PING (R634). The bytes of the frame, its CRC included. -/
def execStwPing (frame : List Byte) (s : State) : Host.Outcome State Fault Refusal :=
  .next ((s.stwFrame 0x01 frame false).finish)

/-- REG_READ (R633). `slow` says that the operation takes longer than 48 periods (R635). -/
def execStwRegRead (frame : List Byte) (slow : Bool) (s : State) : Host.Outcome State Fault Refusal :=
  .next ((s.stwFrame 0x02 frame slow).finish)

/-- REG_WRITE (R633). `slow` says that the operation takes longer than 48 periods (R635). -/
def execStwRegWrite (frame : List Byte) (slow : Bool) (s : State) : Host.Outcome State Fault Refusal :=
  .next ((s.stwFrame 0x03 frame slow).finish)

/-- MEM_READ (R633). `slow` says that the operation takes longer than 48 periods (R635). -/
def execStwMemRead (frame : List Byte) (slow : Bool) (s : State) : Host.Outcome State Fault Refusal :=
  .next ((s.stwFrame 0x04 frame slow).finish)

/-- MEM_WRITE (R633). `slow` says that the operation takes longer than 48 periods (R635). -/
def execStwMemWrite (frame : List Byte) (slow : Bool) (s : State) : Host.Outcome State Fault Refusal :=
  .next ((s.stwFrame 0x05 frame slow).finish)

/-- MEM_ATOM (R633). `slow` says that the operation takes longer than 48 periods (R635). -/
def execStwMemAtom (frame : List Byte) (slow : Bool) (s : State) : Host.Outcome State Fault Refusal :=
  .next ((s.stwFrame 0x06 frame slow).finish)

/-- REPLAY (R635). The last response frame again. -/
def execStwReplay (frame : List Byte) (s : State) : Host.Outcome State Fault Refusal :=
  .next ((s.stwFrame 0x0D frame false).finish)

/-- FETCH (R635). The oldest finished operation's result. -/
def execStwFetch (frame : List Byte) (s : State) : Host.Outcome State Fault Refusal :=
  .next ((s.stwFrame 0x0E frame false).finish)

/-- STEWARD_OP_DONE (R635). The operation that holds a handle. -/
def execStewardOpDone (h : Fin 16) (s : State) : Host.Outcome State Fault Refusal :=
  .next ((s.portPerform h).finish)

/-- STW_FRM_LOW (R659). A frame that was too long is answered BAD_FRAME. -/
def execStwFrmLow (s : State) : Host.Outcome State Fault Refusal :=
  .next ((s.frmLow).finish)

/-- ASSIGN (R639). The write of CTX_CMD, mirrored (R602). -/
def execCtxAssign (c : Fin 16) (s : State) : Host.Outcome State Fault Refusal :=
  .next ((s.regRow .steward pgCTX 0x100 (wordOf (c.val + 0x10))).finish)

/-- RETIRE (R639). The write of CTX_CMD, mirrored (R602). -/
def execCtxRetire (c : Fin 16) (s : State) : Host.Outcome State Fault Refusal :=
  .next ((s.regRow .steward pgCTX 0x100 (wordOf (c.val + 0x20))).finish)

/-- CONTEXT_CLEAR_DONE (R640). Only when nothing of the context remains. -/
def execContextClearDone (c : Fin 16) (s : State) : Host.Outcome State Fault Refusal :=
  .next ((s.ctxDone c).finish)

/-- ELOG_WRITE (R642). Only while the ring has room. -/
def execElogWrite (s : State) : Host.Outcome State Fault Refusal :=
  .next ((s.elogWrite).finish)

/-- ELOG_TAIL (R642). The write of ELOG_TAIL. -/
def execElogTail (w : Word) (s : State) : Host.Outcome State Fault Refusal :=
  .next ((s.regRow .steward pgSTW 0x118 w).finish)

/-- UNLOCK (R645). The write of DBG_CTRL with UNLOCK and a key; SCAN_EN as it is. -/
def execDbgUnlock (key : BitVec 8) (s : State) : Host.Outcome State Fault Refusal :=
  .next ((s.regRow .steward pgDBG 0x100 (wput (wput (s.rdSh pgDBG 0x100) 24 8 key.toNat) 0 1 1)).finish)

/-- BYPASS (R647). Its own code, or one that Table 15-8 leaves undefined. -/
def execTapBypass (code : BitVec 8) (s : State) : Host.Outcome State Fault Refusal :=
  .next ((if code.toNat == tapBYPASS || !tapCode code.toNat then s.tapBypass else s).finish)

/-- IDCODE (R647). The register captures the identity. -/
def execTapIdcode (s : State) : Host.Outcome State Fault Refusal :=
  .next ((s.modTap fun t => { t with ir := 0x01, dr := tapIDCODE }).finish)

/-- SAMPLE_PRELOAD (R647). The bumps captured, and what is shifted in. -/
def execTapSample (pins scan : Nat) (s : State) : Host.Outcome State Fault Refusal :=
  .next ((s.tapSample pins scan).finish)

/-- EXTEST (R647). Only with SCAN_EN (R647). -/
def execTapExtest (pins scan : Nat) (s : State) : Host.Outcome State Fault Refusal :=
  .next ((s.tapExtest pins scan).finish)

/-- CLAMP (R647). Only with SCAN_EN (R647). -/
def execTapClamp (s : State) : Host.Outcome State Fault Refusal :=
  .next ((s.tapHold 0x03).finish)

/-- HIGHZ (R647). Only with SCAN_EN (R647). -/
def execTapHighz (s : State) : Host.Outcome State Fault Refusal :=
  .next ((s.tapHold 0x04).finish)

/-- DBG_ACCESS (R648). A register word, or a line. -/
def execDbgAccess (dpa : BitVec 48) (line : Bool) (s : State) : Host.Outcome State Fault Refusal :=
  .next ((s.dbgAccess dpa.toNat line).finish)

/-- DBG_READ_DONE (R648). Without effect on the device (R646). -/
def execDbgReadDone (s : State) : Host.Outcome State Fault Refusal :=
  .next ((s.dbgReadDone).finish)

/-- TRACE_READ (R649). Only unlocked (R645). -/
def execTraceRead (s : State) : Host.Outcome State Fault Refusal :=
  .next ((s.traceRead).finish)

/-- IJTAG (R650). Instrument k of a segment (Table 15-9). -/
def execTapIjtag (seg : Fin 9) (k : Nat) (s : State) : Host.Outcome State Fault Refusal :=
  .next ((s.ijtag seg k).finish)

/-- TAP_RESET (R778). IDCODE is selected (R647). -/
def execTapReset (s : State) : Host.Outcome State Fault Refusal :=
  .next ((s.tapReset).finish)

/-- FAULT_RECORD_WRITE (R733). Only while the ring has room (R735, R736). -/
def execFaultRecordWrite (c : Fin 16) (s : State) : Host.Outcome State Fault Refusal :=
  .next ((s.faultWrite c).finish)

/-- FQ_ENABLE (R734). The write of FQ_CTRL with EN; its other fields as they are. -/
def execFqEnable (port : Port) (c : Fin 16) (s : State) : Host.Outcome State Fault Refusal :=
  .next ((s.regRow port (tfqPage c) 0x108 (s.rd (tfqPage c) 0x108 ||| 1)).finish)

/-- FQ_TAIL (R737). The write of FQ_TAIL. -/
def execFqTail (port : Port) (c : Fin 16) (w : Word) (s : State) : Host.Outcome State Fault Refusal :=
  .next ((s.regRow port (tfqPage c) 0x110 w).finish)

/-- PARITY_ERROR (R127). Where it arises. -/
def execParityError (x : ParityAt) (s : State) : Host.Outcome State Fault Refusal :=
  .next ((s.parityError x).finish)

/-- SWITCH_FAULT (R40). Where it arises (R219). -/
def execSwitchFault (u : UnitAt) (s : State) : Host.Outcome State Fault Refusal :=
  .next ((s.switchFault u).finish)

end Sys2Proof.Machine
end

