-- ==== Sys2Proof/Machine/RowsStream.lean ====
section
/-! DEFINITION. Rows of engines and foremen (chapters 8 to 10). One meaning for each row; every step ends with `State.finish`. -/

namespace Sys2Proof.Machine

/-- DESCRIPTOR_ACTIVATE (R367). Only with a free slot and the queue running (R366). -/
def execDescriptorActivate (q : Fin 128) (s : State) : Host.Outcome State Fault Refusal :=
  .next ((s.activate q).finish)

/-- DESCRIPTOR_READ_DONE (R323). The read is translated and made here (R321, R323). -/
def execDescriptorReadDone (q : Fin 128) (s : State) : Host.Outcome State Fault Refusal :=
  .next ((s.descRead q none).finish)

/-- TILE_TAKE (R345). Active descriptor k of the queue. -/
def execTileTake (q : Fin 128) (k : Fin 4) (s : State) : Host.Outcome State Fault Refusal :=
  .next ((s.tileTake q k).finish)

/-- TOKEN_HANDOFF (R370). One step of the fetch unit: lines of the newest token are staged and, when all are, it is handed off (R368 to R371). -/
def execTokenHandoff (q : Fin 128) (s : State) : Host.Outcome State Fault Refusal :=
  .next ((s.fetchToken q none).finish)

/-- ELEMENT_CONVERT (R335). One step of the execute unit for active descriptor k (R372 to R378). -/
def execElementConvert (q : Fin 128) (k : Fin 4) (s : State) : Host.Outcome State Fault Refusal :=
  .next ((s.convert q k none).finish)

/-- TILE_POST (R347). Only when the tile's elements are complete (R366). -/
def execTilePost (q : Fin 128) (s : State) : Host.Outcome State Fault Refusal :=
  .next ((s.tilePost q).finish)

/-- DONE_POST (R348). Only when every tile post is made. -/
def execDonePost (q : Fin 128) (s : State) : Host.Outcome State Fault Refusal :=
  .next ((s.donePost q).finish)

/-- DESCRIPTOR_END (R384). Only when its end is decided (Table 8-6). -/
def execDescriptorEnd (q : Fin 128) (s : State) : Host.Outcome State Fault Refusal :=
  .next ((s.descEnd q).finish)

/-- RESUME (R381). The write of QUEUE_CMD_q on a context's page (R409). -/
def execQueueResume (port : Port) (c : Fin 16) (q : Fin 128) (s : State) : Host.Outcome State Fault Refusal :=
  .next ((s.regRow port ⟨.TQC, c⟩ (0x100 + 4 * q.val) 1).finish)

/-- ABORT (R382). The write of QUEUE_CMD_q. -/
def execQueueAbort (port : Port) (c : Fin 16) (q : Fin 128) (s : State) : Host.Outcome State Fault Refusal :=
  .next ((s.regRow port ⟨.TQC, c⟩ (0x100 + 4 * q.val) 2).finish)

/-- FLUSH (R382). The write of QUEUE_CMD_q with ABORT and FLUSH. -/
def execQueueFlush (port : Port) (c : Fin 16) (q : Fin 128) (s : State) : Host.Outcome State Fault Refusal :=
  .next ((s.regRow port ⟨.TQC, c⟩ (0x100 + 4 * q.val) 6).finish)

/-- MIXER_BLOCK_DONE (R516). Mixer k; `fail` is a block whose check failed (R526). -/
def execMixerBlockDone (g k : Fin 8) (quick fail : Bool) (s : State) : Host.Outcome State Fault Refusal :=
  .next ((s.mixerBlock g k quick fail).finish)

/-- COMBINER_WINDOW_EXPIRY (R389). Combiner entry e (R399). -/
def execCombinerWindowExpiry (g : Fin 8) (e : Fin 16) (s : State) : Host.Outcome State Fault Refusal :=
  .next ((s.combinerWindowExpiry g e).finish)

/-- DOORBELL (R412). The write of DOORBELL_r. -/
def execDoorbell (port : Port) (r : Fin 64) (v : BitVec 16) (s : State) : Host.Outcome State Fault Refusal :=
  .next ((s.regRow port (tdbPage (ringCtx r)) (0x100 + 16 * (r.val % 4)) (wordOf v.toNat)).finish)

/-- RING_FETCH (R423). Only with an enabled slot and a command to fetch (R443, R446). -/
def execRingFetch (r : Fin 64) (s : State) : Host.Outcome State Fault Refusal :=
  .next ((s.ringFetch r).finish)

/-- COMMAND_DISPATCH (R426). The oldest command of the ring, of any opcode. -/
def execCommandDispatch (r : Fin 64) (s : State) : Host.Outcome State Fault Refusal :=
  .next ((s.dispatch r fun _ => true).finish)

/-- STREAM (R417). Where the oldest command of the ring is a STREAM (R417, R428). -/
def execCmdStream (r : Fin 64) (s : State) : Host.Outcome State Fault Refusal :=
  .next ((s.dispatch r (· == 1)).finish)

/-- TALLY_OP (R418). Where the oldest command of the ring is a TALLY_OP. -/
def execCmdTallyOp (r : Fin 64) (s : State) : Host.Outcome State Fault Refusal :=
  .next ((s.dispatch r (· == 2)).finish)

/-- WAIT (R416). Where the oldest command of the ring is a WAIT. -/
def execCmdWait (r : Fin 64) (s : State) : Host.Outcome State Fault Refusal :=
  .next ((s.dispatch r (· == 3)).finish)

/-- BARRIER (R416). Where the oldest command of the ring is a BARRIER. -/
def execCmdBarrier (r : Fin 64) (s : State) : Host.Outcome State Fault Refusal :=
  .next ((s.dispatch r (· == 4)).finish)

/-- EVENT_STEP (R420). Where the oldest command of the ring is an EVENT_STEP. -/
def execCmdEventStep (r : Fin 64) (s : State) : Host.Outcome State Fault Refusal :=
  .next ((s.dispatch r (· == 5)).finish)

/-- FENCE (R416). Where the oldest command of the ring is a FENCE. -/
def execCmdFence (r : Fin 64) (s : State) : Host.Outcome State Fault Refusal :=
  .next ((s.dispatch r (· == 6)).finish)

/-- NOTE (R421). Where the oldest command of the ring is a NOTE. -/
def execCmdNote (r : Fin 64) (s : State) : Host.Outcome State Fault Refusal :=
  .next ((s.dispatch r (· == 7)).finish)

/-- JUMP (R422). Where the oldest command of the ring is a JUMP. -/
def execCmdJump (r : Fin 64) (s : State) : Host.Outcome State Fault Refusal :=
  .next ((s.dispatch r (· == 8)).finish)

/-- COMMAND_COMPLETE (R414). The outstanding command at place k, once its outcome is there (R431, R432). -/
def execCommandComplete (r : Fin 64) (k : Nat) (s : State) : Host.Outcome State Fault Refusal :=
  .next ((s.completeCmd r k).finish)

/-- RESTART (R433). The write of RING_CMD_r. -/
def execRingRestart (port : Port) (r : Fin 64) (s : State) : Host.Outcome State Fault Refusal :=
  .next ((s.regRow port (tdbPage (ringCtx r)) (0x10C + 16 * (r.val % 4)) 1).finish)

/-- RING_CLEAR (R433). The write of RING_CMD_r. -/
def execRingClear (port : Port) (r : Fin 64) (s : State) : Host.Outcome State Fault Refusal :=
  .next ((s.regRow port (tdbPage (ringCtx r)) (0x10C + 16 * (r.val % 4)) 2).finish)

/-- RING_SLOT_EN (R410). The write of RING_SLOT_s with its other fields as they are. -/
def execRingSlotEn (g k : Fin 8) (on : Bool) (s : State) : Host.Outcome State Fault Refusal :=
  .next ((s.regRow .steward (fmnPage g) (0x100 + 16 * k.val) (wput (s.rd (fmnPage g) (0x100 + 16 * k.val)) (F.FMN_RING_SLOT_EN.at k).lo 1 (b2n on))).finish)

end Sys2Proof.Machine
end

