-- ==== Sys2Proof/Machine/RowsTime.lean ====
section
/-! DEFINITION. Rows of the time base and of register access (chapters 2, 3). One meaning for each row; every step ends with `State.finish`. -/

namespace Sys2Proof.Machine

/-- TICK (R52). The time counter, limiters, buckets and held classes move on (R67, R196, R207, R671). -/
def execTick (s : State) : Host.Outcome State Fault Refusal :=
  .next ((s.tick).finish)

/-- TURN_PERIOD_UPDATE (R49). Periods in 1/16 ps, 16 bits for each gallery; galleries whose monitor failed (R50). -/
def execTurnPeriodUpdate (periods : BitVec 128) (fails : BitVec 8) (s : State) : Host.Outcome State Fault Refusal :=
  .next ((s.turnWindow periods.toNat fails.toNat).finish)

/-- REF_WINDOW_END (R58). Deviations in ppm: A from B, A and B from the oscillator; references that lost edges. -/
def execRefWindowEnd (dAB dAO dBO : BitVec 16) (lostA lostB : Bool) (s : State) : Host.Outcome State Fault Refusal :=
  .next ((s.refWindow dAB.toInt dAO.toInt dBO.toInt lostA lostB).finish)

/-- REF_LOST (R60). False is REFA, true REFB. -/
def execRefLost (b : Bool) (s : State) : Host.Outcome State Fault Refusal :=
  .next ((s.refLost b).finish)

/-- OSC_FAULT (R79). The oscillator no longer grades; without a usable reference the time base stops. -/
def execOscFault (s : State) : Host.Outcome State Fault Refusal :=
  .next ((s.oscFault).finish)

/-- TIME_ROLLOVER (R66). The second ends within the running tick. -/
def execTimeRollover (s : State) : Host.Outcome State Fault Refusal :=
  .next ((s.timeRollover).finish)

/-- NOW (R69). The write of TIME_APPLY with MODE NOW. -/
def execTimeNow (s : State) : Host.Outcome State Fault Refusal :=
  .next ((s.regRow .steward pgTBS 0x13C 1).finish)

/-- AT_NEXT_SECOND (R70). The write of TIME_APPLY with MODE AT_NEXT_SECOND. -/
def execAtNextSecond (s : State) : Host.Outcome State Fault Refusal :=
  .next ((s.regRow .steward pgTBS 0x13C 2).finish)

/-- TIME_APPLY_CANCEL (R70). The write of TIME_APPLY with MODE CANCEL. -/
def execTimeApplyCancel (s : State) : Host.Outcome State Fault Refusal :=
  .next ((s.regRow .steward pgTBS 0x13C 3).finish)

/-- TIME_NS_READ (R68). The word goes to `readRsp` of the port. -/
def execTimeNsRead (port : Port) (s : State) : Host.Outcome State Fault Refusal :=
  .next ((s.readRow port pgTBS 0x120).finish)

/-- CNT_SNAPSHOT_READ (R44). The LO half named by its DPA (R115). -/
def execCntSnapshotRead (port : Port) (dpa : BitVec 48) (s : State) : Host.Outcome State Fault Refusal :=
  .next ((s.snapRow port dpa.toNat).finish)

/-- TRC_DATA_READ (R649). The word goes to `readRsp` of the port. -/
def execTrcDataRead (port : Port) (s : State) : Host.Outcome State Fault Refusal :=
  .next ((s.readRow port pgDBG 0x14C).finish)

/-- FORCE (R78). The write of REF_CTRL with its other fields as they are (R62, Table 2-9). -/
def execRefForce (v : BitVec 2) (s : State) : Host.Outcome State Fault Refusal :=
  .next ((s.regRow .steward pgTBS 0x100 (wput (s.rd pgTBS 0x100) F.TBS_REF_CTRL_FORCE.lo 2 v.toNat)).finish)

/-- CLEAR_MAX (R49). The write of TURN_CTRL. -/
def execClearMax (s : State) : Host.Outcome State Fault Refusal :=
  .next ((s.regRow .steward pgTBS 0x1A8 1).finish)

/-- REGISTER_WRITE (R111). A write by DPA: misaligned, reserved, refused or performed (R11, R87, R88, R118, R501). -/
def execRegisterWrite (port : Port) (dpa : BitVec 48) (w : Word) (s : State) : Host.Outcome State Fault Refusal :=
  .next ((s.writeRow port dpa.toNat w).finish)

end Sys2Proof.Machine
end

