-- ==== Sys2Proof/Machine/Dispatch.lean ====
section
/-! DEFINITION. One arm for each command: a direct call of its meaning. -/

namespace Sys2Proof.Machine

/-- The effect of a command on everything but the queue. -/
def exec (i : Instr) (s : State) : Host.Outcome State Fault Refusal :=
  match i with
  | .pwrOkFall => Sys2Proof.Machine.execPwrOkFall s
  | .resetRelease x => Sys2Proof.Machine.execResetRelease x s
  | .warmReset => Sys2Proof.Machine.execWarmReset s
  | .warmDrainDone late => Sys2Proof.Machine.execWarmDrainDone late s
  | .fatalWarmTimer => Sys2Proof.Machine.execFatalWarmTimer s
  | .p0End us fails fuseErr => Sys2Proof.Machine.execP0End us fails fuseErr s
  | .p1End us a b agree v cur => Sys2Proof.Machine.execP1End us a b agree v cur s
  | .p2End fails stair => Sys2Proof.Machine.execP2End fails stair s
  | .p3End => Sys2Proof.Machine.execP3End s
  | .p4End => Sys2Proof.Machine.execP4End s
  | .bootReady => Sys2Proof.Machine.execBootReady s
  | .tick => Sys2Proof.Machine.execTick s
  | .turnPeriodUpdate periods fails => Sys2Proof.Machine.execTurnPeriodUpdate periods fails s
  | .refWindowEnd dAB dAO dBO lostA lostB => Sys2Proof.Machine.execRefWindowEnd dAB dAO dBO lostA lostB s
  | .refLost b => Sys2Proof.Machine.execRefLost b s
  | .oscFault => Sys2Proof.Machine.execOscFault s
  | .timeRollover => Sys2Proof.Machine.execTimeRollover s
  | .timeNow => Sys2Proof.Machine.execTimeNow s
  | .atNextSecond => Sys2Proof.Machine.execAtNextSecond s
  | .timeApplyCancel => Sys2Proof.Machine.execTimeApplyCancel s
  | .timeNsRead port => Sys2Proof.Machine.execTimeNsRead port s
  | .cntSnapshotRead port dpa => Sys2Proof.Machine.execCntSnapshotRead port dpa s
  | .trcDataRead port => Sys2Proof.Machine.execTrcDataRead port s
  | .refForce v => Sys2Proof.Machine.execRefForce v s
  | .clearMax => Sys2Proof.Machine.execClearMax s
  | .registerWrite port dpa w => Sys2Proof.Machine.execRegisterWrite port dpa w s
  | .pageCommit port p => Sys2Proof.Machine.execPageCommit port p s
  | .commitTakesEffect p => Sys2Proof.Machine.execCommitTakesEffect p s
  | .pageDiscard port p => Sys2Proof.Machine.execPageDiscard port p s
  | .pageHalt p => Sys2Proof.Machine.execPageHalt p s
  | .haltComplete p => Sys2Proof.Machine.execHaltComplete p s
  | .haltRelease p => Sys2Proof.Machine.execHaltRelease p s
  | .softReset p => Sys2Proof.Machine.execSoftReset p s
  | .softResetDone p pass => Sys2Proof.Machine.execSoftResetDone p pass s
  | .errInject p w => Sys2Proof.Machine.execErrInject p w s
  | .stairMessageForward g k lane rsp cls bad => Sys2Proof.Machine.execStairMessageForward g k lane rsp cls bad s
  | .arbiterDraw id reqs => Sys2Proof.Machine.execArbiterDraw id reqs s
  | .arbWithdrawal id reqs => Sys2Proof.Machine.execArbWithdrawal id reqs s
  | .emergencyBeat id cut => Sys2Proof.Machine.execEmergencyBeat id cut s
  | .arbReseed g => Sys2Proof.Machine.execArbReseed g s
  | .urgChange m v => Sys2Proof.Machine.execUrgChange m v s
  | .urgAdopt m => Sys2Proof.Machine.execUrgAdopt m s
  | .urgCrit m => Sys2Proof.Machine.execUrgCrit m s
  | .regWindowEnd g => Sys2Proof.Machine.execRegWindowEnd g s
  | .classSaturated g k => Sys2Proof.Machine.execClassSaturated g k s
  | .saturatedClear g k => Sys2Proof.Machine.execSaturatedClear g k s
  | .purserComputation a => Sys2Proof.Machine.execPurserComputation a s
  | .paceIntervalStart => Sys2Proof.Machine.execPaceIntervalStart s
  | .calUpdate est => Sys2Proof.Machine.execCalUpdate est s
  | .sensorSample temps fails => Sys2Proof.Machine.execSensorSample temps fails s
  | .lendStart e => Sys2Proof.Machine.execLendStart e s
  | .flitReceive m raw => Sys2Proof.Machine.execFlitReceive m raw s
  | .nakResend m => Sys2Proof.Machine.execNakResend m s
  | .replayTimer m => Sys2Proof.Machine.execReplayTimer m s
  | .linkDown m => Sys2Proof.Machine.execLinkDown m s
  | .linkUp m rate lanes formed => Sys2Proof.Machine.execLinkUp m rate lanes formed s
  | .credInit m h => Sys2Proof.Machine.execCredInit m h s
  | .nopMsg m h => Sys2Proof.Machine.execNopMsg m h s
  | .vtlRd m h data => Sys2Proof.Machine.execVtlRd m h data s
  | .vtlWr m h data => Sys2Proof.Machine.execVtlWr m h data s
  | .vtlRegRd m h data => Sys2Proof.Machine.execVtlRegRd m h data s
  | .vtlRegWr m h data => Sys2Proof.Machine.execVtlRegWr m h data s
  | .srdRsp m h data => Sys2Proof.Machine.execSrdRsp m h data s
  | .vtlEvt m h data => Sys2Proof.Machine.execVtlEvt m h data s
  | .stallWarn m vc => Sys2Proof.Machine.execStallWarn m vc s
  | .vcAbandon m vc => Sys2Proof.Machine.execVcAbandon m vc s
  | .rspTimeout m tag => Sys2Proof.Machine.execRspTimeout m tag s
  | .moduleReset m => Sys2Proof.Machine.execModuleReset m s
  | .modEnable m on => Sys2Proof.Machine.execModEnable m on s
  | .moduleResetDone m => Sys2Proof.Machine.execModuleResetDone m s
  | .xltWalkDone g k => Sys2Proof.Machine.execXltWalkDone g k s
  | .invalRange c => Sys2Proof.Machine.execInvalRange c s
  | .invalContext c => Sys2Proof.Machine.execInvalContext c s
  | .invalAll c => Sys2Proof.Machine.execInvalAll c s
  | .xltInvalDone => Sys2Proof.Machine.execXltInvalDone s
  | .bankRead b l => Sys2Proof.Machine.execBankRead b l s
  | .bankWrite b l en pois data => Sys2Proof.Machine.execBankWrite b l en pois data s
  | .readModifyWrite b l en pois data => Sys2Proof.Machine.execReadModifyWrite b l en pois data s
  | .eccInject g w => Sys2Proof.Machine.execEccInject g w s
  | .tallyAdd m h data => Sys2Proof.Machine.execTallyAdd m h data s
  | .tallySub m h data => Sys2Proof.Machine.execTallySub m h data s
  | .tallyWaitGe m h data => Sys2Proof.Machine.execTallyWaitGe m h data s
  | .tallyWaitTake m h data => Sys2Proof.Machine.execTallyWaitTake m h data s
  | .tallyRead m h data => Sys2Proof.Machine.execTallyRead m h data s
  | .tallySet p n => Sys2Proof.Machine.execTallySet p n s
  | .tallyArrive m h data => Sys2Proof.Machine.execTallyArrive m h data s
  | .clearOrphan m h data => Sys2Proof.Machine.execClearOrphan m h data s
  | .waitTimeout k => Sys2Proof.Machine.execWaitTimeout k s
  | .tallyRealign c => Sys2Proof.Machine.execTallyRealign c s
  | .tallyDeadlock c => Sys2Proof.Machine.execTallyDeadlock c s
  | .linkWrite port c k w => Sys2Proof.Machine.execLinkWrite port c k w s
  | .lockWrite port c on => Sys2Proof.Machine.execLockWrite port c on s
  | .clearSat port c => Sys2Proof.Machine.execClearSat port c s
  | .atomAdd m h data => Sys2Proof.Machine.execAtomAdd m h data s
  | .atomSwap m h data => Sys2Proof.Machine.execAtomSwap m h data s
  | .atomCswap m h data => Sys2Proof.Machine.execAtomCswap m h data s
  | .tinkerRegionStart g faults => Sys2Proof.Machine.execTinkerRegionStart g faults s
  | .tnkTarget g b r => Sys2Proof.Machine.execTnkTarget g b r s
  | .ceTrigger b => Sys2Proof.Machine.execCeTrigger b s
  | .spareEntry g w => Sys2Proof.Machine.execSpareEntry g w s
  | .stackBurst g ch busy => Sys2Proof.Machine.execStackBurst g ch busy s
  | .stackReadDone g line sev => Sys2Proof.Machine.execStackReadDone g line sev s
  | .patrolRead g sev => Sys2Proof.Machine.execPatrolRead g sev s
  | .refreshDue g ch pc bank => Sys2Proof.Machine.execRefreshDue g ch pc bank s
  | .rfmDue g ch pc bank => Sys2Proof.Machine.execRfmDue g ch pc bank s
  | .hbmTempRead g r => Sys2Proof.Machine.execHbmTempRead g r s
  | .rowClose g ch pc bank => Sys2Proof.Machine.execRowClose g ch pc bank s
  | .powerDown g ch => Sys2Proof.Machine.execPowerDown g ch s
  | .caParity g ch => Sys2Proof.Machine.execCaParity g ch s
  | .wrParity g ch => Sys2Proof.Machine.execWrParity g ch s
  | .chanRetrainDone g ch ok => Sys2Proof.Machine.execChanRetrainDone g ch ok s
  | .stackFailed g => Sys2Proof.Machine.execStackFailed g s
  | .stackClear g => Sys2Proof.Machine.execStackClear g s
  | .stackClearDone g => Sys2Proof.Machine.execStackClearDone g s
  | .hcRetrain g => Sys2Proof.Machine.execHcRetrain g s
  | .descriptorActivate q => Sys2Proof.Machine.execDescriptorActivate q s
  | .descriptorReadDone q => Sys2Proof.Machine.execDescriptorReadDone q s
  | .tileTake q k => Sys2Proof.Machine.execTileTake q k s
  | .tokenHandoff q => Sys2Proof.Machine.execTokenHandoff q s
  | .elementConvert q k => Sys2Proof.Machine.execElementConvert q k s
  | .tilePost q => Sys2Proof.Machine.execTilePost q s
  | .donePost q => Sys2Proof.Machine.execDonePost q s
  | .descriptorEnd q => Sys2Proof.Machine.execDescriptorEnd q s
  | .queueResume port c q => Sys2Proof.Machine.execQueueResume port c q s
  | .queueAbort port c q => Sys2Proof.Machine.execQueueAbort port c q s
  | .queueFlush port c q => Sys2Proof.Machine.execQueueFlush port c q s
  | .mixerBlockDone g k quick fail => Sys2Proof.Machine.execMixerBlockDone g k quick fail s
  | .combinerWindowExpiry g e => Sys2Proof.Machine.execCombinerWindowExpiry g e s
  | .doorbell port r v => Sys2Proof.Machine.execDoorbell port r v s
  | .ringFetch r => Sys2Proof.Machine.execRingFetch r s
  | .commandDispatch r => Sys2Proof.Machine.execCommandDispatch r s
  | .cmdStream r => Sys2Proof.Machine.execCmdStream r s
  | .cmdTallyOp r => Sys2Proof.Machine.execCmdTallyOp r s
  | .cmdWait r => Sys2Proof.Machine.execCmdWait r s
  | .cmdBarrier r => Sys2Proof.Machine.execCmdBarrier r s
  | .cmdEventStep r => Sys2Proof.Machine.execCmdEventStep r s
  | .cmdFence r => Sys2Proof.Machine.execCmdFence r s
  | .cmdNote r => Sys2Proof.Machine.execCmdNote r s
  | .cmdJump r => Sys2Proof.Machine.execCmdJump r s
  | .commandComplete r k => Sys2Proof.Machine.execCommandComplete r k s
  | .ringRestart port r => Sys2Proof.Machine.execRingRestart port r s
  | .ringClear port r => Sys2Proof.Machine.execRingClear port r s
  | .ringSlotEn g k on => Sys2Proof.Machine.execRingSlotEn g k on s
  | .keyApply port c => Sys2Proof.Machine.execKeyApply port c s
  | .chkStart g => Sys2Proof.Machine.execChkStart g s
  | .checkDone g => Sys2Proof.Machine.execCheckDone g s
  | .mixReturn g mask => Sys2Proof.Machine.execMixReturn g mask s
  | .stepDue => Sys2Proof.Machine.execStepDue s
  | .stepOpen => Sys2Proof.Machine.execStepOpen s
  | .crierEvaluate g => Sys2Proof.Machine.execCrierEvaluate g s
  | .crierDrain g => Sys2Proof.Machine.execCrierDrain g s
  | .stepArrive g => Sys2Proof.Machine.execStepArrive g s
  | .eventDelivery g => Sys2Proof.Machine.execEventDelivery g s
  | .stepRun port c on => Sys2Proof.Machine.execStepRun port c on s
  | .copyLive port c => Sys2Proof.Machine.execCopyLive port c s
  | .copyLiveDone => Sys2Proof.Machine.execCopyLiveDone s
  | .swapCancel port c => Sys2Proof.Machine.execSwapCancel port c s
  | .evmCtrl w => Sys2Proof.Machine.execEvmCtrl w s
  | .mApply h data => Sys2Proof.Machine.execMApply h data s
  | .mFwd h data => Sys2Proof.Machine.execMFwd h data s
  | .mCopy h data => Sys2Proof.Machine.execMCopy h data s
  | .mAck h => Sys2Proof.Machine.execMAck h s
  | .mRefuse h => Sys2Proof.Machine.execMRefuse h s
  | .mBeat h => Sys2Proof.Machine.execMBeat h s
  | .mJoin h => Sys2Proof.Machine.execMJoin h s
  | .mLeave h => Sys2Proof.Machine.execMLeave h s
  | .beatTimeout => Sys2Proof.Machine.execBeatTimeout s
  | .twinRetrain => Sys2Proof.Machine.execTwinRetrain s
  | .twinRejoin => Sys2Proof.Machine.execTwinRejoin s
  | .takeOver => Sys2Proof.Machine.execTakeOver s
  | .resilverCopy => Sys2Proof.Machine.execResilverCopy s
  | .resilverDone => Sys2Proof.Machine.execResilverDone s
  | .regionEnable k w => Sys2Proof.Machine.execRegionEnable k w s
  | .stwPing frame => Sys2Proof.Machine.execStwPing frame s
  | .stwRegRead frame slow => Sys2Proof.Machine.execStwRegRead frame slow s
  | .stwRegWrite frame slow => Sys2Proof.Machine.execStwRegWrite frame slow s
  | .stwMemRead frame slow => Sys2Proof.Machine.execStwMemRead frame slow s
  | .stwMemWrite frame slow => Sys2Proof.Machine.execStwMemWrite frame slow s
  | .stwMemAtom frame slow => Sys2Proof.Machine.execStwMemAtom frame slow s
  | .stwReplay frame => Sys2Proof.Machine.execStwReplay frame s
  | .stwFetch frame => Sys2Proof.Machine.execStwFetch frame s
  | .stewardOpDone h => Sys2Proof.Machine.execStewardOpDone h s
  | .ctxAssign c => Sys2Proof.Machine.execCtxAssign c s
  | .ctxRetire c => Sys2Proof.Machine.execCtxRetire c s
  | .contextClearDone c => Sys2Proof.Machine.execContextClearDone c s
  | .elogWrite => Sys2Proof.Machine.execElogWrite s
  | .elogTail w => Sys2Proof.Machine.execElogTail w s
  | .dbgUnlock key => Sys2Proof.Machine.execDbgUnlock key s
  | .tapBypass code => Sys2Proof.Machine.execTapBypass code s
  | .tapIdcode => Sys2Proof.Machine.execTapIdcode s
  | .tapSample pins scan => Sys2Proof.Machine.execTapSample pins scan s
  | .tapExtest pins scan => Sys2Proof.Machine.execTapExtest pins scan s
  | .tapClamp => Sys2Proof.Machine.execTapClamp s
  | .tapHighz => Sys2Proof.Machine.execTapHighz s
  | .dbgAccess dpa line => Sys2Proof.Machine.execDbgAccess dpa line s
  | .traceRead => Sys2Proof.Machine.execTraceRead s
  | .tapIjtag seg k => Sys2Proof.Machine.execTapIjtag seg k s
  | .tapReset => Sys2Proof.Machine.execTapReset s
  | .faultRecordWrite c => Sys2Proof.Machine.execFaultRecordWrite c s
  | .fqEnable port c => Sys2Proof.Machine.execFqEnable port c s
  | .fqTail port c w => Sys2Proof.Machine.execFqTail port c w s
  | .tevCmdSwap port c => Sys2Proof.Machine.execTevCmdSwap port c s
  | .linkRetrainDone m lanes ok => Sys2Proof.Machine.execLinkRetrainDone m lanes ok s
  | .stackTrained g sids rate lanes => Sys2Proof.Machine.execStackTrained g sids rate lanes s
  | .mixerCompareDone g agree => Sys2Proof.Machine.execMixerCompareDone g agree s
  | .dbgReadDone => Sys2Proof.Machine.execDbgReadDone s
  | .stwFrmLow => Sys2Proof.Machine.execStwFrmLow s
  | .parityError x => Sys2Proof.Machine.execParityError x s
  | .switchFault u => Sys2Proof.Machine.execSwitchFault u s

end Sys2Proof.Machine
end

