-- ==== Sys2Proof/Machine/Memory.lean ====
section
/-! DEFINITION. The canonical form of the two memories: what the cell lists of the banks and of the stacks look like, so
that equal contents are equal data. -/

namespace Sys2Proof.Machine

/-- No listed cell of the banks holds what it would read as unlisted. -/
def sramTrim (m : List Host.Cell) : Bool := m.all fun c => c.2 != sramDflt c.1

/-- No listed cell of a cleared stack holds what it would read as unlisted; over lost contents every written cell stays
listed, since what it held is open (R315). -/
def hbmTrim (base : List (Nat × StackBase)) (m : List Host.Cell) : Bool :=
  m.all fun c => match (find base (c.1 / 72 / 2 ^ 30)).getD (.undef 0) with
    | .undef _ => true
    | .zeros => c.2 != hbmDflt base c.1

/-- The canonical form of memory: addresses rise strictly, and no entry says what an unlisted address reads as. -/
def Memory.wf (s : State) : Bool :=
  rising s.sram && sramTrim s.sram && rising s.hbm && hbmTrim s.hbmBase s.hbm

end Sys2Proof.Machine
end

