-- ==== Sys2Proof/Safety.lean ====
section
/-! DEFINITION. What counts as a safe run, in the terms that claims use. -/

namespace Sys2Proof.Machine

/-- The device has stopped for no fatal error (R730). -/
def State.alive (s : State) : Bool := !s.isFatal

/-- A state that a claim may start from: memory in its canonical form, no fatal error. -/
def State.safe (s : State) : Bool := Memory.wf s && s.alive

/-- Nothing is left for the end of a step: no answer of the hall waits to be taken, no register access is held, and no
open step of event mode can close, because a crier has not arrived and none has failed. `State.finish` is then the
identity. -/
def State.quiet (s : State) : Bool :=
  s.hall.answers.isEmpty && s.heldRegs.isEmpty &&
  (!s.event.opened || ((List.range 8).all (fun g => (s.crier g).answer.all (· == 0)) &&
    (List.range 8).any fun g => (s.crier g).answer.isNone))

/-- A register write of a port reaches its register at once: the page exists, the port may write it, nothing holds it. -/
def State.writes (s : State) (port : Port) (p : Page) (off : Nat) (w : Word) : Bool :=
  pageValid p && s.portMay port p && !s.regHeld port p off (some w)

/-- A register read of a port is answered at once. -/
def State.reads (s : State) (port : Port) (p : Page) (off : Nat) : Bool :=
  pageValid p && s.portReads port p && !s.regHeld port p off none

/-- Every register reads as before, but for those at the listed DPAs. -/
def SameRegs (s t : State) (ks : List Nat) : Prop := ∀ p off, p.base + off ∉ ks → t.rd p off = s.rd p off

/-- Both memories hold what they held, and the spare map is the same. -/
def SameMem (s t : State) : Prop := t.sram = s.sram ∧ t.hbm = s.hbm ∧ t.hbmBase = s.hbmBase ∧ t.spares = s.spares

/-- Only registers at the listed DPAs have changed: every other piece of state is the same. -/
def RegsOnly (s t : State) (ks : List Nat) : Prop := t = { s with regs := t.regs } ∧ SameRegs s t ks

/-- The pace limiter (R671) meters nothing now: it is off, or no computation has given it a rate yet. -/
def State.unlimited (s : State) : Bool := !s.purser.limitOn || !s.purser.computed

/-! ### Requests of a module that are served within their own step -/

/-- A request of module m is taken from its buffer at once and passes the checks of every request: the module is UP, its
page is not halted, nothing waits in its buffer, the message fits the buffer, and R118, R248 and R260 refuse nothing. -/
def State.accepts (s : State) (m : Nat) (h : BitVec 128) (data : List Byte) : Prop :=
  s.modUp m = true ∧ s.modHeld m = false ∧ (s.link m).rx = [] ∧ (∃ u, s.rxAdmit m (s.mkMsg h data) = .ok u) ∧ s.reqCheck m h = none

/-- The response to a request: its opcode, tag, class, context and length as the request has them (Table 6-6). -/
def State.rspMsg (s : State) (m : Nat) (h : BitVec 128) (st detail poison xf : Nat) (data : List Byte) : TxMsg :=
  ⟨⟨mkHdr (rspOp (hOpc h)) (hTag h) (hSc h) (s.vcMap m (hSc h)) (hCtx h) st
    (if rspOp (hOpc h) = opREG_RSP then 3 else if rspOp (hOpc h) = opTALLY_RSP then 0 else hLen h - 1) detail poison xf, padSlots data⟩,
    s.vcMap m (hSc h), hCtx h, .rsp (hTag h)⟩

/-- The errand path of a gallery holds nothing and admits a class at any urgency, and SRAM accesses are open. -/
def State.pathFree (s : State) (g k : Nat) : Prop :=
  (s.path g).entries = [] ∧ (s.path g).combs = [] ∧ (∀ u, s.admits g 32 (fun _ => 0) k u = true) ∧
  s.running pgMMAP = true

/-- A memory request of module m names bytes of one line of a bank, by a translation that is cached and permits it, in no
mirrored region, and its gallery serves it at once. -/
def State.reachesLine (s : State) (m : Nat) (h : BitVec 128) (data : List Byte) (need : Need) (b l : Nat) : Prop :=
  s.accepts m h data ∧ hAddr h % 64 + hLen h ≤ 64 ∧ s.pathFree (m / 2) (hSc h) ∧ s.metered m = false ∧
  ∃ leaf, (s.xl (m / 2)).find (hCtx h) (hAddr h) = some leaf ∧ leaf.denies need = none ∧
    s.target (leaf.dpa (hAddr h)) = .ok (.sram b l) ∧ s.limOpen (b / 64) = true ∧ s.mirRegion (leaf.dpa (hAddr h)) = none ∧
    s.routeFree ⟨m / 2, hSc h, hCtx h, s.urgOf m⟩ (b / 64) = true

/-- The first hop towards gallery h admits the access with up to n - 1 others of its class ahead of it in the buffer. -/
def State.routeRoom (s : State) (a : Acc) (h n : Nat) : Prop :=
  a.remote h = true → ∀ x : List StairMsg, x.length < n → (∀ m ∈ x, m.cls = a.cls) →
    s.stairAdmits a.src (s.stairBuf (stairKey a.src (stairHop ((h + 8 - a.src) % 8)) 0 false) ++ x) a.cls a.urg = true

/-- The tally operation that a TALLY header of module m makes (Table 6-6). -/
def tallyReqOf (m : Nat) (h : BitVec 128) : TallyReq :=
  ⟨.module m (hTag h), hCtx h, tallyTop h, hb h 48 13, hb h 64 24, hXf h, hSc h, h, 0⟩

/-- Nothing waits in the hall, and no peer takes part. -/
def State.hallIdle (s : State) : Prop := s.hall.waiters = [] ∧ s.hall.held = [] ∧ s.twinState = twOFF

/-- The extra field of a TALLY_RSP that reports a tally: value, SATURATED, ORPHANED (Table 6-6). -/
def Tally.report (t : Tally) : Nat := t.val + b2n t.sat * 2 ^ 24 + b2n t.orph * 2 ^ 25

/-- Nothing of module m is at work inside the die: no descriptor in any queue, no stream request of it, nothing in its
gallery's errand path, nothing waiting or held in the hall. -/
def State.noWork (s : State) (m : Nat) : Prop :=
  (∀ q < 128, (s.queue q).descs = []) ∧ (s.link m).srds = [] ∧ (s.path (m / 2)).entries = [] ∧ (s.path (m / 2)).combs = [] ∧
  s.hall.waiters = [] ∧ s.hall.held = [] ∧ s.hall.holders = []

/-- A module's link has reset: nothing buffered either way, nothing outstanding, no credit (R279). -/
def LinkGone (s t : State) (m : Nat) : Prop :=
  t.modState m = 4 ∧ (t.link m).rx = [] ∧ (t.link m).tx = [] ∧ (t.link m).replay = [] ∧ (t.link m).tags = [] ∧ (t.link m).srds = [] ∧
  (t.link m).expSeq = 0 ∧ (∀ vc < 8, ∀ pool < 4, t.cred m vc pool = 0) ∧ SameMem s t ∧ t.hall = s.hall

/-! ### Rings, steps, the port -/

/-- The oldest command of a ring, read from the ring itself, is free to dispatch: one enabled slot serves the ring, its
foreman runs, nothing else of it is fetched or outstanding, and no scoreboard entry is in use. -/
def State.dispatches (s : State) (r g k : Nat) (x : RingCmd) : Prop :=
  s.ringHome r = some (g, k) ∧ s.running (fmnPage g) = true ∧ s.isFatal = false ∧ (s.ring r).fetched = [x] ∧ (s.ring r).out = [] ∧
  (s.ring r).stopped = false ∧ (s.ring r).list = none ∧ x.list = false ∧ x.last = false ∧ s.board g = []

/-- A ring's only command has been dispatched: it is outstanding with an outcome or none, HEAD is past it, and the other
rings are as before. -/
def RingSent (s t : State) (r : Nat) (x : RingCmd) (res : Option Nat) : Prop :=
  (∃ o, (t.ring r).out = [o] ∧ o.op = x.op ∧ o.tag = x.tag ∧ o.count = x.count ∧ o.res = res ∧ o.fin = false) ∧
  (t.ring r).fetched = [] ∧ t.head r = (x.count + 1) % 2 ^ 16 ∧ (∀ k, k ≠ r → t.ring k = s.ring k) ∧ t.queues = s.queues

/-- A TVA of a context names bytes of a bank line that a write may change at once: a cached translation permits it, the
line is in no mirrored region, its granules are good, no injection is armed, nothing holds the access. -/
def State.wordHome (s : State) (g c tva dpa b l : Nat) : Prop :=
  s.peekX g c tva .wr none = some (.ok dpa) ∧ dpa % 4 = 0 ∧ s.target dpa = .ok (.sram b l) ∧ s.mirRegion dpa = none ∧ b < 512 ∧ l < 3072 ∧
  s.running pgMMAP = true ∧ s.limOpen (b / 64) = true ∧ s.flag (bnkPage b) F.BNK_ECC_INJECT_ARM = false ∧
  (∀ j < 8, (s.granPeek b l j).cls = .good)

/-- Four bytes of one bank line hold a word, and every other byte of both memories is as before. -/
def WordWritten (s t : State) (b l o v : Nat) : Prop :=
  leAt (t.linePeek b l).bytes o 4 = v ∧ (∀ i < 64, i < o ∨ o + 4 ≤ i → byteAt (t.linePeek b l).bytes i = byteAt (s.linePeek b l).bytes i) ∧
  (∀ b' l', b' < 512 → l' < 3072 → b' ≠ b ∨ l' ≠ l → t.linePeek b' l' = s.linePeek b' l') ∧ t.hbm = s.hbm ∧ t.spares = s.spares

/-- A message of the peer is taken from M15's buffer at once: M15 is the twin link and UP, its buffer is empty, and the
message fits it. -/
def State.twinTakes (s : State) (op : Nat) (h : BitVec 128) (data : List Byte) : Prop :=
  hOpc h = op ∧ s.isTwin 15 = true ∧ s.modUp 15 = true ∧ (s.link 15).rx = [] ∧ ∃ u, s.rxAdmit 15 (s.mkMsg h data) = .ok u

/-- The M_ACK of a mirrored operation (Table 14-2). -/
def MirMsg.ackMsg (x : MirMsg) (st : Nat) : TxMsg := ⟨⟨mkHdr opM_ACK x.tag x.sc 0 x.ctx st 0 0 0 x.xf, []⟩, 0, x.ctx, .plain⟩

/-- A good request frame of a CMD that the steward port takes: 4 to 95 bytes, its length that of its CMD, its CRC right. -/
def State.portTakes (s : State) (cmd : Nat) (fr : List Byte) : Prop :=
  s.portAnswers = true ∧ s.stw.long = none ∧ fr.length < 96 ∧ 4 ≤ fr.length ∧
  crc16 (fr.take (fr.length - 2)) = leAt fr (fr.length - 2) 2 ∧ byteAt fr 0 = cmd ∧ fr.length = frameBytes fr

/-- The steward port has start-up behind it and no operation under a handle. -/
def State.portFree (s : State) : Prop := s.stw.queue = [] ∧ s.stw.done = [] ∧ s.phase = 6

/-- A memory operation of the steward port names bytes of one bank line that serves it. -/
def State.portLine (s : State) (a n b l : Nat) : Prop :=
  a % 64 + n ≤ 64 ∧ s.target a = .ok (.sram b l) ∧ region a = .sram ∧ s.running pgMMAP = true ∧ s.mirRegion a = none

/-- A line of a bank that takes a record at once. -/
def State.recordHome (s : State) (dpa b l : Nat) : Prop :=
  s.target dpa = .ok (.sram b l) ∧ s.mirRegion dpa = none ∧ b < 512 ∧ l < 3072 ∧ s.running pgMMAP = true ∧
  s.flag (bnkPage b) F.BNK_ECC_INJECT_ARM = false ∧ (∀ j < 8, (s.granPeek b l j).cls = .good)

/-- Bytes of one bank line hold a string, and every other byte of both memories is as before. -/
def BytesWritten (s t : State) (b l o : Nat) (bs : List Byte) : Prop :=
  (∀ i < bs.length, byteAt (t.linePeek b l).bytes (o + i) = byteAt bs i) ∧
  (∀ i < 64, i < o ∨ o + bs.length ≤ i → byteAt (t.linePeek b l).bytes i = byteAt (s.linePeek b l).bytes i) ∧
  (∀ b' l', b' < 512 → l' < 3072 → b' ≠ b ∨ l' ≠ l → t.linePeek b' l' = s.linePeek b' l') ∧ t.hbm = s.hbm ∧ t.spares = s.spares

/-- One step leads from a state to another. -/
def Steps (s t : State) : Prop := step s = .next t

/-- A run of n commands that neither faults nor is refused. -/
def SafeRun : Nat → State → Prop
  | 0, _ => True
  | n + 1, s => ∃ t, Steps s t ∧ SafeRun n t

end Sys2Proof.Machine
end

