-- ==== Sys2Proof/Certificates/Slice0/Obligations.lean ====
section
/-! DEFINITION. What is to be proved about the model. Where a statement rests on a choice of the model, its docstring says so
and names the log entry. -/

open Sys2Proof Sys2Proof.Machine

/-- For every command c and every state, a step with c at the front of the queue is exec of c on the state whose queue is
the rest. (spec/95 (one row is one step)) -/
def Obligations.StepTakesTheFrontCommand : Prop :=
  ∀ (c : Instr) (cs : List Instr) (s : State),
    step { s with pending := c :: cs } = exec c { s with pending := cs } ∧ step (s.withFront c) = exec c s

/-- A step on an empty queue leaves the whole state as it is. This is the model's own convention (log entry 1), no rule of
the spec: a tick is a command of its own (TICK). (log entry 1) -/
def Obligations.EmptyQueueIdles : Prop :=
  ∀ s : State, s.pending = [] → step s = .next s

/-- In the reset state the boot phase is P0, STW_CK is low, FATAL_N and THERM_TRIP_N are released, no module is UP, every
queue and buffer is empty, TIME_STATUS.UNSET is 1, the tick count is 0, PAGE_ID of gallery 3's ARB page names block
type 0x13 and instance 3, and both memories are in canonical form. What the spec gives no reset value for is the
model's choice (log entries 3 and 4). (R703, R707, R66, R117, log entries 3 and 4) -/
def Obligations.ResetStateIsColdResetInP0 : Prop :=
  State.reset.phase = 0 ∧ State.reset.outs = {} ∧ State.reset.pending = [] ∧ (∀ m < 16, State.reset.modUp m = false) ∧
  (∀ g < 8, State.reset.hcState g = 0) ∧ State.reset.flag pgTBS F.TBS_TIME_STATUS_UNSET = true ∧ State.reset.ticks = 0 ∧
  State.reset.rd (arbPage 3) 0 = 0x01030013#32 ∧ Memory.wf State.reset = true ∧ State.reset.quiet = true

/-- For every command and every state exec answers a next state. Error events are register state and stop nothing (R728);
a command whose condition does not hold leaves the state as it is (the model's convention, log entry 5). (R728,
spec/95) -/
def Obligations.EveryCommandAnswersNext : Prop :=
  ∀ (c : Instr) (s : State), ∃ t, exec c s = .next t

/-- For every state, if a step answers t, then the fuses of t are those of s, and the queue of t is that of s without its
first command. So fuses and waiting commands are changed by nothing the block does, resets included. (R174, R703,
R718, spec/95) -/
def Obligations.FusesAndQueueAreNotACommandsToWrite : Prop :=
  ∀ s t : State, step s = .next t → t.fuses = s.fuses ∧ t.pending = s.pending.tail

/-- For every state whose banks and stacks are in canonical form (addresses strictly rising, no entry that says what an
unlisted address reads as), if a step answers t, then the memories of t are in canonical form. So equal contents are
equal data after any command, resets, clears, repairs and injections included. (R132, R133, R285, R315, R316, spec/04,
spec/07) -/
def Obligations.EveryStepKeepsMemoryCanonical : Prop :=
  ∀ s t : State, Memory.wf s = true → step s = .next t → Memory.wf t = true

/-- In every state PWR_OK_FALL answers a state held in cold reset: every register is at its reset word, nothing drains,
the SRAM, the spare map, the stack controllers' work and the error log are empty, every output is released or low, and
the fuses, the TAP and the waiting commands are as before. (R718) -/
def Obligations.PowerFailureHoldsTheDieInColdReset : Prop :=
  ∀ s : State, ∃ t, exec .pwrOkFall s = .next t ∧ t.boot.held = true ∧ t.boot.kind = .cold ∧ t.boot.draining = false ∧
    (∀ p off, t.rd p off = t.resetReg p off) ∧ t.phase = 0 ∧ t.sram = [] ∧ t.spares = [] ∧ t.hcs = [] ∧ t.elog = {} ∧
    t.links = [] ∧ t.queues = [] ∧ t.rings = [] ∧ t.outs = {} ∧ t.fuses = s.fuses ∧ t.tap = s.tap ∧ t.pending = s.pending

/-- In a quiet state held in cold reset, RESET_RELEASE with straps x answers the same state with the straps x and the hold
over; where no register has been written, the STRAPS register then shows x. In a quiet state that is not held it
changes nothing. (R703, R701, R761) -/
def Obligations.ResetReleaseSamplesTheStraps : Prop :=
  (∀ (s : State) (x : Straps), s.quiet = true → s.boot.held = true →
    ∃ t, exec (.resetRelease x) s = .next t ∧ t = { s with straps := x, boot := { s.boot with held := false } } ∧
      (s.regs = [] → t.flag pgBOOT F.BOOT_STRAPS_TWIN_EN = x.twinEn ∧ t.flag pgBOOT F.BOOT_STRAPS_TWIN_ROLE = x.twinRole ∧
        t.flag pgBOOT F.BOOT_STRAPS_REF_PRI = x.refPri ∧ t.flag pgBOOT F.BOOT_STRAPS_TEST_MODE = x.testMode)) ∧
  (∀ (s : State) (x : Straps), s.quiet = true → s.boot.held = false → exec (.resetRelease x) s = .next s)

/-- (1) RST_N in a quiet state that is neither held nor stopped by a fuse error, outside an unfinished cold boot, starts
the drain: the kind is recorded, every module leaves UP, and the banks keep their bytes. (2) In an unfinished cold
boot without a fatal error it does what PWR_OK falling does. (3) While the die is held it is ignored. (4) The 1 ms
timer after FATAL_N with FATAL_WARM set starts the same drain. (5) The end of the drain is P0 of the warm reset: phase
0, no drain, LAST_RESET by the kind, the SRAM, the links, the queues, the rings and the hall empty. (R704, R705, R706,
R707, R719) -/
def Obligations.WarmResetDrainsThenStartsP0 : Prop :=
  (∀ s : State, s.quiet = true → s.boot.held = false → s.boot.fuseErr = false →
    (s.boot.kind = .cold → s.boot.done = true ∨ s.isFatal = true) →
    ∃ t, exec .warmReset s = .next t ∧ t.boot.draining = true ∧ t.boot.kind = .rstN ∧ t.boot.done = false ∧
      (∀ m < 16, t.modUp m = false) ∧ t.sram = s.sram) ∧
  (∀ s : State, s.boot.held = false → s.boot.fuseErr = false → s.boot.kind = .cold → s.boot.done = false → s.isFatal = false →
    exec .warmReset s = exec .pwrOkFall s) ∧
  (∀ s : State, s.quiet = true → s.boot.held = true → exec .warmReset s = .next s) ∧
  (∀ s : State, s.quiet = true → s.isFatal = true → s.flag pgSTW F.STW_STW_CTRL_FATAL_WARM = true → s.boot.fatalAt + 1000 ≤ s.ticks →
    s.boot.draining = false → s.boot.fuseErr = false → s.boot.held = false →
    ∃ t, exec .fatalWarmTimer s = .next t ∧ t.boot.draining = true ∧ t.boot.kind = .fatalWarm ∧ t.boot.done = false ∧
      (∀ m < 16, t.modUp m = false) ∧ t.sram = s.sram) ∧
  (∀ (s : State) (late : Bool), s.boot.draining = true →
    ∃ t, exec (.warmDrainDone late) s = .next t ∧ t.phase = 0 ∧ t.boot.draining = false ∧ t.boot.kind = s.boot.kind ∧
      t.get pgBOOT F.BOOT_BOOT_STATUS_LAST_RESET = (if s.boot.kind = .fatalWarm then 2 else 1) ∧
      t.sram = [] ∧ t.links = [] ∧ t.queues = [] ∧ t.rings = [] ∧ t.hall = {} ∧ t.heldRegs = [])

/-- (1) P0 ends into P1 with its time, and on a cold reset with the factory spare map. (2) P1 ends into P2 when a
reference is present or the reset is warm, and starts STW_CK and the time base on a cold reset; without a reference a
cold die stays in P1 with STW_CK running and TB_MODE P1_WAIT. (3) P2 ends into P3 when no slot and no stair link
failed, with every enabled module in TRAINING and every stair link UP; a failed stair link stops it in P2. (4) P3 ends
into P4 once every enabled module is UP, BOOT_MODULES naming the modules UP. (5) P4 ends into P5 once every stack has
trained and is UP, with BOOT_STACKS showing all eight and FATAL_N released. (R707, R82, R709, R277, R314, R711, R42,
R93) -/
def Obligations.BootPhasesFollowInOrder : Prop :=
  (∀ (s : State) (us : Nat) (fails : BitVec 64) (fuse : Bool), s.quiet = true → s.inPhase 0 = true → us < 2 ^ 32 →
    ∃ t, exec (.p0End us fails fuse) s = .next t ∧ t.phase = 1 ∧ t.get pgBOOT (F.BOOT_PHASE_US_US.at 0) = us ∧
      (s.boot.kind = .cold → t.boot.fuseErr = fuse ∧ t.spares = s.fuses.spares.map fun e => (e.1, ⟨e.2, true, true, false⟩)) ∧
      (s.boot.kind ≠ .cold → t.spares = s.spares) ∧ t.lfsrs = [] ∧ t.sram = s.sram ∧ t.hbm = s.hbm) ∧
  (∀ (s : State) (us : Nat) (a b agree : Bool) (v i : AvsRead), s.quiet = true → s.inPhase 1 = true → us < 2 ^ 32 →
    s.boot.fuseErr = false → (s.boot.kind = .cold → (a || b) = true) →
    ∃ t, exec (.p1End us a b agree v i) s = .next t ∧ t.phase = 2 ∧ t.get pgBOOT (F.BOOT_PHASE_US_US.at 1) = us ∧
      (s.boot.kind = .cold → t.outs.stwCk = true ∧ t.time.running = true) ∧ SameMem s t) ∧
  (∀ (s : State) (us : Nat) (agree : Bool) (v i : AvsRead), s.quiet = true → s.inPhase 1 = true → s.boot.kind = .cold →
    ∃ t, exec (.p1End us false false agree v i) s = .next t ∧ t.phase = 1 ∧ t.outs.stwCk = true ∧ t.tbMode = 2 ∧ SameMem s t) ∧
  (∀ s : State, s.quiet = true → s.inPhase 2 = true → s.flag pgBOOT F.BOOT_BOOT_STATUS_STOPPED = false →
    ∃ t, exec (.p2End [] 0) s = .next t ∧ t.phase = 3 ∧ (s.spares = [] → t.sram = []) ∧ t.spares = s.spares ∧
      (∀ g < 8, t.rd (gswPage g) 0x104 = 15#32) ∧
      (∀ m < 16, s.flag (modPage m) F.MOD_MOD_CTRL_ENABLE = true → t.modState m = 1)) ∧
  (∀ (s : State) (stair : BitVec 32), s.quiet = true → s.inPhase 2 = true → s.flag pgBOOT F.BOOT_BOOT_STATUS_STOPPED = false → stair ≠ 0 →
    ∃ t, exec (.p2End [] stair) s = .next t ∧ t.phase = 2 ∧ t.flag pgBOOT F.BOOT_BOOT_STATUS_STOPPED = true) ∧
  (∀ s : State, s.quiet = true → s.inPhase 3 = true → s.straps.twinEn = false →
    (∀ m < 16, s.flag (modPage m) F.MOD_MOD_CTRL_ENABLE = true → s.modUp m = true) →
    ∃ t, exec .p3End s = .next t ∧ t.phase = 4 ∧ t.get pgBOOT F.BOOT_BOOT_MODULES_UP = State.upMask s.modUp 16 ∧ SameMem s t) ∧
  (∀ s : State, s.quiet = true → s.inPhase 4 = true → (∀ g < 8, (s.hc g).trained = true) → (∀ g < 8, s.hcState g = 2) →
    ∃ t, exec .p4End s = .next t ∧ t.phase = 5 ∧ t.outs.fatalN = false ∧ t.boot.done = true ∧
      t.get pgBOOT F.BOOT_BOOT_STACKS_UP = 0xFF ∧ t.get pgBOOT F.BOOT_BOOT_STACKS_FAILED = 0 ∧ SameMem s t)

/-- A write of READY that the steward port serves, in P5, answers a state in phase READY with READY_US the sum of the
phase times and the tinkers' sweeps at their start; in another phase the phase stays and BOOT ERR_STATUS.READY_IGNORED
is set. (R714) -/
def Obligations.ReadyEndsConfiguration : Prop :=
  (∀ s : State, s.quiet = true → s.writes .steward pgBOOT 0x104 1 = true → s.inPhase 5 = true → s.phaseTime < 2 ^ 32 →
    s.bootUs 5 + s.phaseTime < 2 ^ 32 →
    ∃ t, exec .bootReady s = .next t ∧ t.phase = 6 ∧ t.get pgBOOT F.BOOT_READY_US_US = s.bootUs 5 + s.phaseTime ∧
      (∀ g, (t.tinker g).sweepBank = 0 ∧ (t.tinker g).sweepRegion = 0) ∧ SameMem s t ∧
      SameRegs s t [pgBOOT.base + 0x100, pgBOOT.base + 0x134, pgBOOT.base + 0x144]) ∧
  (∀ s : State, s.quiet = true → s.writes .steward pgBOOT 0x104 1 = true → s.inPhase 5 = false →
    ∃ t, exec .bootReady s = .next t ∧ t.phase = s.phase ∧ (t.rd pgBOOT 0x020).getLsbD Err.BOOT_READY_IGNORED = true ∧ SameMem s t)

/-- When a port reads TIME_NS at once, its last read word is the counter's nanoseconds, its reads of TIME_SEC_LO and
TIME_SEC_HI then return the seconds of the same instant, the snapshot of every other port is as before, and nothing
but the port's own snapshot and read word has changed. (R68) -/
def Obligations.TimeReadsReturnOneInstant : Prop :=
  ∀ (s : State) (port : Port), s.quiet = true → s.reads port pgTBS 0x120 = true →
    ∃ t, exec (.timeNsRead port) s = .next t ∧ find t.readRsp port.code = some (wordOf s.time.ns) ∧
      (t.readReg port pgTBS 0x124).1 = wordOf (s.time.sec % 2 ^ 32) ∧
      (t.readReg port pgTBS 0x128).1 = wordOf (s.time.sec / 2 ^ 32 % 2 ^ 16) ∧
      (∀ q off, q ≠ port → off < 0x1000 → t.portRd q pgTBS off = s.portRd q pgTBS off) ∧
      t = { s with portRegs := t.portRegs, readRsp := t.readRsp }

/-- (1) A read at once of the LO half of a 64-bit counter, named by its DPA, returns the LO word; the port's next read of
the HI half returns the HI word of the same instant, and nothing else has changed. (2) A read at once of TRC_DATA_3
returns word 3 of the trace entry that the port's index selects, and the index moves on by one, modulo 4096. (R44,
R115, R649, Table 15-11) -/
def Obligations.CounterAndTraceReadsMoveTheirOwnSnapshot : Prop :=
  (∀ (s : State) (port : Port) (dpa : BitVec 48) (p : Page) (off : Nat), s.quiet = true → region dpa.toNat = .page p off → dpa.toNat % 4 = 0 →
    wideHalf p.kind off = some true → 0x100 ≤ off → p.kind ≠ .TEV → s.reads port p off = true →
    ∃ t, exec (.cntSnapshotRead port dpa) s = .next t ∧ find t.readRsp port.code = some (s.rd p off) ∧
      t.portRd port p (off + 4) = s.rd p (off + 4) ∧ t = { s with portRegs := t.portRegs, readRsp := t.readRsp }) ∧
  (∀ (s : State) (port : Port), s.quiet = true → s.reads port pgDBG 0x14C = true →
    ∃ t, exec (.trcDataRead port) s = .next t ∧ find t.readRsp port.code = some (s.trcRead port 3) ∧
      t.portRd port pgDBG 0x138 = wordOf (((s.portRd port pgDBG 0x138).toNat + 1) % 4096) ∧
      t = { s with portRegs := t.portRegs, readRsp := t.readRsp })

/-- For a served write of TIME_APPLY: (1) with nothing pending and TIME_SET_NS below a second, NOW loads the three values
and sets APPLIED, AT_NEXT_SECOND sets PENDING; (2) with nothing pending and TIME_SET_NS of a second or more both
change nothing and set APPLY_REJECT; (3) while PENDING both only set SET_IGNORED; (4) CANCEL clears PENDING without
applying. (5) At the roll-over within a running tick the counter takes the pending values, TIME_SET_NS below a second,
or, with none pending, goes to 0 with the next second, modulo 2^48. Nothing else changes. (R71) -/
def Obligations.TimeApplySetsTheCounter : Prop :=
  (∀ s : State, s.quiet = true → s.writes .steward pgTBS 0x13C 1 = true → s.flag pgTBS F.TBS_TIME_STATUS_PENDING = false → s.setNs < nsWrap →
    ∃ t, exec .timeNow s = .next t ∧ t.time = { s.time with sec := s.setSec, ns := s.setNs } ∧
      t.flag pgTBS F.TBS_TIME_STATUS_APPLIED = true ∧ RegsOnly { s with time := t.time } t [pgTBS.base + 0x140]) ∧
  (∀ s : State, s.quiet = true → s.writes .steward pgTBS 0x13C 2 = true → s.flag pgTBS F.TBS_TIME_STATUS_PENDING = false → s.setNs < nsWrap →
    ∃ t, exec .atNextSecond s = .next t ∧ t.flag pgTBS F.TBS_TIME_STATUS_PENDING = true ∧ RegsOnly s t [pgTBS.base + 0x140]) ∧
  (∀ s : State, s.quiet = true → s.flag pgTBS F.TBS_TIME_STATUS_PENDING = false → nsWrap ≤ s.setNs →
    (s.writes .steward pgTBS 0x13C 1 = true → ∃ t, exec .timeNow s = .next t ∧
      t.flag pgTBS F.TBS_TIME_STATUS_APPLY_REJECT = true ∧ t.flag pgTBS F.TBS_TIME_STATUS_PENDING = false ∧ RegsOnly s t [pgTBS.base + 0x140]) ∧
    (s.writes .steward pgTBS 0x13C 2 = true → ∃ t, exec .atNextSecond s = .next t ∧
      t.flag pgTBS F.TBS_TIME_STATUS_APPLY_REJECT = true ∧ t.flag pgTBS F.TBS_TIME_STATUS_PENDING = false ∧ RegsOnly s t [pgTBS.base + 0x140])) ∧
  (∀ s : State, s.quiet = true → s.flag pgTBS F.TBS_TIME_STATUS_PENDING = true →
    (s.writes .steward pgTBS 0x13C 1 = true → ∃ t, exec .timeNow s = .next t ∧
      t.flag pgTBS F.TBS_TIME_STATUS_SET_IGNORED = true ∧ t.flag pgTBS F.TBS_TIME_STATUS_PENDING = true ∧ RegsOnly s t [pgTBS.base + 0x140]) ∧
    (s.writes .steward pgTBS 0x13C 2 = true → ∃ t, exec .atNextSecond s = .next t ∧
      t.flag pgTBS F.TBS_TIME_STATUS_SET_IGNORED = true ∧ t.flag pgTBS F.TBS_TIME_STATUS_PENDING = true ∧ RegsOnly s t [pgTBS.base + 0x140]) ∧
    (s.writes .steward pgTBS 0x13C 3 = true → ∃ t, exec .timeApplyCancel s = .next t ∧
      t.flag pgTBS F.TBS_TIME_STATUS_PENDING = false ∧ RegsOnly s t [pgTBS.base + 0x140])) ∧
  (∀ s : State, s.quiet = true → s.time.running = true → s.time.ns ≤ nsWrap → s.setNs < nsWrap → nsWrap - s.time.ns + s.time.early ≤ s.tickNs.1 →
    ∃ t, exec .timeRollover s = .next t ∧ RegsOnly { s with time := t.time } t [pgTBS.base + 0x140] ∧
      (s.flag pgTBS F.TBS_TIME_STATUS_PENDING = true → t.time.sec = s.setSec ∧ t.time.ns = s.setNs ∧
        t.flag pgTBS F.TBS_TIME_STATUS_APPLIED = true ∧ t.flag pgTBS F.TBS_TIME_STATUS_PENDING = false) ∧
      (s.flag pgTBS F.TBS_TIME_STATUS_PENDING = false → t.time.sec = (s.time.sec + 1) % 2 ^ 48 ∧ t.time.ns = 0))

/-- While the time base runs, TICK adds one to the 64-bit TICK_COUNT. Where no second ends within the tick TIME_NS
advances by the tick's adjusted nanoseconds, less those that a roll-over event has already advanced, and TIME_SEC
stays. Where one ends with no apply pending, TIME_SEC goes on by one modulo 2^48. Memory, the hall, the queues, the
rings, the errands and the spare map are as before. With the time base stopped a tick changes nothing. (R52, R66, R67,
Table 2-12) -/
def Obligations.TickMovesTheTimeCounter : Prop :=
  (∀ s : State, s.quiet = true → s.time.running = true →
    ∃ t, exec .tick s = .next t ∧ t.ticks = (s.ticks + 1) % 2 ^ 64 ∧ SameMem s t ∧ t.hall = s.hall ∧ t.queues = s.queues ∧
      t.rings = s.rings ∧ t.paths = s.paths ∧ t.fuses = s.fuses ∧ t.straps = s.straps ∧ t.outs = s.outs ∧
      (s.time.ns + (s.tickNs.1 - s.time.early) < nsWrap →
        t.time.ns = s.time.ns + (s.tickNs.1 - s.time.early) ∧ t.time.sec = s.time.sec) ∧
      (nsWrap ≤ s.time.ns + (s.tickNs.1 - s.time.early) → s.flag pgTBS F.TBS_TIME_STATUS_PENDING = false →
        t.time.ns = s.time.ns + (s.tickNs.1 - s.time.early) - nsWrap ∧ t.time.sec = (s.time.sec + 1) % 2 ^ 48)) ∧
  (∀ s : State, s.quiet = true → s.time.running = false → exec .tick s = .next s)

/-- Out of P0, TURN_PERIOD_UPDATE stores the window's 16-bit period with VALID for every gallery whose monitor passed and
clears VALID for every other; with no failure TURN_PERIOD_DEV is the largest of the eight. A served CLEAR_MAX sets all
eight TURN_MAX to 0 and changes no other register. Only registers, the error log and the trace change. (R49, R50, R80,
Table 2-13) -/
def Obligations.TurnTelemetryShowsTheWindow : Prop :=
  (∀ (s : State) (periods : BitVec 128) (fails : BitVec 8), s.quiet = true → s.phase ≠ 0 →
    ∃ t, exec (.turnPeriodUpdate periods fails) s = .next t ∧ t = { s with regs := t.regs, elog := t.elog, trace := t.trace } ∧
      (∀ g < 8, fails.toNat.testBit g = false → t.get pgTBS (F.TBS_TURN_PERIOD_PERIOD.at g) = bits periods.toNat (16 * g) 16 ∧
        t.flag pgTBS (F.TBS_TURN_PERIOD_VALID.at g) = true) ∧
      (∀ g < 8, fails.toNat.testBit g = true → t.flag pgTBS (F.TBS_TURN_PERIOD_VALID.at g) = false) ∧
      (fails = 0 → t.flag pgTBS F.TBS_TURN_PERIOD_DEV_VALID = true ∧
        (∀ g < 8, bits periods.toNat (16 * g) 16 ≤ t.get pgTBS F.TBS_TURN_PERIOD_DEV_PERIOD) ∧
        ∃ g < 8, t.get pgTBS F.TBS_TURN_PERIOD_DEV_PERIOD = bits periods.toNat (16 * g) 16)) ∧
  (∀ s : State, s.quiet = true → s.writes .steward pgTBS 0x1A8 1 = true →
    ∃ t, exec .clearMax s = .next t ∧ (∀ g < 8, t.get pgTBS (F.TBS_TURN_MAX_PERIOD.at g) = 0) ∧
      RegsOnly s t ((List.range 8).map fun g => pgTBS.base + 0x180 + 4 * g))

/-- While the time base is LOCKED on usable references that lost no edge, with the oscillator working and REVERT off, a
window whose three deviations are all within WARN_PPM stores them, grades both references GOOD and keeps the
selection. Only registers, the time base, the error log and the trace change. (R57, R58, Table 2-5, Table 2-11) -/
def Obligations.ReferenceWindowGradesBothGood : Prop :=
  ∀ (s : State) (dAB dAO dBO : BitVec 16), s.quiet = true → s.time.running = true → s.tbMode = 0 → s.time.oscFailed = false →
    s.grade false ≤ 1 → s.grade true ≤ 1 → s.flag pgTBS F.TBS_REF_CTRL_REVERT = false →
    dAB.toInt.natAbs ≤ s.get pgTBS F.TBS_REF_CTRL_WARN_PPM → dAO.toInt.natAbs ≤ s.get pgTBS F.TBS_REF_CTRL_WARN_PPM →
    dBO.toInt.natAbs ≤ s.get pgTBS F.TBS_REF_CTRL_WARN_PPM → s.get pgTBS F.TBS_REF_CTRL_WARN_PPM ≤ s.get pgTBS F.TBS_REF_CTRL_OUT_PPM →
    ∃ t, exec (.refWindowEnd dAB dAO dBO false false) s = .next t ∧ t.get pgTBS F.TBS_DEV_AB_PPM = dAB.toNat ∧
      t.get pgTBS F.TBS_DEV_AO_PPM = dAO.toNat ∧ t.get pgTBS F.TBS_DEV_BO_PPM = dBO.toNat ∧ t.grade false = 0 ∧ t.grade true = 0 ∧
      t.selRef = s.selRef ∧ t.tbMode = 0 ∧ t = { s with regs := t.regs, time := t.time, elog := t.elog, trace := t.trace }

/-- REF_LOST in LOCKED, oscillator working: (1) when the selected reference is lost and the other is GOOD or WARN, the
other is selected, REF_SWITCH_COUNT counts and ERR_STATUS.REF_SWITCH is set; (2) when the other is OUT or LOST the
time base enters HOLDOVER with HOLDOVER_SEC 0 and sets ERR_STATUS.HOLDOVER; (3) when the other reference is lost the
selection stays. (4) REF_LOST in HOLDOVER, oscillator working, grades the reference LOST and leaves mode and
selection. After an oscillator fault: (5) a lost selected reference is replaced by the other if that is present, else
the time base stops with TB_MODE STOPPED, and the device is fatal; (6) the other's loss leaves mode and selection. (7)
In P1_WAIT or STOPPED REF_LOST changes nothing (the model's convention, log entry 22). (8) OSC_FAULT sets
ERR_STATUS.OSC_FAULT and asserts ALERT_N; outside HOLDOVER it changes neither mode nor selection; (9) in HOLDOVER with
neither reference present it stops the time base, and the device is fatal; (10) in HOLDOVER with the selected
reference present it returns to LOCKED on it (the model's choice, log entry 171). Memory and the time counter are as
before. (R60, R63, R79, Table 2-10) -/
def Obligations.LostReferenceSwitchesOrHoldsOver : Prop :=
  (∀ s : State, s.quiet = true → s.time.running = true → s.tbMode = 0 → s.time.oscFailed = false → s.grade (!s.selRef) ≤ 1 →
    s.get pgTBS F.TBS_REF_SWITCH_COUNT < 0xFFFE →
    ∃ t, exec (.refLost s.selRef) s = .next t ∧ t.grade s.selRef = 3 ∧ t.selRef = !s.selRef ∧ t.tbMode = 0 ∧
      t.get pgTBS F.TBS_REF_SWITCH_COUNT = s.get pgTBS F.TBS_REF_SWITCH_COUNT + 1 ∧
      (t.rd pgTBS 0x020).getLsbD Err.TBS_REF_SWITCH = true ∧ SameMem s t ∧ t.time.ns = s.time.ns ∧ t.time.sec = s.time.sec) ∧
  (∀ s : State, s.quiet = true → s.time.running = true → s.tbMode = 0 → s.time.oscFailed = false → 2 ≤ s.grade (!s.selRef) →
    ∃ t, exec (.refLost s.selRef) s = .next t ∧ t.tbMode = 1 ∧ t.get pgTBS F.TBS_HOLDOVER_SEC = 0 ∧
      (t.rd pgTBS 0x020).getLsbD Err.TBS_HOLDOVER = true ∧ SameMem s t ∧ t.time.ns = s.time.ns ∧ t.time.sec = s.time.sec) ∧
  (∀ s : State, s.quiet = true → s.time.running = true → s.tbMode = 0 → s.time.oscFailed = false → s.grade s.selRef ≤ 1 →
    ∃ t, exec (.refLost (!s.selRef)) s = .next t ∧ t.grade (!s.selRef) = 3 ∧ t.selRef = s.selRef ∧ t.tbMode = 0 ∧ SameMem s t) ∧
  (∀ (s : State) (b : Bool), s.quiet = true → s.time.running = true → s.tbMode = 1 → s.time.oscFailed = false →
    ∃ t, exec (.refLost b) s = .next t ∧ t.grade b = 3 ∧ t.tbMode = 1 ∧ t.selRef = s.selRef ∧ SameMem s t) ∧
  (∀ s : State, s.quiet = true → s.time.running = true → s.tbMode = 0 → s.time.oscFailed = true →
    ((s.refSt (!s.selRef)).present = true → ∃ t, exec (.refLost s.selRef) s = .next t ∧ t.grade s.selRef = 3 ∧ t.selRef = !s.selRef ∧
      t.tbMode = 0 ∧ (t.rd pgTBS 0x020).getLsbD Err.TBS_REF_SWITCH = true ∧ SameMem s t) ∧
    ((s.refSt (!s.selRef)).present = false → s.isFatal = false → ∃ t, exec (.refLost s.selRef) s = .next t ∧ t.grade s.selRef = 3 ∧
      t.tbMode = 3 ∧ t.time.running = false ∧ t.isFatal = true ∧ t.outs.fatalN = true)) ∧
  (∀ s : State, s.quiet = true → s.time.running = true → s.tbMode = 0 → s.time.oscFailed = true → s.grade s.selRef ≤ 2 →
    ∃ t, exec (.refLost (!s.selRef)) s = .next t ∧ t.grade (!s.selRef) = 3 ∧ t.selRef = s.selRef ∧ t.tbMode = 0 ∧ SameMem s t) ∧
  (∀ (s : State) (b : Bool), s.quiet = true → 2 ≤ s.tbMode → exec (.refLost b) s = .next s) ∧
  (∀ s : State, s.quiet = true → s.tbMode ≠ 1 →
    ∃ t, exec .oscFault s = .next t ∧ t.time = { s.time with oscFailed := true } ∧ (t.rd pgTBS 0x020).getLsbD Err.TBS_OSC_FAULT = true ∧
      t.alertN = true ∧ t.tbMode = s.tbMode ∧ t.selRef = s.selRef ∧ t = { s with regs := t.regs, time := t.time, elog := t.elog, trace := t.trace }) ∧
  (∀ s : State, s.quiet = true → s.time.running = true → s.tbMode = 1 → s.isFatal = false → (s.refSt false).present = false → (s.refSt true).present = false →
    ∃ t, exec .oscFault s = .next t ∧ t.tbMode = 3 ∧ t.time.running = false ∧ t.time.oscFailed = true ∧ t.isFatal = true ∧ t.outs.fatalN = true) ∧
  (∀ s : State, s.quiet = true → s.time.running = true → s.tbMode = 1 → (s.refSt s.selRef).present = true →
    ∃ t, exec .oscFault s = .next t ∧ t.tbMode = 0 ∧ t.selRef = s.selRef ∧ t.time.oscFailed = true ∧ SameMem s t)

/-- For a served write of FORCE with legal thresholds: (1) naming a reference graded OUT or LOST it changes neither FORCE
nor the selection and sets ERR_STATUS.BAD_VALUE; (2) naming a usable reference in LOCKED mode it stores FORCE and that
reference is selected; (3) FORCE 0 is stored and leaves the selection. (R78) -/
def Obligations.ForceSelectsOnlyAUsableReference : Prop :=
  (∀ (s : State) (b : Bool), s.quiet = true →
    s.writes .steward pgTBS 0x100 (wput (s.rd pgTBS 0x100) F.TBS_REF_CTRL_FORCE.lo 2 (if b then 2 else 1)) = true →
    1 ≤ s.get pgTBS F.TBS_REF_CTRL_WARN_PPM → s.get pgTBS F.TBS_REF_CTRL_WARN_PPM < s.get pgTBS F.TBS_REF_CTRL_OUT_PPM →
    (2 ≤ s.grade b → ∃ t, exec (.refForce (if b then 2 else 1)) s = .next t ∧
      t.get pgTBS F.TBS_REF_CTRL_FORCE = s.get pgTBS F.TBS_REF_CTRL_FORCE ∧ t.selRef = s.selRef ∧
      (t.rd pgTBS 0x020).getLsbD Err.TBS_BAD_VALUE = true ∧ SameMem s t) ∧
    (s.grade b ≤ 1 → s.tbMode = 0 → ∃ t, exec (.refForce (if b then 2 else 1)) s = .next t ∧
      t.get pgTBS F.TBS_REF_CTRL_FORCE = (if b then 2 else 1) ∧ t.selRef = b ∧ t.tbMode = 0 ∧ SameMem s t)) ∧
  (∀ s : State, s.quiet = true → s.writes .steward pgTBS 0x100 (wput (s.rd pgTBS 0x100) F.TBS_REF_CTRL_FORCE.lo 2 0) = true →
    1 ≤ s.get pgTBS F.TBS_REF_CTRL_WARN_PPM → s.get pgTBS F.TBS_REF_CTRL_WARN_PPM < s.get pgTBS F.TBS_REF_CTRL_OUT_PPM →
    ∃ t, exec (.refForce 0) s = .next t ∧ t.get pgTBS F.TBS_REF_CTRL_FORCE = 0 ∧ t.selRef = s.selRef ∧ SameMem s t)

/-- For every page that exists and every offset below 0x1000, the DPA that the model forms for it lies in the region map
as that page and offset; so two registers of different pages or offsets never share a DPA. (R87, R117, R750, Table
19-1, Table 19-2, Table 19-3) -/
def Obligations.EveryRegisterHasItsOwnAddress : Prop :=
  (∀ p off, pageValid p = true → off < 0x1000 → region (p.base + off) = .page p off) ∧
  (∀ p q off off', pageValid p = true → pageValid q = true → off < 0x1000 → off' < 0x1000 → p.base + off = q.base + off' → p = q ∧ off = off')

/-- For a write by DPA that the steward port serves at once: (1) ERR_ENABLE and ALERT_ENABLE of a page that is no tenant
page take the word in their named positions, reserved positions read 0, and no other register changes; (2) ERR_STATUS
loses the ones of the word, and ERR_FIRST clears when it becomes 0; (3) a register of a BNK, GSW or ERP page stores
the word in its RW-L fields, clears its counters, keeps its RO fields, and no other register changes; (4)
REG_WINDOW_US of an ARB page takes the word in its shadow and stays as it was live, no commit pending; (5) a
misaligned one sets BAD_ACCESS; (6) TIME_SET_NS while PENDING keeps its value and sets SET_IGNORED; (7) an offset of
the BOOT page with no register ignores it; (8) a reserved DPA sets MMAP RESERVED_DPA and writes nothing. (9) A module
that the context does not authorise sets ACCESS_DENIED on the tenant page. (10) The TAP writes nothing. (R108, R109,
R111, R118, R70, R11, Table 3-5, Table 3-11) -/
def Obligations.CommonRegisterWrites : Prop :=
  (∀ (s : State) (a : BitVec 48) (w : Word) (p : Page) (off : Nat), s.quiet = true → region a.toNat = .page p off → a.toNat % 4 = 0 →
    p.kind.tenant = false → (s.mirroredReg p off = false ∨ s.twinState = twOFF) → s.writes .steward p off w = true →
    ((off = 0x024 ∨ off = 0x044) → ∃ t, exec (.registerWrite .steward a w) s = .next t ∧ t.rd p off = w &&& errPositions p.kind ∧
      RegsOnly s t [p.base + off]) ∧
    (off = 0x020 → ∃ t, exec (.registerWrite .steward a w) s = .next t ∧ t.rd p 0x020 = s.rd p 0x020 &&& ~~~w ∧
      (s.rd p 0x020 &&& ~~~w = 0 → t.rd p 0x028 = 0) ∧ RegsOnly s t [p.base + 0x020, p.base + 0x028])) ∧
  (∀ (s : State) (a : BitVec 48) (w : Word) (p : Page) (off : Nat) (d : RegDef), s.quiet = true → region a.toNat = .page p off → a.toNat % 4 = 0 →
    (p.kind = .BNK ∨ p.kind = .GSW ∨ p.kind = .ERP) → 0x100 ≤ off → findReg p.kind off = some d → d.wide = false → s.writes .steward p off w = true →
    ∃ t, exec (.registerWrite .steward a w) s = .next t ∧
      t.rd p off &&& BitVec.ofNat 32 (d.maskOf .rwL) = w &&& BitVec.ofNat 32 (d.maskOf .rwL) ∧
      t.rd p off &&& BitVec.ofNat 32 (d.maskOf .cntS) = 0 ∧
      t.rd p off &&& BitVec.ofNat 32 (d.maskOf .ro) = s.rd p off &&& BitVec.ofNat 32 (d.maskOf .ro) ∧ RegsOnly s t [p.base + off]) ∧
  (∀ (s : State) (a : BitVec 48) (w : Word) (g : Fin 8), s.quiet = true → a.toNat = (arbPage g).base + 0x104 → s.writes .steward (arbPage g) 0x104 w = true →
    s.commitPending (arbPage g) = false →
    ∃ t, exec (.registerWrite .steward a w) s = .next t ∧ t.getSh (arbPage g) F.ARB_REG_WINDOW_US = wbits w 0 16 ∧
      t.regs = s.regs ∧ t = { s with shadow := t.shadow }) ∧
  (∀ (s : State) (a : BitVec 48) (w : Word) (p : Page) (off : Nat), s.quiet = true → region a.toNat = .page p off → a.toNat % 4 ≠ 0 → s.stwServes = true →
    ∃ t, exec (.registerWrite .steward a w) s = .next t ∧ (t.rd p 0x020).getLsbD Err.BAD_ACCESS = true ∧ SameMem s t) ∧
  (∀ (s : State) (a : BitVec 48) (w : Word), s.quiet = true → a.toNat = pgTBS.base + 0x130 → s.writes .steward pgTBS 0x130 w = true →
    s.flag pgTBS F.TBS_TIME_STATUS_PENDING = true →
    ∃ t, exec (.registerWrite .steward a w) s = .next t ∧ t.setNs = s.setNs ∧ t.flag pgTBS F.TBS_TIME_STATUS_SET_IGNORED = true ∧
      RegsOnly s t [pgTBS.base + 0x140]) ∧
  (∀ (s : State) (a : BitVec 48) (w : Word), s.quiet = true → a.toNat = pgBOOT.base + 0x200 → s.writes .steward pgBOOT 0x200 w = true →
    exec (.registerWrite .steward a w) s = .next s) ∧
  (∀ (s : State) (a : BitVec 48) (w : Word), s.quiet = true → region a.toNat = .reserved → s.stwServes = true →
    ∃ t, exec (.registerWrite .steward a w) s = .next t ∧ (t.rd pgMMAP 0x020).getLsbD Err.MMAP_RESERVED_DPA = true ∧
      t = { s with regs := t.regs, elog := t.elog, trace := t.trace }) ∧
  (∀ (s : State) (m : Fin 16) (a : BitVec 48) (w : Word) (p : Page) (off : Nat), s.quiet = true → region a.toNat = .page p off → p.kind.tenant = true →
    s.fabricServes m = true → s.authorised m p.inst = false →
    ∃ t, exec (.registerWrite (.module m) a w) s = .next t ∧ (t.rd p 0x020).getLsbD Err.ACCESS_DENIED = true ∧ SameMem s t) ∧
  (∀ (s : State) (a : BitVec 48) (w : Word), s.quiet = true → exec (.registerWrite .tap a w) s = .next s)

/-- On a page that is no tenant page, not mirrored or with no peer: (1) a served COMMIT whose shadows are legal sets
PENDING alone; (2) with illegal shadows it sets REJECTED and COMMIT_REJECT and leaves nothing pending; (3) a COMMIT
while one is pending sets SHADOW_BUSY and changes no shadow. (4) At the boundary of a page other than PRS and TEV, of
an ENG page that is idle or HALTED, a pending commit clears, sets DONE and counts SEQ, and every RW-S field shows its
shadow; on an ARB page the LIVE tickets become BASE as well. On a PRS or TEV page, and on an ENG page that is neither
idle nor HALTED, COMMIT_TAKES_EFFECT changes nothing: their boundaries are rows of their own (log entries 15 and 91).
(5) DISCARD gives every RW-S field's shadow its live value and cancels the commit. (R112, R113, R197, Table 3-9) -/
def Obligations.CommitTakesShadowsTogether : Prop :=
  (∀ (s : State) (port : Port) (p : Page), s.quiet = true → p.kind.tenant = false → (s.mirroredReg p 0x010 = false ∨ s.twinState = twOFF) →
    s.writes port p 0x010 1 = true →
    (s.commitPending p = false → s.commitLegal p = true → ∃ t, exec (.pageCommit port p) s = .next t ∧ t.commitPending p = true ∧
      t.flag p F.PAGE_STATE_COMMIT_PENDING = true ∧ RegsOnly s t [p.base + 0x014, p.base + 0x00C]) ∧
    (s.commitPending p = false → s.commitLegal p = false → ∃ t, exec (.pageCommit port p) s = .next t ∧ t.commitPending p = false ∧
      t.flag p F.PAGE_COMMIT_STATUS_REJECTED = true ∧ (t.rd p 0x020).getLsbD Err.COMMIT_REJECT = true ∧ t.shadow = s.shadow ∧ SameMem s t) ∧
    (s.commitPending p = true → ∃ t, exec (.pageCommit port p) s = .next t ∧ t.commitPending p = true ∧
      (t.rd p 0x020).getLsbD Err.SHADOW_BUSY = true ∧ t.shadow = s.shadow ∧ SameMem s t)) ∧
  (∀ (s : State) (p : Page), s.quiet = true → pageValid p = true → p.kind ≠ .PRS → p.kind ≠ .TEV → s.commitPending p = true →
    (p.kind = .ENG → s.engIdle p.inst = true ∨ s.halted p = true) →
    ∃ t, exec (.commitTakesEffect p) s = .next t ∧ t.commitPending p = false ∧ t.flag p F.PAGE_COMMIT_STATUS_DONE = true ∧
      t.get p F.PAGE_COMMIT_STATUS_SEQ = (s.get p F.PAGE_COMMIT_STATUS_SEQ + 1) % 2 ^ 16 ∧ SameMem s t ∧ t.shadow = s.shadow ∧
      (∀ x ∈ shadowRegs p.kind, t.rd p x.1 &&& BitVec.ofNat 32 x.2 = s.rdSh p x.1 &&& BitVec.ofNat 32 x.2) ∧
      (p.kind = .ARB → ∀ k < 8, t.get p (F.ARB_TICKETS_LOCAL_LIVE.at k) = t.get p (F.ARB_TICKETS_LOCAL_BASE.at k))) ∧
  (∀ (s : State) (p : Page), s.quiet = true → (p.kind = .PRS ∨ p.kind = .TEV ∨ p.kind = .ENG ∧ s.engIdle p.inst = false ∧ s.halted p = false) →
    exec (.commitTakesEffect p) s = .next s) ∧
  (∀ (s : State) (port : Port) (p : Page), s.quiet = true → p.kind.tenant = false → (s.mirroredReg p 0x010 = false ∨ s.twinState = twOFF) →
    s.writes port p 0x010 2 = true →
    ∃ t, exec (.pageDiscard port p) s = .next t ∧ t.commitPending p = false ∧ (∀ x ∈ shadowRegs p.kind, t.rdSh p x.1 = s.rd p x.1) ∧
      SameMem s t ∧ SameRegs s t [p.base + 0x014, p.base + 0x00C])

/-- On a page that can halt: (1) a served HALT of a running block sets HALT and RUN HALTING alone; (2) once its work in
flight is done a HALTING page that is no stack is HALTED, and a pending commit of it is taken; (3) a HALTING stack
that is UP with nothing queued and no channel in retrain is HALTED in self-refresh; (4) a served HALT 0 returns a
HALTED or HALTING block to RUNNING, a stack from self-refresh to UP. (R114, R121, R318, Table 3-7, Table 3-8) -/
def Obligations.HaltStopsAndReleasesABlock : Prop :=
  (∀ (s : State) (p : Page), s.quiet = true → capBit p.kind 1 = true → (s.mirroredReg p 0x008 = false ∨ s.twinState = twOFF) →
    s.writes .steward p 0x008 (s.ctrlWord p + 1) = true → s.flag p F.PAGE_CTRL_HALT = false → s.running p = true →
    ∃ t, exec (.pageHalt p) s = .next t ∧ t.flag p F.PAGE_CTRL_HALT = true ∧ t.run p = HALTING ∧ RegsOnly s t [p.base + 0x008, p.base + 0x00C]) ∧
  (∀ (s : State) (p : Page), s.quiet = true → pageValid p = true → p.kind ≠ .HC → s.run p = HALTING → s.haltReady p = true →
    ∃ t, exec (.haltComplete p) s = .next t ∧ t.run p = HALTED ∧ SameMem s t ∧
      (s.commitPending p = false → RegsOnly s t [p.base + 0x00C]) ∧
      (s.commitPending p = true → t.commitPending p = false ∧ t.flag p F.PAGE_COMMIT_STATUS_DONE = true)) ∧
  (∀ (s : State) (g : Fin 8), s.quiet = true → s.run (hcPage g) = HALTING → s.hcState g = 2 → (s.hc g).queue = [] → (s.hc g).retraining = [] →
    ∃ t, exec (.haltComplete (hcPage g)) s = .next t ∧ t.run (hcPage g) = HALTED ∧ t.hcState g = 5 ∧ SameMem s t) ∧
  (∀ (s : State) (p : Page), s.quiet = true → capBit p.kind 1 = true → (s.mirroredReg p 0x008 = false ∨ s.twinState = twOFF) → s.writes .steward p 0x008 (s.ctrlWord p) = true →
    (s.run p = HALTING ∨ s.run p = HALTED) →
    ∃ t, exec (.haltRelease p) s = .next t ∧ t.flag p F.PAGE_CTRL_HALT = false ∧ t.run p = RUNNING ∧ SameMem s t ∧
      (p.kind = .HC → s.hcState p.inst = 5 → t.hcState p.inst = 2))

/-- (1) A served SOFT_RESET of a MIX page sets RUN RESETTING, cancels a pending commit and changes no other register. (2)
The same holds of RUN and the commit for an ENG page whose queues are empty and for an FMN page, while the hall holds
no wait and no taken tally, and for an HC page from P5 on whose controller holds no request. (3) Before P5 that of an
HC page is ignored and sets BOOT EARLY_RESET. (4) The reset of a MIX page ends with RUN as HALT says and the mixers
that agreed in service; that of an ENG or FMN page with RUN as HALT says. (5) The reset of a stack that retrained ends
UP, or in self-refresh when HALT is set, at its best rate capped by MAX_RATE, and only these registers and the
controller's owed refreshes change; one whose retrain failed ends FAILED, and so does that of a FAILED stack whose
training failed, with TRAIN_FAIL. (R715, R121, R720, R531, R317, log entry 20) -/
def Obligations.SoftResetRunsThroughResetting : Prop :=
  (∀ (s : State) (g : Fin 8), s.quiet = true →
    s.writes .steward (mixPage g) 0x008 (s.ctrlWord (mixPage g) + wordOf (s.get (mixPage g) F.PAGE_CTRL_HALT) + 2) = true →
    ∃ t, exec (.softReset (mixPage g)) s = .next t ∧ t.run (mixPage g) = RESETTING ∧ t.commitPending (mixPage g) = false ∧
      RegsOnly s t [(mixPage g).base + 0x008, (mixPage g).base + 0x00C, (mixPage g).base + 0x014]) ∧
  (∀ (s : State) (p : Page), s.quiet = true →
    s.writes .steward p 0x008 (s.ctrlWord p + wordOf (s.get p F.PAGE_CTRL_HALT) + 2) = true →
    (p.kind = .ENG ∧ (∀ i < 8, s.queue (8 * p.inst + i) = {}) ∧ s.hall.waiters = [] ∧ s.hall.held = [] ∧ s.hall.holders = [] ∨
      p.kind = .FMN ∧ s.hall.waiters = [] ∧ s.hall.held = [] ∧ s.hall.holders = [] ∨
      p.kind = .HC ∧ 5 ≤ s.phase ∧ (s.hc p.inst).queue = [] ∧ (s.hc p.inst).waiting = []) →
    ∃ t, exec (.softReset p) s = .next t ∧ t.run p = RESETTING ∧ t.commitPending p = false ∧ SameMem s t) ∧
  (∀ (s : State) (g : Fin 8), s.quiet = true → s.phase < 5 →
    s.writes .steward (hcPage g) 0x008 (s.ctrlWord (hcPage g) + wordOf (s.get (hcPage g) F.PAGE_CTRL_HALT) + 2) = true →
    ∃ t, exec (.softReset (hcPage g)) s = .next t ∧ t.hcState g = s.hcState g ∧ (t.rd pgBOOT 0x020).getLsbD Err.BOOT_EARLY_RESET = true ∧ SameMem s t) ∧
  (∀ (s : State) (g : Fin 8) (pass : BitVec 8), s.quiet = true → s.run (mixPage g) = RESETTING →
    ∃ t, exec (.softResetDone (mixPage g) pass) s = .next t ∧
      t.run (mixPage g) = (if s.flag (mixPage g) F.PAGE_CTRL_HALT then HALTED else RUNNING) ∧
      t.inService g = s.inService g ||| (pass.toNat &&& (255 - s.inService g)) ∧ SameMem s t) ∧
  (∀ (s : State) (p : Page) (pass : BitVec 8), s.quiet = true → pageValid p = true → s.run p = RESETTING →
    (p.kind = .FMN ∨ p.kind = .ENG ∧ s.softResetReady p = true) →
    ∃ t, exec (.softResetDone p pass) s = .next t ∧ t.run p = (if s.flag p F.PAGE_CTRL_HALT then HALTED else RUNNING) ∧
      RegsOnly s t [p.base + 0x00C]) ∧
  (∀ (s : State) (g : Fin 8), s.quiet = true → s.run (hcPage g) = RESETTING → s.hcState g = 3 →
    ∃ t, exec (.softResetDone (hcPage g) 1) s = .next t ∧ t.hcState g = (if s.flag (hcPage g) F.PAGE_CTRL_HALT then 5 else 2) ∧
      t.get (hcPage g) F.HC_HC_STATUS_RATE = min (s.hc g).best (s.get (hcPage g) F.HC_HC_CTRL_MAX_RATE) ∧
      t = { s with regs := t.regs, hcs := t.hcs, freeCtr := t.freeCtr } ∧ SameRegs s t [(hcPage g).base + 0x00C, (hcPage g).base + 0x110]) ∧
  (∀ (s : State) (g : Fin 8), s.quiet = true → s.run (hcPage g) = RESETTING → s.hcState g = 3 → (s.hc g).queue = [] → (s.hc g).waiting = [] →
    ∃ t, exec (.softResetDone (hcPage g) 0) s = .next t ∧ t.hcState g = 4 ∧ SameMem s t) ∧
  (∀ (s : State) (g : Fin 8), s.quiet = true → s.run (hcPage g) = RESETTING → s.hcState g = 1 →
    ∃ t, exec (.softResetDone (hcPage g) 0) s = .next t ∧ t.hcState g = 4 ∧ (t.rd (hcPage g) 0x020).getLsbD Err.HC_TRAIN_FAIL = true ∧ SameMem s t)

/-- For a served write of ERR_INJECT: (1) where no set bit names only fatal causes, every set bit that names an event of
the page is set in ERR_STATUS, INJECTED with it, and only registers, the error log, the trace and the module's pending
CRC inversion change. (2) With one bit, of such an event, ERR_FIRST names it where no error stood before; and where
the log buffer has room and ERR_COUNT does not reach its maximum, ERR_COUNT is one higher and one error log record is
formed exactly when ERR_ENABLE permits. (3) A word none of whose bits names an event of the page changes nothing. (4)
One bit that names only fatal causes sets that bit, INJECTED and PAGE_STATE.FATAL, and starts the fatal sequence.
(R738, R744, R642, Table 3-5) -/
def Obligations.InjectionReportsWithoutTheEvent : Prop :=
  (∀ (s : State) (p : Page) (w : Word), s.quiet = true → capBit p.kind 5 = true → (∀ b < 32, w.getLsbD b = true → fatalOnly p.kind b = false) →
    (s.mirroredReg p 0x030 = false ∨ s.twinState = twOFF) → s.writes .steward p 0x030 w = true →
    ∃ t, exec (.errInject p w) s = .next t ∧
      (∀ b < 32, w.getLsbD b = true → errEvent p.kind b = true → (t.rd p 0x020).getLsbD b = true ∧ (t.rd p 0x020).getLsbD Err.INJECTED = true) ∧
      t = { s with regs := t.regs, elog := t.elog, trace := t.trace, links := t.links } ∧ (p.kind ≠ .MOD → t.links = s.links)) ∧
  (∀ (s : State) (p : Page) (b : Nat), s.quiet = true → b < 32 → capBit p.kind 5 = true → errEvent p.kind b = true → fatalOnly p.kind b = false →
    (s.mirroredReg p 0x030 = false ∨ s.twinState = twOFF) → s.writes .steward p 0x030 (BitVec.ofNat 32 (2 ^ b)) = true →
    ∃ t, exec (.errInject p (BitVec.ofNat 32 (2 ^ b))) s = .next t ∧
      (t.rd p 0x020).getLsbD b = true ∧ (t.rd p 0x020).getLsbD Err.INJECTED = true ∧
      (s.rd p 0x020 = 0 → t.get p F.ERR_FIRST_INDEX = b ∧ t.flag p F.ERR_FIRST_VALID = true) ∧
      (s.elog.buf.length < 64 → s.get p F.ERR_COUNT < 0xFFFE → t.get p F.ERR_COUNT = s.get p F.ERR_COUNT + 1 ∧
        t.elog.seq = s.elog.seq + (if (s.rd p 0x024).getLsbD b then 1 else 0))) ∧
  (∀ (s : State) (p : Page) (w : Word), s.quiet = true → capBit p.kind 5 = true → (∀ b < 32, w.getLsbD b = true → errEvent p.kind b = false) →
    (s.mirroredReg p 0x030 = false ∨ s.twinState = twOFF) → s.writes .steward p 0x030 w = true → exec (.errInject p w) s = .next s) ∧
  (∀ (s : State) (p : Page) (b : Nat), s.quiet = true → b < 32 → capBit p.kind 5 = true → errEvent p.kind b = true → fatalOnly p.kind b = true →
    (s.mirroredReg p 0x030 = false ∨ s.twinState = twOFF) → s.isFatal = false → s.writes .steward p 0x030 (BitVec.ofNat 32 (2 ^ b)) = true →
    ∃ t, exec (.errInject p (BitVec.ofNat 32 (2 ^ b))) s = .next t ∧ (t.rd p 0x020).getLsbD b = true ∧
      (t.rd p 0x020).getLsbD Err.INJECTED = true ∧ t.flag p F.PAGE_STATE_FATAL = true ∧ t.isFatal = true ∧ t.outs.fatalN = true)

/-- For a granule stored with its check byte at a location: read back as stored it is GOOD; with any one of its 72 stored
bits flipped it reads CORRECTED and returns the data written; with any two flipped it is never returned as good data;
with one wrong location bit it reads UNCORRECTABLE; with the poison code in place of the check byte it reads
STORED_POISON. (R133, R134, R135, Table 4-2, Table 4-13) -/
def Obligations.CheckCodeCorrectsOneFlipAndMarksTwo : Prop :=
  ∀ loc data, loc < 2 ^ 24 → data < 2 ^ 64 →
    (classify loc data (checkByte loc data)).cls = .good ∧ (classify loc data (checkByte loc data)).data = data ∧
    (∀ i < 72, (classify loc ((checkByte loc data * 2 ^ 64 + data ^^^ 2 ^ i) % 2 ^ 64) ((checkByte loc data * 2 ^ 64 + data ^^^ 2 ^ i) / 2 ^ 64)).cls = .corrected ∧
      (classify loc ((checkByte loc data * 2 ^ 64 + data ^^^ 2 ^ i) % 2 ^ 64) ((checkByte loc data * 2 ^ 64 + data ^^^ 2 ^ i) / 2 ^ 64)).data = data) ∧
    (∀ i j, i < j → j < 72 → (classify loc ((checkByte loc data * 2 ^ 64 + data ^^^ 2 ^ i ^^^ 2 ^ j) % 2 ^ 64)
      ((checkByte loc data * 2 ^ 64 + data ^^^ 2 ^ i ^^^ 2 ^ j) / 2 ^ 64)).cls.bad = true) ∧
    (∀ k < 24, (classify (loc ^^^ 2 ^ k) data (checkByte loc data)).cls = .uncorrectable) ∧
    (classify loc data (checkByte loc data ^^^ 0xFF)).cls = .storedPoison

/-- Under both SRAM maps and any hash masks, the address formed for a bank and a line lies in SRAM and is located at that
bank and line, and an SRAM address is located at a bank below 512 and a line below 3,072 whose address is that
address's line. Two offsets of the spread alias that lie at the same stack and stack offset are the same offset. (R90,
R91, R92, R93, Table 3-1) -/
def Obligations.SramPlacementIsOneToOne : Prop :=
  (∀ (spread : Bool) (hash : Nat → Nat) (b l : Nat), b < 512 → l < 3072 →
    sramAddress spread hash b l < 0x6000000 ∧ sramLocate spread hash (sramAddress spread hash b l) = (b, l)) ∧
  (∀ (spread : Bool) (hash : Nat → Nat) (dpa : Nat), dpa < 0x6000000 →
    (sramLocate spread hash dpa).1 < 512 ∧ (sramLocate spread hash dpa).2 < 3072 ∧
    sramAddress spread hash (sramLocate spread hash dpa).1 (sramLocate spread hash dpa).2 = dpa - dpa % 64) ∧
  (∀ a b, aliasLocate a = aliasLocate b → a = b)

/-- With no injection armed in the gallery: (1) BANK_WRITE makes every enabled granule read back GOOD with its new data,
or as stored poison where it is to be poisoned, and leaves every other granule and every other line as it read. (2)
READ_MODIFY_WRITE replaces the enabled bytes of a granule that reads well, keeps its other bytes, and poisons a partly
enabled granule that does not. (3) BANK_READ answers status, poison mask and bytes of the line as it stands; where
every granule is GOOD nothing else has changed. (4) A served write of ECC_INJECT stores its word in that register
alone. (R131, R132, R134, R135, R138, R139, R141, R142, R173) -/
def Obligations.BankWriteAndReadOfALine : Prop :=
  (∀ (s : State) (b : Fin 512) (l : Fin 3072) (en pois : BitVec 8) (data : BitVec 512), s.quiet = true →
    s.flag (bnkPage b) F.BNK_ECC_INJECT_ARM = false →
    ∃ t, exec (.bankWrite b l en pois data) s = .next t ∧
      (∀ j < 8, en.getLsbD j = true → pois.getLsbD j = false → t.granPeek b l j = ⟨bits data.toNat (64 * j) 64, .good, 0⟩) ∧
      (∀ j < 8, en.getLsbD j = true → pois.getLsbD j = true → (t.granPeek b l j).cls = .storedPoison) ∧
      (∀ j < 8, en.getLsbD j = false → t.granPeek b l j = s.granPeek b l j) ∧
      (∀ b' l', b' < 512 → l' < 3072 → (b' ≠ b.val ∨ l' ≠ l.val) → t.linePeek b' l' = s.linePeek b' l') ∧
      (find t.bankRsp b).map (·.status) = some (if en &&& pois = 0 then 0 else 3) ∧ t.hbm = s.hbm ∧ t.spares = s.spares ∧
      t = { s with regs := t.regs, elog := t.elog, trace := t.trace, sram := t.sram, injected := t.injected, bankRsp := t.bankRsp }) ∧
  (∀ (s : State) (b : Fin 512) (l : Fin 3072) (en : BitVec 64) (pois : BitVec 8) (data : BitVec 512), s.quiet = true →
    s.flag (bnkPage b) F.BNK_ECC_INJECT_ARM = false → partialGranule en.toNat = true →
    ∃ t, exec (.readModifyWrite b l en pois data) s = .next t ∧
      (∀ j < 8, bits en.toNat (8 * j) 8 ≠ 0 → pois.getLsbD j = false → (s.granPeek b l j).cls.bad = false →
        (t.granPeek b l j).cls = .good ∧ ∀ i < 8, bits (t.granPeek b l j).data (8 * i) 8 =
          (if en.getLsbD (8 * j + i) then bits data.toNat (64 * j + 8 * i) 8 else bits (s.granPeek b l j).data (8 * i) 8)) ∧
      (∀ j < 8, bits en.toNat (8 * j) 8 ≠ 0 → bits en.toNat (8 * j) 8 ≠ 0xFF → ((s.granPeek b l j).cls.bad = true ∨ pois.getLsbD j = true) →
        (t.granPeek b l j).cls = .storedPoison ∧ (t.rd (bnkPage b) 0x020).getLsbD Err.BNK_POISON_WRITTEN = true) ∧
      (∀ j < 8, bits en.toNat (8 * j) 8 = 0 → t.granPeek b l j = s.granPeek b l j) ∧
      (∀ b' l', b' < 512 → l' < 3072 → (b' ≠ b.val ∨ l' ≠ l.val) → t.linePeek b' l' = s.linePeek b' l') ∧ t.hbm = s.hbm ∧ t.spares = s.spares) ∧
  (∀ (s : State) (b : Fin 512) (l : Fin 3072), s.quiet = true →
    ∃ t, exec (.bankRead b l) s = .next t ∧
      find t.bankRsp b = some ⟨((s.linePeek b l).status 0 64).code, (s.linePeek b l).poisonMask, (s.linePeek b l).bytes⟩ ∧
      (∀ b' l', b' < 512 → l' < 3072 → (b' ≠ b.val ∨ l' ≠ l.val) → t.linePeek b' l' = s.linePeek b' l') ∧
      ((∀ j < 8, (s.granPeek b l j).cls = .good) → t = { s with bankRsp := t.bankRsp })) ∧
  (∀ (s : State) (g : Fin 8) (w : Word), s.quiet = true → s.writes .steward ⟨.BNK, g⟩ 0x118 w = true →
    ∃ t, exec (.eccInject g w) s = .next t ∧ t.get ⟨.BNK, g⟩ F.BNK_ECC_INJECT_BANK = wbits w 0 6 ∧
      t.flag ⟨.BNK, g⟩ F.BNK_ECC_INJECT_ARM = w.getLsbD F.BNK_ECC_INJECT_ARM.lo ∧ RegsOnly s t [(Page.mk .BNK g).base + 0x118])

/-- With no injection armed in the gallery and the mixers serving: a legal atomic on a line whose granules all read GOOD
reports the line as it was, stores in every enabled lane the new value of the operation, ADD, SWAP or CSWAP, keeps
every other lane of the line, and changes no other line; ATOMIC_COUNT counts it. An illegal one reports nothing,
changes no memory and sets ERR_STATUS.ATOMIC_ERROR; a legal ADD with stochastic rounding in a gallery with no mixer in
service reports nothing and changes nothing. SWAP's new value is its operand; CSWAP's is its new value where the lane
equals its compare value and the old value elsewhere. (R146, R147, R149, R151, R152, R527) -/
def Obligations.AtomicChangesOnlyItsLanes : Prop :=
  (∀ (s : State) (b l : Nat) (a : AtomReq), b < 512 → l < 3072 → a.legal = true → s.mixerUp (b / 64) = true →
    s.flag (bnkPage b) F.BNK_ECC_INJECT_ARM = false → s.get (bnkPage b) F.BNK_ATOMIC_COUNT < 2 ^ 32 - 1 →
    (∀ j < 8, (s.granPeek b l j).cls = .good) →
    ∃ w, (s.bankAtomic b l a).1 = some (s.linePeek b l, w) ∧ w.poison = 0 ∧
      (∀ o, a.fmt.bytes ∣ o → o < 64 → leAt ((s.bankAtomic b l a).2.linePeek b l).bytes o a.fmt.bytes =
        (if a.en.testBit o then a.lane (s.lineDpa b l) o (leAt (s.linePeek b l).bytes o a.fmt.bytes) % 2 ^ (8 * a.fmt.bytes)
         else leAt (s.linePeek b l).bytes o a.fmt.bytes)) ∧
      (∀ j < 8, ((s.bankAtomic b l a).2.granPeek b l j).cls = .good) ∧
      (∀ b' l', b' < 512 → l' < 3072 → (b' ≠ b ∨ l' ≠ l) → (s.bankAtomic b l a).2.linePeek b' l' = s.linePeek b' l') ∧
      (s.bankAtomic b l a).2.get (bnkPage b) F.BNK_ATOMIC_COUNT = s.get (bnkPage b) F.BNK_ATOMIC_COUNT + 1) ∧
  (∀ (s : State) (b l : Nat) (a : AtomReq), a.legal = false →
    (s.bankAtomic b l a).1 = none ∧ SameMem s (s.bankAtomic b l a).2 ∧
    ((s.bankAtomic b l a).2.rd (bnkPage b) 0x020).getLsbD Err.BNK_ATOMIC_ERROR = true) ∧
  (∀ (s : State) (b l : Nat) (a : AtomReq), a.legal = true → a.atop = .add → a.rnd = .stoch → s.mixerUp (b / 64) = false → s.bankAtomic b l a = (none, s)) ∧
  (∀ (a : AtomReq) (dpa o old : Nat), (a.atop = .swap → a.lane dpa o old = leAt a.opnd o a.fmt.bytes) ∧
    (a.atop = .cswap → a.lane dpa o old = if old = leAt a.cmp o a.fmt.bytes then leAt a.opnd o a.fmt.bytes else old))

/-- (1) A served TNK_TARGET with a region below 49 and room in the queue puts it last; with the queue full, or a region
above 48, it sets TARGET_IGNORED and the queue is as before. (2) CE_TRIGGER queues the region of the bank's last
corrected line once its corrections in the window reach the trigger. (3) While SRAM is open, the test of a queued
region of lines that all read GOOD, with no fault found, takes the region from the queue, leaves every line's data as
it was, sets the next start by TNK_INTERVAL, and changes no register but the counts BYTES_LOCAL of its gallery. (4) On
a HALTED page a served SPARE_ENTRY that maps an unmapped line stores that entry alone. (R156, R161, R162, R163, R178,
R755, Table 4-8, Table 4-10, Table 4-12) -/
def Obligations.TinkerTargetsAndSpares : Prop :=
  (∀ (s : State) (g : Fin 8) (b r : BitVec 6), s.quiet = true → s.writes .steward (tnkPage g) 0x108 (wordOf (b.toNat + r.toNat * 64)) = true →
    ((s.tinker g).targets.length < 4 → r.toNat ≤ 48 → ∃ t, exec (.tnkTarget g b r) s = .next t ∧
      t.tinker g = { s.tinker g with targets := (s.tinker g).targets ++ [(b.toNat, r.toNat)] } ∧ t = { s with tinkers := t.tinkers }) ∧
    (4 ≤ (s.tinker g).targets.length ∨ 48 < r.toNat → ∃ t, exec (.tnkTarget g b r) s = .next t ∧ t.tinkers = s.tinkers ∧
      (t.rd (tnkPage g) 0x020).getLsbD Err.TNK_TARGET_IGNORED = true ∧ SameMem s t)) ∧
  (∀ (s : State) (b : Fin 512) (w : CeWin), s.quiet = true → find s.ceWindow b = some w → w.queued = false → (s.tinker (b / 64)).trigger ≠ 0 →
    (s.tinker (b / 64)).trigger ≤ w.n → (s.tinker (b / 64)).targets.length < 4 → (b.val % 64, w.line / 64) ∉ (s.tinker (b / 64)).targets →
    ∃ t, exec (.ceTrigger b) s = .next t ∧ (t.tinker (b / 64)).targets = (s.tinker (b / 64)).targets ++ [(b.val % 64, w.line / 64)] ∧
      find t.ceWindow b = some { w with queued := true } ∧ t = { s with ceWindow := t.ceWindow, tinkers := t.tinkers }) ∧
  (∀ (s : State) (g : Fin 8) (b r : Nat) (rest : List (Nat × Nat)), s.quiet = true → s.phase = 6 → s.running (tnkPage g) = true → s.running pgMMAP = true →
    s.flag (tnkPage g) F.TNK_TNK_CTRL_EN = true → (s.tinker g).nextAt ≤ s.ticks → (s.tinker g).targets = (b, r) :: rest → b < 64 → r < 48 →
    (∀ i < 64, ∀ j < 8, (s.granPeek (64 * g + b) (64 * r + i) j).cls = .good) →
    ∃ t, exec (.tinkerRegionStart g []) s = .next t ∧ (t.tinker g).targets = rest ∧
      (t.tinker g).nextAt = s.ticks + s.get (tnkPage g) F.TNK_TNK_INTERVAL_US ∧
      (∀ b' l', b' < 512 → l' < 3072 → t.linePeek b' l' = s.linePeek b' l') ∧ t.spares = s.spares ∧ t.hbm = s.hbm ∧
      SameRegs s t ((List.range 16).map fun i => (arbPage g).base + 0x200 + 4 * i)) ∧
  (∀ (s : State) (g : Fin 8) (w : Word), s.quiet = true → s.writes .steward (tnkPage g) 0x124 w = true → s.halted (tnkPage g) = true →
    s.get (tnkPage g) F.TNK_SPARE_INDEX_SLOT < 24 → wbits w 0 12 < 3072 → w.getLsbD 12 = true → w.getLsbD 14 = false →
    (s.spare (64 * g + s.get (tnkPage g) F.TNK_SPARE_INDEX_BANK) (s.get (tnkPage g) F.TNK_SPARE_INDEX_SLOT)).factory = false →
    (w ^^^ s.spareWord g) &&& 0x5FFF#32 ≠ 0 →
    (∀ j < 24, (s.spare (64 * g + s.get (tnkPage g) F.TNK_SPARE_INDEX_BANK) j).maps (wbits w 0 12) = false) →
    ∃ t, exec (.spareEntry g w) s = .next t ∧
      t.spareOf (64 * g + s.get (tnkPage g) F.TNK_SPARE_INDEX_BANK) (wbits w 0 12) = some (s.get (tnkPage g) F.TNK_SPARE_INDEX_SLOT) ∧
      t = { s with spares := t.spares })

/-- Requesters of an arbiter are those that the model's own queues hold (stair buffers, rings) or those that the command
lists too (log entries 5 and 8). At an arbiter that does not grant within its own step: (1) while no drawn winner
waits, with a requester of Table 5-13, the winner drawn is the index of one of them and waits for its grant, and the
LFSR has moved 16 shifts from a state that was not zero; (2) with none, no winner waits; (3) while the winner drawn
before still waits in a queue that the model holds, a draw changes nothing. (4) A withdrawal at any arbiter with a
drawn winner, or that draws and grants at once, counts a dead turn; (5) at an arbiter without queues of the model a
listed requester is drawn in its place. (6) An emergency beat that cuts counts EMERG_CUTS, one that does not counts
nothing; (7) one that follows another while a requester waits changes nothing (log entry 57). (8) A served RESEED of a
gallery makes every arbiter of it draw next from its seed. (9) The egress arbiter of an UP module with nothing to send
puts one IDLE flit on the wire, which enters no replay buffer. (R181, R182, R186, R187, R188, R217, R218, R792, log
entries 5, 8, 56 and 57) -/
def Obligations.DrawWinnerIsARequester : Prop :=
  (∀ (s : State) (id : BitVec 16) (reqs ws : List Req), s.quiet = true → arbValid id.toNat = true → drawsAtOnce id.toNat = false →
    ws = (if id.toNat / 4096 = 2 ∨ id.toNat / 4096 = 0xC then s.heldReqs id.toNat else reqs ++ s.heldReqs id.toNat) →
    ((find s.grants id.toNat).any fun w => (s.heldReqs id.toNat).any fun r => r.index == w.winner) = false →
    ((∃ r ∈ ws, reqFits id.toNat r = true) → ∃ t w, exec (.arbiterDraw id reqs) s = .next t ∧ find t.grants id.toNat = some ⟨w⟩ ∧
      (∃ r ∈ ws, reqFits id.toNat r = true ∧ r.index = w) ∧
      (s.lfsr id.toNat ≠ 0 → t.lfsr id.toNat = lfsrShift 16 (s.lfsr id.toNat)) ∧ SameMem s t ∧ t.hall = s.hall ∧ t.stair = s.stair ∧
      t.queues = s.queues ∧ t.rings = s.rings) ∧
    ((∀ r ∈ ws, reqFits id.toNat r = false) → ∃ t, exec (.arbiterDraw id reqs) s = .next t ∧ find t.grants id.toNat = none ∧
      t = { s with grants := t.grants })) ∧
  (∀ (s : State) (id : BitVec 16) (reqs : List Req), s.quiet = true → arbValid id.toNat = true → drawsAtOnce id.toNat = false →
    ((find s.grants id.toNat).any fun w => (s.heldReqs id.toNat).any fun r => r.index == w.winner) = true →
    exec (.arbiterDraw id reqs) s = .next s) ∧
  (∀ (s : State) (id : BitVec 16) (reqs : List Req), s.quiet = true → arbValid id.toNat = true →
    (find s.grants id.toNat ≠ none ∨ drawsAtOnce id.toNat = true) →
    s.get (arbPage (arbGallery id.toNat)) F.ARB_DEAD_TURNS < 2 ^ 32 - 1 →
    ∃ t, exec (.arbWithdrawal id reqs) s = .next t ∧
      t.get (arbPage (arbGallery id.toNat)) F.ARB_DEAD_TURNS = s.get (arbPage (arbGallery id.toNat)) F.ARB_DEAD_TURNS + 1) ∧
  (∀ (s : State) (id : BitVec 16) (reqs : List Req), s.quiet = true → arbValid id.toNat = true → drawsAtOnce id.toNat = false →
    id.toNat / 4096 ≠ 2 → id.toNat / 4096 ≠ 7 → id.toNat / 4096 ≠ 0xC → find s.grants id.toNat ≠ none → (∃ r ∈ reqs, reqFits id.toNat r = true) →
    ∃ t w, exec (.arbWithdrawal id reqs) s = .next t ∧ find t.grants id.toNat = some ⟨w⟩ ∧ (∃ r ∈ reqs, r.index = w) ∧ SameMem s t) ∧
  (∀ (s : State) (id : BitVec 16), s.quiet = true → arbValid id.toNat = true →
    (s.emerged.contains id.toNat = false ∨ id.toNat / 4096 = 6 ∨ s.arbWaits id.toNat = false) →
    (s.get (arbPage (arbGallery id.toNat)) F.ARB_EMERG_CUTS < 2 ^ 32 - 1 →
      ∃ t, exec (.emergencyBeat id true) s = .next t ∧
        t.get (arbPage (arbGallery id.toNat)) F.ARB_EMERG_CUTS = s.get (arbPage (arbGallery id.toNat)) F.ARB_EMERG_CUTS + 1 ∧
        t = { s with regs := t.regs, elog := t.elog, trace := t.trace, emerged := t.emerged }) ∧
    (∃ t, exec (.emergencyBeat id false) s = .next t ∧ t.emerged.contains id.toNat = true ∧ t = { s with emerged := t.emerged })) ∧
  (∀ (s : State) (id : BitVec 16) (cut : Bool), s.quiet = true → s.emerged.contains id.toNat = true → id.toNat / 4096 ≠ 6 →
    s.arbWaits id.toNat = true → exec (.emergencyBeat id cut) s = .next s) ∧
  (∀ (s : State) (g : Fin 8), s.quiet = true → s.writes .steward (arbPage g) 0x100 (s.rdSh (arbPage g) 0x100 &&& 1 ||| 2) = true →
    ∃ t, exec (.arbReseed g) s = .next t ∧ (∀ id, arbGallery id = g → find t.lfsrs id = none) ∧ find t.seeds g = none ∧
      (∀ id, arbGallery id ≠ g → find t.lfsrs id = find s.lfsrs id) ∧ t = { s with lfsrs := t.lfsrs, seeds := t.seeds }) ∧
  (∀ (s : State) (m : Fin 16) (reqs : List Req), s.quiet = true → s.modUp m = true → (s.link m).retraining = false → (s.link m).resend = [] →
    (s.link m).replay = [] → (s.link m).tx = [] → (s.link m).returns = [] → (s.link m).pace = none →
    ∃ t, exec (.arbiterDraw (BitVec.ofNat 16 (0xB000 + m)) reqs) s = .next t ∧ (t.link m).replay = [] ∧ (t.link m).nakOwed = false ∧
      (t.link m).wire.length = 256 ∧ (parseTrailer (leAt (t.link m).wire 240 12)).kind = 1 ∧
      (parseTrailer (leAt (t.link m).wire 240 12)).ackKind = (if (s.link m).nakOwed then 2 else 1) ∧
      t = { s with links := t.links })

/-- URG_CHANGE sets the level driven on the pins of that module and nothing else. URG_ADOPT makes the level driven the
level adopted, since the tick it was adopted at, and shows it in URG_STATE. URG_CRIT, once level 3 has stood for
CRIT_WARN ticks, sets ERR_STATUS.URG_CRIT and is noted; noted, it does nothing again. (R191, R220, Table 5-13) -/
def Obligations.UrgencyIsAdoptedAndReported : Prop :=
  (∀ (s : State) (m : Fin 16) (v : Fin 4), s.quiet = true →
    ∃ t, exec (.urgChange m v) s = .next t ∧ t.link m = { s.link m with urgIn := v } ∧ (∀ k, k ≠ m.val → t.link k = s.link k) ∧
      t = { s with links := t.links }) ∧
  (∀ (s : State) (m : Fin 16), s.quiet = true → (s.link m).urgIn ≠ (s.link m).urg →
    ∃ t, exec (.urgAdopt m) s = .next t ∧ (t.link m).urg = (s.link m).urgIn ∧ (t.link m).urgSince = s.ticks ∧ (t.link m).urgNoted = false ∧
      bits (t.get (arbPage (m / 2)) F.ARB_URG_STATE_LEVEL) (2 * (m % 2)) 2 = (s.link m).urgIn % 4 ∧
      t = { s with regs := t.regs, links := t.links } ∧ SameRegs s t [(arbPage (m / 2)).base + 0x118]) ∧
  (∀ (s : State) (m : Fin 16), s.quiet = true → (s.link m).urg = 3 → s.get (arbPage (m / 2)) F.ARB_URG_CTRL_CRIT_WARN ≠ 0 →
    (s.link m).urgSince + s.get (arbPage (m / 2)) F.ARB_URG_CTRL_CRIT_WARN ≤ s.ticks →
    ((s.link m).urgNoted = false → ∃ t, exec (.urgCrit m) s = .next t ∧ (t.rd (arbPage (m / 2)) 0x020).getLsbD Err.ARB_URG_CRIT = true ∧
      (t.link m).urgNoted = true ∧ t = { s with regs := t.regs, links := t.links, elog := t.elog, trace := t.trace }) ∧
    ((s.link m).urgNoted = true → exec (.urgCrit m) s = .next s))

/-- (1) At the end of a regulation window of a gallery, WIN_LINES of every class and group shows the window's count modulo
2^32, WIN_SEQ counts, and the window starts again at this tick with nothing counted. SAT_AFTER and SAT_CLEAR are those
taken at the last tick (Table 5-13). (2) A class held for SAT_AFTER ticks in a row, and at least one, becomes
SATURATED, with its ERR_STATUS bit. (3) A SATURATED class free for SAT_CLEAR ticks in a row, and at least one, is no
longer so, and no other register changes. (R198, R200, R209, Table 5-13) -/
def Obligations.RegulationWindowCopiesItsCounts : Prop :=
  (∀ (s : State) (g : Fin 8), s.quiet = true → s.time.running = true → (s.arb g).winAt + s.get (arbPage g) F.ARB_REG_WINDOW_US ≤ s.ticks →
    ∃ t, exec (.regWindowEnd g) s = .next t ∧
      (∀ k < 8, t.get (arbPage g) (F.ARB_WIN_LINES_LOCAL.at k) = s.winLines g 0 k % 2 ^ 32 ∧
        t.get (arbPage g) (F.ARB_WIN_LINES_STAIR.at k) = s.winLines g 1 k % 2 ^ 32 ∧
        t.get (arbPage g) (F.ARB_WIN_LINES_STACK.at k) = s.winLines g 2 k % 2 ^ 32) ∧
      t.get (arbPage g) F.ARB_WIN_SEQ = (s.get (arbPage g) F.ARB_WIN_SEQ + 1) % 2 ^ 32 ∧
      (t.arb g).win = [] ∧ (t.arb g).lost = 0 ∧ (t.arb g).heldWin = 0 ∧ (t.arb g).winAt = s.ticks ∧ SameMem s t) ∧
  (∀ (s : State) (g k : Fin 8), s.quiet = true → (s.get (arbPage g) F.ARB_CLASS_STATE_SATURATED).testBit k = false →
    max 1 (s.arb g).satAfter ≤ (find (s.arb g).heldRun k).getD 0 →
    ∃ t, exec (.classSaturated g k) s = .next t ∧
      t.get (arbPage g) F.ARB_CLASS_STATE_SATURATED = s.get (arbPage g) F.ARB_CLASS_STATE_SATURATED + 2 ^ k.val ∧
      (t.rd (arbPage g) 0x020).getLsbD Err.ARB_SATURATED = true ∧ t = { s with regs := t.regs, elog := t.elog, trace := t.trace }) ∧
  (∀ (s : State) (g k : Fin 8), s.quiet = true → (s.get (arbPage g) F.ARB_CLASS_STATE_SATURATED).testBit k = true →
    max 1 (s.arb g).satClear ≤ (find (s.arb g).freeRun k).getD 0 →
    ∃ t, exec (.saturatedClear g k) s = .next t ∧
      t.get (arbPage g) F.ARB_CLASS_STATE_SATURATED = s.get (arbPage g) F.ARB_CLASS_STATE_SATURATED - 2 ^ k.val ∧
      RegsOnly s t [(arbPage g).base + 0x1A0])

/-- Where a buffer of a gallery holds one message, of the class granted, and no other buffer waits for the link, nor a
winner drawn before: (1) a message that has nowhere to go beyond the next node leaves the buffer; if it carries a
line, STAIR_OUT of the link counts its 64 bytes modulo 2^64; every other stair buffer, memory, the hall and the queues
are as before. (2) A lane 0 message that goes on by one link of the next node, with room there, is put at the end of
that node's lane 1 buffer with the destinations that lie that way. (3) One with a bad header parity goes no further,
sets STAIR_HDR_PARITY at the next node and starts the fatal sequence. (4) While a winner drawn before waits in another
buffer, nothing changes: the link is granted to that one first. (R24, R27, R30, R33, R38, R44, R198, Table 1-13, log
entry 31) -/
def Obligations.StairMessageReachesItsNode : Prop :=
  (∀ (s : State) (g : Fin 8) (k : Fin 3) (lane : Fin 2) (rsp : Bool) (cls : Fin 8) (m : StairMsg), s.quiet = true →
    s.stairBuf (stairKey g k lane rsp) = [m] → m.cls = cls → m.held = false →
    s.stairReqs g k = [⟨stairIndex lane rsp cls, cls, m.urg⟩] → find s.grants (0x2000 + 3 * g + k) = none →
    (stairAhead (stairNext g k) lane m = [] →
      ∃ t, exec (.stairMessageForward g k lane rsp cls false) s = .next t ∧ t.stairBuf (stairKey g k lane rsp) = [] ∧
        (∀ key, key ≠ stairKey g k lane rsp → t.stairBuf key = s.stairBuf key) ∧
        (m.n ≠ 0 → (t.rd (gswPage g) (0x120 + 8 * k)).toNat + (t.rd (gswPage g) (0x124 + 8 * k)).toNat * 2 ^ 32 =
          ((s.rd (gswPage g) (0x120 + 8 * k)).toNat + (s.rd (gswPage g) (0x124 + 8 * k)).toNat * 2 ^ 32 + 64) % 2 ^ 64) ∧
        SameMem s t ∧ t.hall = s.hall ∧ t.queues = s.queues) ∧
    (∀ j v, stairAhead (stairNext g k) lane m = [(j, v)] →
      s.stairAdmits (stairNext g k) (s.stairBuf (stairKey (stairNext g k) j 1 rsp)) m.cls m.urg = true →
      ∃ t, exec (.stairMessageForward g k lane rsp cls false) s = .next t ∧ t.stairBuf (stairKey g k lane rsp) = [] ∧
        t.stairBuf (stairKey (stairNext g k) j 1 rsp) =
          s.stairBuf (stairKey (stairNext g k) j 1 rsp) ++ [{ mask := v, cls := cls, ctx := m.ctx, n := m.n, urg := m.urg }] ∧
        SameMem s t ∧ t.hall = s.hall ∧ t.queues = s.queues) ∧
    (stairAhead (stairNext g k) lane m = [] → s.isFatal = false →
      ∃ t, exec (.stairMessageForward g k lane rsp cls true) s = .next t ∧
        (t.rd (gswPage (stairNext g k)) 0x020).getLsbD Err.GSW_STAIR_HDR_PARITY = true ∧ t.isFatal = true ∧ t.outs.fatalN = true)) ∧
  (∀ (s : State) (g : Fin 8) (k : Fin 3) (lane : Fin 2) (rsp : Bool) (cls : Fin 8) (m : StairMsg) (w : Nat), s.quiet = true →
    s.stairFirst g k lane rsp cls = some m → s.stairFull (stairNext g k) rsp m (stairAhead (stairNext g k) lane m) = none →
    find s.grants (0x2000 + 3 * g + k) = some ⟨w⟩ → w ≠ stairIndex lane rsp cls → ((s.stairReqs g k).any fun r => r.index == w) = true →
    exec (.stairMessageForward g k lane rsp cls false) s = .next s)

/-- (1) At tick 4n + 2, once out of P0 and P1 and not yet computed at this tick, PURSER_COMPUTATION leaves a division for
the next interval with one rate for each gallery, none below L_FLOOR of 1,500 lines, and moves the VCORE request by at
most 10 mV. (2) At tick 4n + 4 with a division waiting, PACE_INTERVAL_START shows it in GAL_ALLOW, GAL_LINES and
LEND_STATE, puts its limiter enable and burst into force, and none waits any more. (3) CAL_UPDATE moves CAL by at most
one and keeps it from 32 to 128. (4) LEND_START of an engine that meets the conditions of R482 adds it to those that
lend and changes nothing else. (R664, R667, R669, R675, R206, Table 16-7) -/
def Obligations.PurserComputesAndAppliesTheDivision : Prop :=
  (∀ (s : State) (a : AvsRead), s.quiet = true → s.ticks % 4 = 2 → 2 ≤ s.phase → s.purser.computedAt ≠ some s.ticks →
    ∃ t nx, exec (.purserComputation a) s = .next t ∧ t.purser.next = some nx ∧ nx.l.length = 8 ∧ (∀ l ∈ nx.l, 1500 ≤ l) ∧
      t.purser.computedAt = some s.ticks ∧ t.vReq ≤ s.vReq + 10 ∧ s.vReq ≤ t.vReq + 10 ∧ SameMem s t ∧ t.hall = s.hall) ∧
  (∀ (s : State) (nx : PrsNext), s.quiet = true → s.ticks % 4 = 0 → s.purser.startedAt ≠ some s.ticks → s.purser.next = some nx →
    ∃ t, exec .paceIntervalStart s = .next t ∧
      (∀ g < 8, t.get pgPRS (F.PRS_GAL_LINES_L.at g) = min (nx.l.getD g 0) (2 ^ 17 - 1) ∧
        t.get pgPRS (F.PRS_GAL_ALLOW_MW.at g) = min (nx.d.getD g 0) (2 ^ 18 - 1)) ∧
      t.get pgPRS F.PRS_LEND_STATE = nx.lend % 2 ^ 16 ∧ t.purser.next = none ∧ t.purser.computed = true ∧
      t.purser.limitOn = nx.limitOn ∧ t.purser.burst = nx.burst ∧ SameMem s t) ∧
  (∀ (s : State) (est : Nat), s.quiet = true → s.ticks % 100 = 0 → s.avsOk = true → est ≠ 0 → s.purser.calAt ≠ some s.ticks →
    32 ≤ s.get pgPRS F.PRS_CAL_CAL → s.get pgPRS F.PRS_CAL_CAL ≤ 128 →
    ∃ t, exec (.calUpdate est) s = .next t ∧ t.get pgPRS F.PRS_CAL_CAL ≤ s.get pgPRS F.PRS_CAL_CAL + 1 ∧
      s.get pgPRS F.PRS_CAL_CAL ≤ t.get pgPRS F.PRS_CAL_CAL + 1 ∧ 32 ≤ t.get pgPRS F.PRS_CAL_CAL ∧ t.get pgPRS F.PRS_CAL_CAL ≤ 128 ∧
      t.purser = { s.purser with calAt := some s.ticks } ∧ RegsOnly { s with purser := t.purser } t [pgPRS.base + 0x128]) ∧
  (∀ (s : State) (e : Fin 16), s.quiet = true → s.lends e = true → s.purser.lending.contains e.val = false →
    exec (.lendStart e) s = .next { s with purser := { s.purser with lending := s.purser.lending ++ [e.val] } })

/-- Outside P0, at a tick that is a multiple of ten and has no sample yet, SENSOR_SAMPLE stores the 12-bit reading of
every sensor whose self-check passed, with VALID, and clears VALID of every other; if a valid reading is at or above
TCRIT, THERM_TRIP_N is asserted. Memory, the hall and the queues are as before. (R677, R678, R681, R693, Table 16-8) -/
def Obligations.SensorSampleShowsTemperatures : Prop :=
  ∀ (s : State) (temps : BitVec 204) (fails : BitVec 17), s.quiet = true → s.phase ≠ 0 → s.ticks % 10 = 0 → s.purser.sampledAt ≠ some s.ticks →
    ∃ t, exec (.sensorSample temps fails) s = .next t ∧
      (∀ i < 17, fails.toNat.testBit i = false → t.get pgPRS (F.PRS_SENSOR_TEMP.at i) = bits temps.toNat (12 * i) 12 ∧
        t.flag pgPRS (F.PRS_SENSOR_VALID.at i) = true) ∧
      (∀ i < 17, fails.toNat.testBit i = true → t.flag pgPRS (F.PRS_SENSOR_VALID.at i) = false) ∧
      ((∃ i < 17, fails.toNat.testBit i = false ∧ s.tempThr 3 ≤ toSigned 12 (bits temps.toNat (12 * i) 12)) → t.outs.thermTrip = true) ∧
      t.purser.sampledAt = some s.ticks ∧ SameMem s t ∧ t.hall = s.hall ∧ t.queues = s.queues

/-- For a module's request that is accepted, names bytes of one bank line by a cached translation that permits it, and
finds the errand path free: (1) RD puts on the module's queue of messages to send, behind what waits there, a response
with the line's status over those bytes, their poison mask and their data; memory is as a bank read leaves it. (2) WR,
not taken by the combiner, leaves memory as the bank's write of exactly those bytes, and its response carries the
write's status and poison mask. The hall, the stacks and the spare map are as before. (R95, R98, R138, R139, R144,
R246, R250, R251, Table 6-4, Table 6-6) -/
def Obligations.ReadAndWriteOfALineAnswer : Prop :=
  (∀ (s : State) (m : Fin 16) (h : BitVec 128) (data : List Byte) (b l : Nat), s.quiet = true → hOpc h = opRD → s.reachesLine m h data .rd b l →
    ∃ t, exec (.vtlRd m h data) s = .next t ∧
      (t.link m).tx = (s.link m).tx ++ [s.rspMsg m h ((s.linePeek b l).status (hAddr h % 64) (hLen h)).code 0
        (unitMask 8 ((s.linePeek b l).slice (hAddr h % 64) (hLen h))) 0 (((s.linePeek b l).slice (hAddr h % 64) (hLen h)).map (·.1))] ∧
      t.sram = (s.bankRead b l).2.sram ∧ t.hbm = s.hbm ∧ t.spares = s.spares ∧ t.hall = s.hall ∧ (t.path (m / 2)).entries = []) ∧
  (∀ (s : State) (m : Fin 16) (h : BitVec 128) (data : List Byte) (b l : Nat) (w : WrOut × State), s.quiet = true → hOpc h = opWR →
    s.reachesLine m h data .wr b l → s.flag (erpPage (m / 2)) F.ERP_CMB_CTRL_EN = false →
    w = s.bankWrite b l (enables (hAddr h % 64) (hLen h)) (atOffset (hAddr h % 64) ((s.mkMsg h data).data.take (hLen h)))
      (wrPoison (hPoison h) (hAddr h % 64) (hLen h) 0) →
    ∃ t, exec (.vtlWr m h data) s = .next t ∧
      (t.link m).tx = (s.link m).tx ++ [s.rspMsg m h w.1.status.code 0 (unitMask 8 (w.1.marks (hAddr h % 64) (hLen h))) 0 []] ∧
      t.sram = w.2.sram ∧ t.hbm = s.hbm ∧ t.spares = s.spares ∧ t.hall = s.hall ∧ (t.path (m / 2)).entries = [])

/-- For an ATOM of a module that is accepted, names one bank line by a cached translation with both permissions, and finds
the errand path free, and whose fields make an atomic request: where the bank performs it, memory is as the bank's
atomic leaves it, and the response carries its status and poison mask, with the old values for SWAP, for CSWAP and for
an ADD with FETCH; where the bank refuses it the response is ERROR with the atomic DETAIL and memory is as before. The
hall, the stacks and the spare map are as before. (R146, R147, R149, R150, R151, R152, R246, Table 4-5, Table 6-6) -/
def Obligations.AtomicRequestsAnswer : Prop :=
  ∀ (s : State) (m : Fin 16) (h : BitVec 128) (data : List Byte) (b l : Nat) (a : AtomReq) (r : Option (LineRd × WrOut) × State), s.quiet = true →
    hOpc h = opATOM → s.reachesLine m h data .both b l →
    mkAtom (hXf h) (s.keyOf (hCtx h)) (hAddr h % 64) (hLen h) (s.mkMsg h data).data = some a → r = s.bankAtomic b l a →
    ∃ t, (atomOp h = 0 → exec (.atomAdd m h data) s = .next t) ∧ (atomOp h = 1 → exec (.atomSwap m h data) s = .next t) ∧
      (atomOp h = 2 → exec (.atomCswap m h data) s = .next t) ∧ t.hbm = s.hbm ∧ t.spares = s.spares ∧ t.hall = s.hall ∧
      (r.1 = none → t.sram = s.sram ∧ (t.link m).tx = (s.link m).tx ++ [s.rspMsg m h 10 dtAtomic 0 0 []]) ∧
      (∀ old w, r.1 = some (old, w) → t.sram = r.2.sram ∧
        (t.link m).tx = (s.link m).tx ++ [s.rspMsg m h w.status.code 0 (unitMask 8 (atomOut old w (hAddr h % 64) (hLen h)).bytes) 0
          (if atomOp h ≠ 0 ∨ hb h 106 1 = 1 then (atomOut old w (hAddr h % 64) (hLen h)).bytes.map (·.1) else [])])

/-- (1) With merging enabled for its context, an accepted WR without poison that names bytes of one bank line, with the
errand path free, opens one entry that holds the write and its bytes; memory is as before and nothing is answered yet.
(2) At its window's end an entry of a line in a bank with one write, while an errand entry is free, leaves the
combiner, memory is as the bank's write of the merged bytes leaves it, and the write is answered with its status.
(R387, R388, R389, R390, R399) -/
def Obligations.CombinerMergesAndWritesOut : Prop :=
  (∀ (s : State) (m : Fin 16) (h : BitVec 128) (data : List Byte) (b l : Nat), s.quiet = true → hOpc h = opWR → s.reachesLine m h data .wr b l →
    s.flag (erpPage (m / 2)) F.ERP_CMB_CTRL_EN = true → (s.get (erpPage (m / 2)) F.ERP_CMB_CTRL_MERGE_CTX).testBit (hCtx h) = true → hPoison h = 0 →
    ∃ t c, exec (.vtlWr m h data) s = .next t ∧ (t.path (m / 2)).combs = [c] ∧ (t.path (m / 2)).entries = [] ∧
      c.en = enables (hAddr h % 64) (hLen h) ∧ (∀ i < hLen h, c.data.getD (hAddr h % 64 + i) 0 = (s.mkMsg h data).data.getD i 0) ∧
      c.writes = [⟨m, s.mkMsg h data, hAddr h % 64, hLen h, false⟩] ∧ (t.link m).tx = (s.link m).tx ∧ SameMem s t ∧ t.hall = s.hall) ∧
  (∀ (s : State) (g : Fin 8) (i : Fin 16) (c : Comb) (w : Merged) (b l : Nat) (x : WrOut × State), s.quiet = true →
    (s.path g).combs[i.val]? = some c → (s.path g).entries = [] → c.writes = [w] → w.mute = false → c.data.length = 64 → c.en < 2 ^ 64 → c.bad < 256 →
    hOpc w.msg.hdr = opWR → s.target c.dpa = .ok (.sram b l) → s.running pgMMAP = true → s.mirRegion c.dpa = none →
    x = s.bankWrite b l c.en c.data c.bad →
    ∃ t, exec (.combinerWindowExpiry g i) s = .next t ∧ (t.path g).combs = (s.path g).combs.filter (· != c) ∧ (t.path g).entries = [] ∧
      t.sram = x.2.sram ∧ t.hbm = s.hbm ∧ t.spares = s.spares ∧ t.hall = s.hall ∧
      (t.link w.m).tx = (s.link w.m).tx ++ [s.rspMsg w.m w.msg.hdr x.1.status.code 0 (unitMask 8 (((x.1.marks 0 64).drop w.off).take w.n)) 0 []])

/-- For an accepted register request of 4 bytes at an aligned offset of a tenant page that nothing holds: (1) REG_RD
answers OK with the word that a read of the register returns to that port; (2) a REG_WR of ERR_STATUS clears the ones
of its word and answers OK, one of FQ_BASE_LO while the fault queue is off stores the field's bits and answers OK. (3)
A request that is misaligned or of another length answers ERROR with the register DETAIL and sets BAD_ACCESS. (4) A
register request of a context that the module is not authorised for answers DENIED and sets ACCESS_DENIED on the page.
(5) An NOP slot leaves everything as it is. (R11, R88, R118, R246, R260, Table 6-6, Table 6-8) -/
def Obligations.RegisterRequestsOfAModule : Prop :=
  (∀ (s : State) (m : Fin 16) (h : BitVec 128) (data : List Byte) (p : Page), s.quiet = true → hOpc h = opREG_RD → s.accepts m h data →
    tenantPage (hCtx h) (hAddr h / 0x1000 % 16) = some p → hLen h = 4 → hAddr h % 4 = 0 → s.regHeld (.module m) p (hAddr h % 0x1000) none = false →
    ∃ t, exec (.vtlRegRd m h data) s = .next t ∧
      (t.link m).tx = (s.link m).tx ++ [s.rspMsg m h 0 0 0 (s.readReg (.module m) p (hAddr h % 0x1000)).1.toNat []] ∧ SameMem s t ∧ t.hall = s.hall) ∧
  (∀ (s : State) (m : Fin 16) (h : BitVec 128) (data : List Byte) (p : Page), s.quiet = true → hOpc h = opREG_WR → s.accepts m h data →
    tenantPage (hCtx h) (hAddr h / 0x1000 % 16) = some p → hLen h = 4 → hAddr h % 0x1000 = 0x020 →
    s.regHeld (.module m) p 0x020 (some (BitVec.ofNat 32 (hXf h))) = false →
    ∃ t, exec (.vtlRegWr m h data) s = .next t ∧ t.rd p 0x020 = s.rd p 0x020 &&& ~~~(BitVec.ofNat 32 (hXf h)) ∧
      (t.link m).tx = (s.link m).tx ++ [s.rspMsg m h 0 0 0 0 []] ∧ SameMem s t ∧ t.hall = s.hall) ∧
  (∀ (s : State) (m : Fin 16) (h : BitVec 128) (data : List Byte) (c : Fin 16), s.quiet = true → hOpc h = opREG_WR → s.accepts m h data → hCtx h = c.val →
    hAddr h / 0x1000 % 16 = 1 → hLen h = 4 → hAddr h % 0x1000 = 0x100 → s.flag (tfqPage c) F.TFQ_FQ_CTRL_EN = false →
    s.regHeld (.module m) (tfqPage c) 0x100 (some (BitVec.ofNat 32 (hXf h))) = false →
    ∃ t, exec (.vtlRegWr m h data) s = .next t ∧ t.get (tfqPage c) F.TFQ_FQ_BASE_LO_TVA = wbits (BitVec.ofNat 32 (hXf h)) F.TFQ_FQ_BASE_LO_TVA.lo F.TFQ_FQ_BASE_LO_TVA.w ∧
      (t.link m).tx = (s.link m).tx ++ [s.rspMsg m h 0 0 0 0 []] ∧ SameMem s t ∧ t.hall = s.hall) ∧
  (∀ (s : State) (m : Fin 16) (h : BitVec 128) (data : List Byte) (p : Page), s.quiet = true → hOpc h = opREG_WR → s.accepts m h data →
    tenantPage (hCtx h) (hAddr h / 0x1000 % 16) = some p → (hLen h ≠ 4 ∨ hAddr h % 4 ≠ 0) →
    ∃ t, exec (.vtlRegWr m h data) s = .next t ∧ (t.rd p 0x020).getLsbD Err.BAD_ACCESS = true ∧
      (t.link m).tx = (s.link m).tx ++ [s.rspMsg m h 10 dtRegister 0 0 []] ∧ SameMem s t) ∧
  (∀ (s : State) (m : Fin 16) (h : BitVec 128) (data : List Byte) (p : Page), s.quiet = true → hOpc h = opREG_RD → s.modUp m = true →
    s.modHeld m = false → (s.link m).rx = [] → (∃ u, s.rxAdmit m (s.mkMsg h data) = .ok u) → s.reqCheck m h = some (5, dtNotAuth) →
    tenantPage (hCtx h) (hAddr h / 0x1000 % 16) = some p →
    ∃ t, exec (.vtlRegRd m h data) s = .next t ∧ (t.rd p 0x020).getLsbD Err.ACCESS_DENIED = true ∧
      (t.link m).tx = (s.link m).tx ++ [s.rspMsg m h 5 dtNotAuth 0 0 []] ∧ SameMem s t) ∧
  (∀ (s : State) (m : Fin 16) (h : BitVec 128), s.quiet = true → exec (.nopMsg m h) s = .next s)

/-- (1) The one running walk of a gallery, with no waiter and no invalidation in progress, that ends in a leaf leaves that
leaf in its cache set and no walk. (2) A walk whose root lies in no memory answers the request that waits for it with
FAULT, kind BAD_TARGET, and counts the fault. (3) With none in progress a served RANGE with pages to cover, CONTEXT or
ALL sets BUSY, is in progress, and no cache of any gallery holds a leaf that it covers; with RANGE and COUNT 0 it only
sets INVAL_IGNORED. (4) Once no walk it made stale and no access that a leaf it covers translated remains, in the
errand path or in a combiner entry, the invalidation ends with BUSY 0 and DONE. (R99, R102, R103, R104, R105, R106,
R107, Table 3-4) -/
def Obligations.WalkEntersItsLeafAndInvalidationDropsIt : Prop :=
  (∀ (s : State) (g : Fin 8) (w : Walk) (leaf : Leaf), s.quiet = true → (s.xl g).walks = [w] → w.running = true → w.waiters = [] → s.inval = none →
    (s.walk g w.ctx (w.page * 2 ^ 16) w.cls w.urg w.root).1 = .leaf leaf →
    ∃ t, exec (.xltWalkDone g 0) s = .next t ∧ (t.xl g).walks = [] ∧ leaf ∈ (find (t.xl g).cache (xltSet leaf.tva leaf.size)).getD []) ∧
  (∀ (s : State) (g : Fin 8) (w : Walk) (e : Errand), s.quiet = true → (s.xl g).walks = [w] → w.running = true → w.waiters = [.errand e.id] →
    s.inside w.root 4096 = false → (s.path g).entries = [e] → e.dpas = [] → e.discard = false → e.active = false →
    s.get pgMMAP (F.MMAP_XLT_FAULT.at g) < 2 ^ 32 - 1 →
    ∃ t, exec (.xltWalkDone g 0) s = .next t ∧ (t.xl g).walks = [] ∧ (t.path g).entries = [] ∧
      (t.link e.m).tx = (s.link e.m).tx ++ [s.rspMsg e.m e.msg.hdr 4 5 0 0 []] ∧
      t.get pgMMAP (F.MMAP_XLT_FAULT.at g) = s.get pgMMAP (F.MMAP_XLT_FAULT.at g) + 1 ∧ SameMem s t ∧ t.hall = s.hall) ∧
  (∀ (s : State) (c : Fin 16) (scope : Nat), s.quiet = true → scope < 3 → s.writes .steward pgMMAP 0x1C0 (wordOf (c.val + 16 * scope)) = true →
    s.inval = none → (scope = 0 → s.get pgMMAP F.MMAP_XLT_INVAL_COUNT_PAGES ≠ 0) →
    ∃ t, (scope = 0 → exec (.invalRange c) s = .next t) ∧ (scope = 1 → exec (.invalContext c) s = .next t) ∧
      (scope = 2 → exec (.invalAll c) s = .next t) ∧ t.flag pgMMAP F.MMAP_XLT_INVAL_STATUS_BUSY = true ∧
      (∃ i, t.inval = some i ∧ i.scope = scope ∧ i.ctx = c ∧ ∀ g < 8, ∀ e ∈ (t.xl g).cache, ∀ leaf ∈ e.2, i.hits leaf = false) ∧
      t = { s with regs := t.regs, xlt := t.xlt, inval := t.inval }) ∧
  (∀ (s : State) (c : Fin 16), s.quiet = true → s.writes .steward pgMMAP 0x1C0 (wordOf c) = true → s.get pgMMAP F.MMAP_XLT_INVAL_COUNT_PAGES = 0 →
    ∃ t, exec (.invalRange c) s = .next t ∧ t.inval = s.inval ∧ t.xlt = s.xlt ∧ (t.rd pgMMAP 0x020).getLsbD Err.MMAP_INVAL_IGNORED = true ∧ SameMem s t) ∧
  (∀ (s : State) (i : Inval), s.quiet = true → s.inval = some i → (∀ g < 8, ∀ w ∈ (s.xl g).walks, w.stale = false) →
    (∀ g < 8, ∀ e ∈ (s.path g).entries, ∀ l ∈ e.via, i.hits l = false) → (∀ g < 8, ∀ c ∈ (s.path g).combs, ∀ l ∈ c.via, i.hits l = false) →
    ∃ t, exec .xltInvalDone s = .next t ∧ t.inval = none ∧ t.flag pgMMAP F.MMAP_XLT_INVAL_STATUS_BUSY = false ∧
      t.flag pgMMAP F.MMAP_XLT_INVAL_STATUS_DONE = true ∧ t = { s with regs := t.regs, inval := none })

/-- On a link that is UP and no twin link: (1) a flit with a bad CRC sets CRC_ERR, owes a NAK and awaits the expected SEQ.
(2) A good PAYLOAD flit of NOP slots with the expected SEQ, without acknowledgement or credits, advances the expected
SEQ by one modulo 4096 and ends the wait. (3) One that holds an RD in slot 0 also puts that request into the receive
buffer. (4) A duplicate changes nothing. (5) An ACK of a buffered flit that carries no stream line drops every flit up
to it. (6) NAK_RESEND while awaiting owes a NAK again. (7) REPLAY_TIMER without progress sends every buffered flit
again, or asks for a retrain after four. (8) A retrain's end sends every buffered flit again and shows the repaired
lanes. (9) A NAK of the flit before the oldest buffered one sends every buffered flit again. (R229, R231, R232, R234,
R235, R236, R237, R241, Table 6-2) -/
def Obligations.FlitsAreCheckedAndAcceptedInOrder : Prop :=
  (∀ (s : State) (m : Fin 16) (raw : BitVec 2048), s.quiet = true → s.modUp m = true →
    crc32 ((leBytes 256 raw.toNat).take 252) ≠ leAt (leBytes 256 raw.toNat) 252 4 →
    ∃ t, exec (.flitReceive m raw) s = .next t ∧ (t.rd (modPage m) 0x020).getLsbD Err.MOD_CRC_ERR = true ∧ (t.link m).awaiting = true ∧
      ((s.link m).awaiting = false → (t.link m).nakOwed = true) ∧ (t.link m).rx = (s.link m).rx ∧ (t.link m).expSeq = (s.link m).expSeq ∧ SameMem s t) ∧
  (∀ (s : State) (m : Fin 16) (raw : BitVec 2048) (bs : List Byte) (tr : Trailer), s.quiet = true → s.modUp m = true → s.isTwin m = false →
    bs = leBytes 256 raw.toNat → tr = parseTrailer (leAt bs 240 12) → crc32 (bs.take 252) = leAt bs 252 4 → tr.kind = 0 → tr.ackKind = 0 →
    tr.creds.all (fun c => c.2.2 == 0) = true → (∀ i < 15, 0 < i → leAt bs (16 * i) 1 = opNOP) →
    (tr.seq = (s.link m).expSeq → leAt bs 0 1 = opNOP →
      ∃ t, exec (.flitReceive m raw) s = .next t ∧ t.link m = { s.link m with expSeq := ((s.link m).expSeq + 1) % 4096, awaiting := false } ∧
        t = { s with regs := t.regs, links := t.links }) ∧
    (tr.seq = (s.link m).expSeq → leAt bs 0 1 = opRD → hTag (BitVec.ofNat 128 (leAt bs 0 16)) ∉ (s.link m).tags →
      (s.link m).inUse (hVc (BitVec.ofNat 128 (leAt bs 0 16))) 0 < 48 → (s.link m).inUse (hVc (BitVec.ofNat 128 (leAt bs 0 16))) 3 ≤ 256 →
      ∃ t, exec (.flitReceive m raw) s = .next t ∧ (t.link m).rx = (s.link m).rx ++ [⟨⟨BitVec.ofNat 128 (leAt bs 0 16), []⟩, false⟩] ∧
        (t.link m).expSeq = ((s.link m).expSeq + 1) % 4096 ∧ t = { s with regs := t.regs, links := t.links }) ∧
    (tr.seq ≠ (s.link m).expSeq → ((s.link m).expSeq + 4095 - tr.seq) % 4096 < 64 → exec (.flitReceive m raw) s = .next s)) ∧
  (∀ (s : State) (m : Fin 16) (raw : BitVec 2048) (bs : List Byte) (tr : Trailer) (f : TxFlit) (rest : List TxFlit), s.quiet = true → s.modUp m = true →
    s.isTwin m = false → bs = leBytes 256 raw.toNat → tr = parseTrailer (leAt bs 240 12) → crc32 (bs.take 252) = leAt bs 252 4 → tr.kind = 1 →
    tr.ackKind = 1 → (s.link m).replay = f :: rest → tr.ack = f.seq → f.kinds = [] →
    ∃ t, exec (.flitReceive m raw) s = .next t ∧ (t.link m).replay = rest ∧ (t.link m).replays = 0 ∧ t = { s with links := t.links }) ∧
  (∀ (s : State) (m : Fin 16) (raw : BitVec 2048) (bs : List Byte) (tr : Trailer) (f : TxFlit) (rest : List TxFlit), s.quiet = true → s.modUp m = true →
    s.isTwin m = false → bs = leBytes 256 raw.toNat → tr = parseTrailer (leAt bs 240 12) → crc32 (bs.take 252) = leAt bs 252 4 → tr.kind = 1 →
    tr.ackKind = 2 → (s.link m).replay = f :: rest → (∀ x ∈ f :: rest, x.seq ≠ tr.ack) → tr.ack = (f.seq + 4095) % 4096 → (s.link m).replays < 4 →
    ∃ t, exec (.flitReceive m raw) s = .next t ∧ (t.link m).resend = f.seq :: rest.map (·.seq) ∧ (t.link m).replay = f :: rest ∧
      (t.rd (modPage m) 0x020).getLsbD Err.MOD_REPLAY = true ∧ SameMem s t) ∧
  (∀ (s : State) (m : Fin 16), s.quiet = true → (s.link m).awaiting = true →
    ∃ t, exec (.nakResend m) s = .next t ∧ t.link m = { s.link m with nakOwed := true } ∧ t = { s with links := t.links }) ∧
  (∀ (s : State) (m : Fin 16), s.quiet = true → s.modUp m = true → (s.link m).replay ≠ [] → (s.link m).retraining = false →
    (s.link m).ackAt + 4 ≤ s.ticks →
    ((s.link m).replays < 4 → ∃ t, exec (.replayTimer m) s = .next t ∧ (t.link m).resend = (s.link m).replay.map (·.seq) ∧
      (t.link m).replays = (s.link m).replays + 1 ∧ (t.rd (modPage m) 0x020).getLsbD Err.MOD_REPLAY = true ∧ SameMem s t) ∧
    (4 ≤ (s.link m).replays → (s.link m).retrains = [] → ∃ t, exec (.replayTimer m) s = .next t ∧ (t.link m).retraining = true ∧
      (t.rd (modPage m) 0x020).getLsbD Err.MOD_RETRAIN = true ∧ SameMem s t)) ∧
  (∀ (s : State) (m : Fin 16) (lanes : BitVec 8), s.quiet = true → (s.link m).retraining = true →
    ∃ t, exec (.linkRetrainDone m lanes true) s = .next t ∧ (t.link m).retraining = false ∧
      ((s.link m).replay ≠ [] → (t.link m).resend = (s.link m).replay.map (·.seq) ∧ (t.rd (modPage m) 0x020).getLsbD Err.MOD_REPLAY = true) ∧
      t.get (modPage m) F.MOD_MOD_STATUS_REPAIRED_LANES = lanes.toNat % 16 ∧ SameMem s t ∧ t.hall = s.hall)

/-- (1) Training that ends well puts the link into CRED_INIT at the lower of its rate and MAX_RATE and queues eight
CRED_INIT; a failed one leaves it DOWN with TRAIN_FAIL. (2) A CRED_INIT of a VC not yet initialised sets that VC's
credits; the eighth makes the link UP. (3) A link that goes down, a failed retrain, a served RESET from P4 on, and
ENABLE written to 0, of a link that is no twin link and has no work inside the die, leave it RESETTING with nothing
buffered and no credit. (4) A reset that has run, with no request of the module left inside the die, leaves a disabled
link DOWN and one that is enabled and not halted in TRAINING. (5) A served ENABLE of a link that is DOWN starts
training. (R227, R237, R242, R276, R277, R279, R720, R759, Table 6-14) -/
def Obligations.LinkLifeFromTrainingToReset : Prop :=
  (∀ (s : State) (m : Fin 16) (rate : Fin 3) (lanes : BitVec 8), s.quiet = true → s.modState m = 1 →
    (∃ t, exec (.linkUp m rate lanes true) s = .next t ∧ t.modState m = 2 ∧
      t.get (modPage m) F.MOD_MOD_STATUS_RATE = min rate.val (s.get (modPage m) F.MOD_MOD_CTRL_MAX_RATE) ∧
      (t.link m).tx = (s.link m).tx ++ (List.range 8).map credInitMsg ∧ SameMem s t) ∧
    (∃ t, exec (.linkUp m rate lanes false) s = .next t ∧ t.modState m = 0 ∧ (t.rd (modPage m) 0x020).getLsbD Err.MOD_TRAIN_FAIL = true ∧
      t.links = s.links ∧ SameMem s t)) ∧
  (∀ (s : State) (m : Fin 16) (h : BitVec 128), s.quiet = true → hOpc h = opCRED_INIT → s.modState m = 2 → s.isTwin m = false →
    (s.link m).credInit.testBit (hVc h) = false → hb h 32 8 ≠ 0 → hb h 40 8 ≠ 0 → hb h 48 8 ≠ 0 → 4 ≤ hb h 64 12 →
    ∃ t, exec (.credInit m h) s = .next t ∧ t.cred m (hVc h) 0 = hb h 32 8 ∧ t.cred m (hVc h) 1 = hb h 40 8 ∧ t.cred m (hVc h) 2 = hb h 48 8 ∧
      t.cred m (hVc h) 3 = hb h 64 12 ∧ (t.link m).credInit = (s.link m).credInit ||| 2 ^ hVc h ∧
      t.modState m = (if (s.link m).credInit ||| 2 ^ hVc h = 0xFF then 3 else 2) ∧ t = { s with regs := t.regs, links := t.links }) ∧
  (∀ (s : State) (m : Fin 16), s.quiet = true → s.isTwin m = false → s.noWork m →
    (s.modState m ≠ 0 → s.modState m ≠ 4 → ∃ t, exec (.linkDown m) s = .next t ∧ LinkGone s t m ∧ (t.rd (modPage m) 0x020).getLsbD Err.MOD_LINK_DOWN = true) ∧
    (s.modState m ≠ 0 → s.modState m ≠ 4 → (s.link m).retraining = true →
      ∃ t, exec (.linkRetrainDone m 0 false) s = .next t ∧ LinkGone s t m ∧ (t.rd (modPage m) 0x020).getLsbD Err.MOD_LINK_DOWN = true) ∧
    (s.writes .steward (modPage m) 0x100 (s.modWord m ||| 0x10) = true → 4 ≤ s.phase → ∃ t, exec (.moduleReset m) s = .next t ∧ LinkGone s t m) ∧
    (s.writes .steward (modPage m) 0x100 (wput (s.modWord m) 0 1 0) = true → s.flag (modPage m) F.MOD_MOD_CTRL_ENABLE = true →
      ∃ t, exec (.modEnable m false) s = .next t ∧ LinkGone s t m ∧ t.flag (modPage m) F.MOD_MOD_CTRL_ENABLE = false)) ∧
  (∀ (s : State) (m : Fin 16), s.quiet = true → s.modState m = 4 → s.linkBusy m = false →
    ∃ t, exec (.moduleResetDone m) s = .next t ∧
      (s.flag (modPage m) F.MOD_MOD_CTRL_ENABLE = false → t.modState m = 0) ∧
      (s.flag (modPage m) F.MOD_MOD_CTRL_ENABLE = true → 3 ≤ s.phase → s.phase ≠ 7 → s.flag (modPage m) F.PAGE_CTRL_HALT = false → t.modState m = 1) ∧
      t = { s with regs := t.regs, links := t.links }) ∧
  (∀ (s : State) (m : Fin 16), s.quiet = true → s.writes .steward (modPage m) 0x100 (wput (s.modWord m) 0 1 1) = true → s.modState m = 0 →
    s.flag (modPage m) F.MOD_MOD_CTRL_ENABLE = false → 3 ≤ s.phase → s.phase ≠ 7 → s.flag (modPage m) F.PAGE_CTRL_HALT = false →
    ∃ t, exec (.modEnable m true) s = .next t ∧ t.modState m = 1 ∧
      t.flag (modPage m) F.MOD_MOD_CTRL_ENABLE = true ∧ t = { s with regs := t.regs, links := t.links })

/-- (1) An SRD_RSP that answers an outstanding SRD ends it and marks its line staged, unless the page MMAP is halted; one
whose tag is quarantined only counts LATE_RSP. (2) An EVT that fits, with room at the crier, appends its keys to the
intake; one that does not counts EVT_REFUSED and sets its bit. (3) STALL_WARN of a VC stalled for STALL_WARN ticks and
not yet warned sets its WARNED bit and PORT_STALL. (4) ABANDON of a VC stalled for more than ABANDON ticks ends the
one running descriptor, which has a line on it, with status 9, and leaves memory and the hall as they were. (5) An SRD
past its deadline is quarantined and sets RSP_TIMEOUT. (R254, R259, R272, R273, R274, R275, R556, Table 6-9) -/
def Obligations.StreamResponsesEventsAndStalls : Prop :=
  (∀ (s : State) (m : Fin 16) (h : BitVec 128) (data : List Byte), s.quiet = true → hOpc h = opSRD_RSP → s.isTwin m = false → s.modUp m = true →
    (s.link m).rx = [] → (∃ u, s.rxAdmit m (s.mkMsg h data) = .ok u) →
    (∀ (r : Srd) (d : Desc) (tok : Token) (l : StLine), (s.link m).srds = [r] → r.tag = hTag h → s.desc? r.queue r.desc = some d →
      d.tokens = [tok] → tok.id = r.token → tok.lines[r.part]? = some l → s.stageOpen = true →
      ∃ t d', exec (.srdRsp m h data) s = .next t ∧ (t.link m).srds = [] ∧ t.desc? r.queue r.desc = some d' ∧
        (∃ tok', d'.tokens = [tok'] ∧ (tok'.lines[r.part]?).map (·.fin) = some true) ∧ t.hbm = s.hbm ∧ t.hall = s.hall) ∧
    ((s.link m).srds = [] → hTag h ∈ (s.link m).quarantined → s.get (modPage m) F.MOD_LATE_RSP < 2 ^ 16 - 1 →
      ∃ t, exec (.srdRsp m h data) s = .next t ∧ t.get (modPage m) F.MOD_LATE_RSP = s.get (modPage m) F.MOD_LATE_RSP + 1 ∧ SameMem s t ∧
        t.queues = s.queues)) ∧
  (∀ (s : State) (m : Fin 16) (h : BitVec 128) (data : List Byte), s.quiet = true → hOpc h = opEVT → s.isTwin m = false → s.modUp m = true →
    s.modHeld m = false → (s.link m).rx = [] → (∃ u, s.rxAdmit m (s.mkMsg h data) = .ok u) →
    (s.evtFits m (s.mkMsg h data) = true → s.intakeRoom (m / 2) (evtKeys (s.mkMsg h data)).length = true →
      ∃ t, exec (.vtlEvt m h data) s = .next t ∧ (t.crier (m / 2)).intake = (s.crier (m / 2)).intake ++ evtKeys (s.mkMsg h data) ∧
        t = { s with links := t.links, criers := t.criers }) ∧
    (s.evtFits m (s.mkMsg h data) = false → ∃ t, exec (.vtlEvt m h data) s = .next t ∧ t.criers = s.criers ∧
      (t.rd (modPage m) 0x020).getLsbD Err.MOD_EVT_REFUSED = true ∧ SameMem s t)) ∧
  (∀ (s : State) (m : Fin 16) (vc : Fin 8) (n : Nat), s.quiet = true → s.stalledFor m vc = some n →
    max 1 (s.get (modPage m) F.MOD_STALL_CTRL_STALL_WARN) ≤ n → (s.get (modPage m) F.MOD_STALL_STATE_WARNED).testBit vc = false →
    ∃ t, exec (.stallWarn m vc) s = .next t ∧ (t.get (modPage m) F.MOD_STALL_STATE_WARNED).testBit vc = true ∧
      (t.rd (modPage m) 0x020).getLsbD Err.MOD_PORT_STALL = true ∧ t = { s with regs := t.regs, elog := t.elog, trace := t.trace }) ∧
  (∀ (s : State) (m : Fin 16) (vc : Fin 8) (q : Nat) (d : Desc) (n : Nat), s.quiet = true → s.isTwin m = false → q < 128 →
    s.stalledFor m vc = some n → s.get (modPage m) F.MOD_STALL_CTRL_ABANDON ≠ 0 → s.get (modPage m) F.MOD_STALL_CTRL_ABANDON < n →
    (∀ k < 128, k ≠ q → (s.queue k).descs = []) → (s.queue q).descs = [d] → d.active = true → d.waiting = false → d.ending = none →
    (∃ x ∈ (s.link m).tx, x.vc = vc ∧ ∃ bytes, x.kind = .swr q d.num bytes) → s.hall.holders = [] →
    ∃ t d', exec (.vcAbandon m vc) s = .next t ∧ t.desc? q d.num = some d' ∧ d'.ending = some (9, 0) ∧ d'.tokens = [] ∧ SameMem s t ∧ t.hall = s.hall) ∧
  (∀ (s : State) (m : Fin 16) (tag : BitVec 9) (r : Srd) (n : Nat), s.quiet = true → (s.link m).srds = [r] → r.tag = tag.toNat → r.deadline = some n →
    n ≤ s.ticks → s.desc? r.queue r.desc = none →
    ∃ t, exec (.rspTimeout m tag) s = .next t ∧ (t.link m).srds = [] ∧ tag.toNat ∈ (t.link m).quarantined ∧
      (t.rd (modPage m) 0x020).getLsbD Err.MOD_RSP_TIMEOUT = true ∧ SameMem s t ∧ t.queues = s.queues)

/-- On a stack that serves: (1) a burst on a channel that owes no refresh and is not in retrain, for a queued whole-line
write, alone in the queue, with no injection armed, leaves the queue empty and the line as written, poisoned granules
as stored poison, every other line as before. (2) For a read or a partial write alone in the queue it marks it as
granted, opens its row and changes no memory. (3) When it returns, the request's piece answers with the status, poison
and bytes of the line under the stack's report. (4) A patrol read of a good line, with reads left in its tick, moves
the patrol on by one line, or to 0 after the last. (5) REFRESH, and RFM of a bank whose activations have met the
threshold, count, close the bank's row and wake the channel. (6) An unwanted row closes. (7) An idle channel powers
down where enabled. (R286, R287, R288, R291, R292, R294, R295, R296, R298, Table 7-7) -/
def Obligations.StackServesItsQueue : Prop :=
  (∀ (s : State) (g : Fin 8) (ch : Fin 32) (busy : BitVec 2) (r : StackReq), s.quiet = true → s.hcGone g = false → s.hcChanOpen g ch = true →
    (s.hc g).queue = [r] → (s.hbmAddr g r.line).chan = ch → busy.getLsbD (s.hbmAddr g r.line).pc = false → r.granted = false → r.cls < 8 →
    (r.complete = true → r.line < 2 ^ 30 → s.flag (hcPage g) F.HC_HC_INJECT_ARM = false → ∃ t, exec (.stackBurst g ch busy) s = .next t ∧
      (t.hc g).queue = [] ∧
      (∀ j < 8, r.pois.testBit j = false → t.hbmGranPeek g r.line j = ⟨leAt r.data (8 * j) 8, .good, 0⟩) ∧
      (∀ j < 8, r.pois.testBit j = true → (t.hbmGranPeek g r.line j).cls = .storedPoison) ∧
      (∀ g' line, g' < 8 → line < 2 ^ 30 → (g' ≠ g.val ∨ line ≠ r.line) → t.hbmPeek g' line = s.hbmPeek g' line) ∧ t.sram = s.sram ∧ t.hall = s.hall) ∧
    (r.complete = false → ∃ t, exec (.stackBurst g ch busy) s = .next t ∧ (t.hc g).queue = [{ r with granted := true, scrub := s.scrubOn g }] ∧
      find (t.hc g).rows (s.hbmAddr g r.line).key = some (s.hbmAddr g r.line).row ∧ SameMem s t ∧ t.hall = s.hall)) ∧
  (∀ (s : State) (g eg : Fin 8) (line : Fin (2 ^ 30)) (sev : Fin 3) (r : StackReq) (e : Errand) (p : Piece) (x : LineRd), s.quiet = true →
    (s.hc g).queue = [r] → r.line = line → r.granted = true → r.write = false → r.org = .errand eg e.id 0 → (s.path eg).entries = [e] → e.pieces = [p] →
    hOpc e.msg.hdr = opRD → e.merged = [] → e.discard = false → x = underReport sev (s.hbmPeek g line) →
    ∃ t, exec (.stackReadDone g line sev) s = .next t ∧ (t.hc g).queue = [] ∧ (t.path eg).entries = [] ∧ t.sram = s.sram ∧ t.hall = s.hall ∧
      (t.link e.m).tx = (s.link e.m).tx ++ [s.rspMsg e.m e.msg.hdr (x.status p.off p.n).code 0 (unitMask 8 (x.slice p.off p.n)) 0
        ((x.slice p.off p.n).map (·.1))]) ∧
  (∀ (s : State) (g : Fin 8), s.quiet = true → s.hcOpen g = true → s.flag (hcPage g) F.HC_HC_CTRL_PATROL_EN = true →
    (s.hc g).patLeft ≠ 0 → s.hcLines g ≠ 0 → (s.hc g).queue = [] → s.hcChanOpen g (s.hbmAddr g (s.patrolPos g / 64)).chan = true →
    s.hcAdmits g (s.get (hcPage g) F.HC_HC_PATROL_CLASS) 0 = true →
    (∀ j < 8, (s.hbmGranPeek g (s.patrolPos g / 64) j).cls = .good) →
    ∃ t, exec (.patrolRead g 0) s = .next t ∧ SameMem s t ∧ t.hall = s.hall ∧
      t.patrolPos g = (if s.patrolPos g / 64 + 1 < s.hcLines g then (s.patrolPos g / 64 + 1) * 64 else 0)) ∧
  (∀ (s : State) (g : Fin 8) (ch : Fin 32) (pc : Fin 2) (bank : Fin 64), s.quiet = true → s.hcState g = 2 →
    (∃ t, exec (.refreshDue g ch pc bank) s = .next t ∧ find (t.hc g).rows ((ch.val * 2 + pc.val) * 64 + bank.val) = none ∧ ch.val ∉ (t.hc g).asleep ∧
      (t.hc g).queue = (s.hc g).queue ∧ SameMem s t ∧
      (t.rd (hcPage g) F.HC_REFRESHES.off).toNat + (t.rd (hcPage g) (F.HC_REFRESHES.off + 4)).toNat * 2 ^ 32 =
        ((s.rd (hcPage g) F.HC_REFRESHES.off).toNat + (s.rd (hcPage g) (F.HC_REFRESHES.off + 4)).toNat * 2 ^ 32 + 1) % 2 ^ 64) ∧
    (s.get (hcPage g) F.HC_RFM_COUNT < 2 ^ 32 - 1 →
      max 1 (s.hc g).rfmAt ≤ (find (s.hc g).acts ((ch.val * 2 + pc.val) * 64 + bank.val)).getD 0 → ∃ t, exec (.rfmDue g ch pc bank) s = .next t ∧
      find (t.hc g).rows ((ch.val * 2 + pc.val) * 64 + bank.val) = none ∧ ch.val ∉ (t.hc g).asleep ∧ (t.hc g).queue = (s.hc g).queue ∧ SameMem s t ∧
      t.get (hcPage g) F.HC_RFM_COUNT = s.get (hcPage g) F.HC_RFM_COUNT + 1)) ∧
  (∀ (s : State) (g : Fin 8) (ch : Fin 32) (pc : Fin 2) (bank : Fin 64), s.quiet = true → (s.hc g).queue = [] →
    (∃ t, exec (.rowClose g ch pc bank) s = .next t ∧
      t.hc g = { s.hc g with rows := del (s.hc g).rows ((ch.val * 2 + pc.val) * 64 + bank.val) } ∧ t = { s with hcs := t.hcs }) ∧
    (s.flag (hcPage g) F.HC_HC_CTRL_PD_EN = true → s.hcState g = 2 → ch.val ∉ (s.hc g).asleep →
      ∃ t, exec (.powerDown g ch) s = .next t ∧ t.hc g = { s.hc g with asleep := (s.hc g).asleep ++ [ch.val] } ∧ t = { s with hcs := t.hcs }))

/-- (1) With no parity event recent, one of the command bus closes the channel's banks, where no read is out, and one of a
write writes the line that the slot keeps again; each sets its bit and retrains nothing; the fourth of a channel
within 1 ms retrains it. (2) The last channel's retrain brings a running stack back UP; a failed one, or STACK_FAILED,
leaves it FAILED, with no capacity trained and nothing queued. (3) A served CLEAR of a stack that is UP sets CLEARING,
of any other BAD_VALUE; its end makes every line of the stack zeros with normal check bits and changes no other stack.
(4) A served RETRAIN of a HALTED stack retrains all 32 channels. (5) Training that ends well makes the stack UP with
the capacity found; retraining in a warm boot's P4 brings it UP too; both at the lower of the rate found and MAX_RATE.
(6) A temperature reading is shown with VALID, none with TEMP_INVALID and the fastest refresh. (R297, R309, R310,
R311, R314, R315, R316, R317, Table 7-7) -/
def Obligations.StackFaultsRetrainsAndClears : Prop :=
  (∀ (s : State) (g : Fin 8) (ch : Fin 32), s.quiet = true → ch.val ∉ (s.hc g).retraining →
    ((s.hc g).parity = [] →
      ((∀ r ∈ (s.hc g).queue, r.granted = false) → ∃ t, exec (.caParity g ch) s = .next t ∧ (t.rd (hcPage g) 0x020).getLsbD Err.HC_CA_PARITY = true ∧ (t.hc g).parity = [(ch.val, s.ticks)] ∧
        (∀ e ∈ (t.hc g).rows, e.1 / 128 ≠ ch.val) ∧ (t.hc g).retraining = (s.hc g).retraining ∧ (t.hc g).queue = (s.hc g).queue ∧ SameMem s t) ∧
      (∀ w, find (s.hc g).wrote ch.val = some w → w.line < 2 ^ 30 → s.flag (hcPage g) F.HC_HC_INJECT_ARM = false →
        ∃ t, exec (.wrParity g ch) s = .next t ∧ (t.rd (hcPage g) 0x020).getLsbD Err.HC_WR_PARITY = true ∧ (t.hc g).parity = [(ch.val, s.ticks)] ∧
        (t.hc g).retraining = (s.hc g).retraining ∧ (t.hc g).queue = (s.hc g).queue ∧
        (∀ j < 8, w.pois.testBit j = false → t.hbmGranPeek g w.line j = ⟨leAt w.data (8 * j) 8, .good, 0⟩) ∧
        (∀ j < 8, w.pois.testBit j = true → (t.hbmGranPeek g w.line j).cls = .storedPoison) ∧
        (∀ g' line, g' < 8 → line < 2 ^ 30 → (g' ≠ g.val ∨ line ≠ w.line) → t.hbmPeek g' line = s.hbmPeek g' line) ∧ t.sram = s.sram)) ∧
    ((s.hc g).parity = [(ch.val, s.ticks), (ch.val, s.ticks), (ch.val, s.ticks)] → (s.hc g).retrains = [] →
      ∃ t, exec (.caParity g ch) s = .next t ∧ ch.val ∈ (t.hc g).retraining ∧ (t.hc g).retrains = [s.ticks] ∧ (t.hc g).parity = [] ∧
        (t.rd (hcPage g) 0x020).getLsbD Err.HC_CHAN_RETRAIN = true ∧ SameMem s t)) ∧
  (∀ (s : State) (g : Fin 8) (ch : Fin 32), s.quiet = true → (s.hc g).retraining = [ch.val] → s.hcState g = 3 → s.running (hcPage g) = true →
    ∃ t, exec (.chanRetrainDone g ch true) s = .next t ∧ t.hcState g = 2 ∧ (t.hc g).retraining = [] ∧ (t.hc g).queue = (s.hc g).queue ∧
      t.get (hcPage g) F.HC_HC_STATUS_RATE = min (s.hc g).best (s.get (hcPage g) F.HC_HC_CTRL_MAX_RATE) ∧
      t = { s with regs := t.regs, hcs := t.hcs, freeCtr := t.freeCtr }) ∧
  (∀ (s : State) (g : Fin 8) (ch : Fin 32), s.quiet = true → (s.hc g).queue = [] → (s.hc g).waiting = [] →
    (s.hcState g = 2 ∨ s.hcState g = 3 ∨ s.hcState g = 5 → ∃ t, exec (.stackFailed g) s = .next t ∧ t.hcState g = 4 ∧
      t.get pgMMAP (F.MMAP_HBM_CAP_TRAINED.at g) = 0 ∧ (t.rd (hcPage g) 0x020).getLsbD Err.HC_STACK_FAILED = true ∧ SameMem s t) ∧
    (ch.val ∈ (s.hc g).retraining → ∃ t, exec (.chanRetrainDone g ch false) s = .next t ∧ t.hcState g = 4 ∧
      t.get pgMMAP (F.MMAP_HBM_CAP_TRAINED.at g) = 0 ∧ (t.rd (hcPage g) 0x020).getLsbD Err.HC_STACK_FAILED = true ∧ SameMem s t)) ∧
  (∀ (s : State) (g : Fin 8), s.quiet = true → s.writes .steward (hcPage g) 0x100 (s.hcWord g ||| 0x200) = true →
    (s.hcState g = 2 → s.running (hcPage g) = true → s.flag (hcPage g) F.HC_HC_STATUS_CLEARING = false →
      ∃ t, exec (.stackClear g) s = .next t ∧ t.flag (hcPage g) F.HC_HC_STATUS_CLEARING = true ∧ SameMem s t ∧ t.hcs = s.hcs) ∧
    (s.hcState g ≠ 2 → ∃ t, exec (.stackClear g) s = .next t ∧ (t.rd (hcPage g) 0x020).getLsbD Err.HC_BAD_VALUE = true ∧
      t.hcState g = s.hcState g ∧ SameMem s t)) ∧
  (∀ (s : State) (g : Fin 8), s.quiet = true → s.flag (hcPage g) F.HC_HC_STATUS_CLEARING = true → (s.hc g).queue = [] → (s.hc g).retraining = [] →
    ∃ t, exec (.stackClearDone g) s = .next t ∧ t.flag (hcPage g) F.HC_HC_STATUS_CLEARING = false ∧
      (∀ line < 2 ^ 30, ∀ j < 8, t.hbmGranPeek g line j = ⟨0, .good, 0⟩) ∧
      (∀ g' < 8, g' ≠ g.val → ∀ line < 2 ^ 30, t.hbmPeek g' line = s.hbmPeek g' line) ∧ t.sram = s.sram ∧ t.hall = s.hall) ∧
  (∀ (s : State) (g : Fin 8), s.quiet = true → s.writes .steward (hcPage g) 0x100 (s.hcWord g ||| 0x100) = true → s.halted (hcPage g) = true →
    s.hcState g = 5 → ∃ t, exec (.hcRetrain g) s = .next t ∧ t.hcState g = 3 ∧ (t.hc g).retraining = List.range 32 ∧ SameMem s t) ∧
  (∀ (s : State) (g : Fin 8) (sids : Fin 4) (rate : Fin 3) (lanes : BitVec 8), s.quiet = true → s.hcState g = 1 → (s.hc g).training = false →
    ∃ t, exec (.stackTrained g sids rate lanes) s = .next t ∧ t.hcState g = 2 ∧ t.get pgMMAP (F.MMAP_HBM_CAP_GIB.at g) = 16 * (sids.val + 1) ∧
      t.get (hcPage g) F.HC_HC_STATUS_RATE = min rate.val (s.get (hcPage g) F.HC_HC_CTRL_MAX_RATE) ∧ SameMem s t) ∧
  (∀ (s : State) (g : Fin 8) (sids : Fin 4) (rate : Fin 3) (lanes : BitVec 8), s.quiet = true → s.hcState g = 3 → s.phase = 4 →
    ∃ t, exec (.stackTrained g sids rate lanes) s = .next t ∧ t.hcState g = 2 ∧
      t.get pgMMAP (F.MMAP_HBM_CAP_GIB.at g) = s.get pgMMAP (F.MMAP_HBM_CAP_GIB.at g) ∧
      t.get (hcPage g) F.HC_HC_STATUS_RATE = min rate.val (s.get (hcPage g) F.HC_HC_CTRL_MAX_RATE) ∧ SameMem s t) ∧
  (∀ (s : State) (g : Fin 8), s.quiet = true →
    (∃ t, exec (.hbmTempRead g none) s = .next t ∧ t.flag (hcPage g) F.HC_HC_TEMP_VALID = false ∧ t.get (hcPage g) F.HC_HC_TEMP_REF_MULT = 4 ∧
      (t.rd (hcPage g) 0x020).getLsbD Err.HC_TEMP_INVALID = true ∧ SameMem s t) ∧
    (∀ (v : BitVec 8) (k : Fin 3), ∃ t, exec (.hbmTempRead g (some (v, k))) s = .next t ∧ t.get (hcPage g) F.HC_HC_TEMP_TEMP = v.toNat ∧
      t.flag (hcPage g) F.HC_HC_TEMP_VALID = true ∧ SameMem s t))

/-- For a queue with one descriptor that has not ended and no resume record: (1) where its engine runs, may issue, has no
active slot in use and no other queue that could activate one, DESCRIPTOR_ACTIVATE makes it the reading one in slot 0.
(2) Its read at a misaligned address ends it with ERROR, code 0x0A. (3) A read by a cached translation of two bank
lines that read GOOD, without WAIT_GE or with one that its tally satisfies, starts it with those 128 bytes and the
context's key, or, where they break a rule of Table 8-2, ends it with ERROR and that rule's code. (4) A token whose
lines are all staged is handed off. No other queue changes and memory is as before. (R321, R322, R323, R330, R366,
R367, R370, Table 8-2) -/
def Obligations.DescriptorIsReadAndTokensHandedOff : Prop :=
  (∀ (s : State) (q : Fin 128) (d : Desc), s.quiet = true → (s.queue q).descs = [d] → (s.queue q).rr = none → d.stage = .queued → d.ending = none →
    s.running (engPage (q / 8)) = true → s.canIssue q = true → s.slotsUsed (q / 8) = [] → (∀ k < 128, k ≠ q.val → k / 8 = q / 8 → s.nextActive k = none) →
    ∃ t, exec (.descriptorActivate q) s = .next t ∧ t.queue q = { s.queue q with descs := [{ d with stage := .reading, slot := 0 }] } ∧
      (∀ k, k ≠ q.val → t.queue k = s.queue k) ∧ SameMem s t ∧ t.hall = s.hall ∧ t.links = s.links ∧ t.rings = s.rings) ∧
  (∀ (s : State) (q : Fin 128) (d : Desc), s.quiet = true → (s.queue q).descs = [d] → (s.queue q).rr = none → d.stage = .reading → d.ending = none →
    d.tva % 128 ≠ 0 → d.waiting = false →
    ∃ t d', exec (.descriptorReadDone q) s = .next t ∧ (t.queue q).descs = [d'] ∧ d'.ending = some (10, 0x0A) ∧ SameMem s t ∧ t.hall = s.hall ∧
      (∀ k, k ≠ q.val → t.queue k = s.queue k)) ∧
  (∀ (s : State) (q : Fin 128) (d : Desc) (dpa b l b' l' word : Nat), s.quiet = true → (s.queue q).descs = [d] → (s.queue q).rr = none →
    d.stage = .reading → d.ending = none → d.waiting = false → d.tva % 128 = 0 → s.peekX (q / 16) (s.qCtx q) d.tva .rd none = some (.ok dpa) →
    s.target dpa = .ok (.sram b l) → s.target (dpa + 64) = .ok (.sram b' l') → s.running pgMMAP = true → s.unlimited = true →
    (∀ j < 8, (s.granPeek b l j).cls = .good) → (∀ j < 8, (s.granPeek b' l' j).cls = .good) →
    s.routeRoom ⟨q / 16, d.sc, s.qCtx q, 0⟩ (b / 64) 2 → s.routeRoom ⟨q / 16, d.sc, s.qCtx q, 0⟩ (b' / 64) 2 →
    word = leNat ((s.linePeek b l).bytes ++ (s.linePeek b' l').bytes) →
    (dWaitMode word = 1 → s.hallIdle ∧ s.hall.holders = [] ∧ ∃ p, s.physOf (s.qCtx q) (dWaitTally word) = some p ∧ s.partner p = none ∧
      (s.tally p).broken = false ∧ dWaitN word ≠ 0 ∧ dWaitN word ≤ (s.tally p).val) →
    ∃ t d', exec (.descriptorReadDone q) s = .next t ∧ (t.queue q).descs = [d'] ∧ SameMem s t ∧ t.hall = s.hall ∧
      (∀ k, k ≠ q.val → t.queue k = s.queue k) ∧
      (dCheck word (s.tallyCount (s.qCtx q)) = none → d'.stage = .running ∧ d'.word = word ∧ d'.key = s.keyOf (s.qCtx q) ∧ d'.ending = none ∧
        d'.waiting = false ∧ d'.takes = d.takes + (if dWaitMode word = 1 then 1 else 0)) ∧
      (∀ code, dCheck word (s.tallyCount (s.qCtx q)) = some code → d'.ending = some (10, code))) ∧
  (∀ (s : State) (q : Fin 128) (d : Desc) (k : Token), s.quiet = true → (s.queue q).descs = [d] → (s.queue q).rr = none → d.stage = .running →
    d.ending = none → d.due = none → d.fault = none → d.tokens = [k] → k.handed = false → (∀ x ∈ k.lines, x.fin = true) → s.running (qPage q) = true →
    s.running pgMMAP = true →
    ∃ t, exec (.tokenHandoff q) s = .next t ∧ (t.queue q).descs = [{ d with tokens := [{ k with handed := true }] }] ∧
      (∀ k, k ≠ q.val → t.queue k = s.queue k) ∧ t = { s with queues := t.queues })

/-- A running FILL descriptor alone in its queue, of one RAW8 element, without a wait or fault, whose destination is one
byte in a bank line that reads GOOD, by a cached translation that permits it, in no mirrored region, on a route and at
a gallery that admit it, with no injection armed and the mixers it needs in service, writes the element's value to
that byte, changes no other byte of the line and no other line, and is then complete in its one element. The hall and
every other queue are as before. (R331, R335, R342, R347, R372) -/
def Obligations.OneElementFillWritesItsByte : Prop :=
  ∀ (s : State) (q : Fin 128) (d : Desc) (dpa b l : Nat), s.quiet = true → (s.queue q).descs = [d] → (s.queue q).rr = none → d.stage = .running →
    d.ending = none → d.due = none → d.fault = none → dIsFill d.word = true → dTotal d.word = 1 → dTile d.word = 1 → dDst d.word = .raw8 → dDstPort d.word = false →
    dWaitMode d.word = 0 → d.conv = 0 → d.sent = 0 → d.outs = [] → s.running (qPage q) = true → s.running pgMMAP = true →
    s.limOpen (b / 64) = true → s.routeFree (s.qAcc q d.word) (b / 64) = true → s.canIssue q = true → s.mixerLost q d = false →
    s.peekX (q / 16) (s.qCtx q) (alignDown (dDstAddr d.word) 64) .wr none = some (.ok dpa) → s.target dpa = .ok (.sram b l) → s.mirRegion dpa = none →
    b < 512 → l < 3072 → s.flag (bnkPage b) F.BNK_ECC_INJECT_ARM = false → (∀ j < 8, (s.granPeek b l j).cls = .good) →
    ∃ t d', exec (.elementConvert q 0) s = .next t ∧ (t.queue q).descs = [d'] ∧ d'.conv = 1 ∧ d'.outs = [] ∧ d'.ending = none ∧
      byteAt (t.linePeek b l).bytes (dDstAddr d.word % 64) = (dFillElem d.word d.key 0).val % 256 ∧
      (∀ i < 64, i ≠ dDstAddr d.word % 64 → byteAt (t.linePeek b l).bytes i = byteAt (s.linePeek b l).bytes i) ∧
      (∀ b' l', b' < 512 → l' < 3072 → (b' ≠ b ∨ l' ≠ l) → t.linePeek b' l' = s.linePeek b' l') ∧ t.hbm = s.hbm ∧ t.hall = s.hall ∧
      (∀ k, k ≠ q.val → t.queue k = s.queue k)

/-- For the only descriptor of a queue, running and not ended, with nothing waiting in the hall and no peer, on tallies
its context has that are not broken and not linked: (1) TILE_TAKE takes its amount where the value suffices and counts
the take; (2) TILE_POST of a complete tile adds its amount and counts the post; (3) DONE_POST of a finished descriptor
adds its amount once. (4) A descriptor whose end is decided leaves the queue with its status and code in the end
record, the sequence number counted, and its ring command's outcome set. Memory is as before. (R344, R345, R346, R347,
R348, R349, R352, R384, R455) -/
def Obligations.TallyLinksAndTheEndOfADescriptor : Prop :=
  (∀ (s : State) (q : Fin 128) (d : Desc) (p : Nat), s.quiet = true → (s.queue q).descs = [d] → d.stage = .running → d.ending = none → d.due = none → d.fault = none →
    s.hallIdle → s.hall.holders = [] → s.partner p = none → (s.tally p).broken = false →
    ((s.queue q).rr = none → dWaitMode d.word = 2 → d.waiting = false → d.takes < dTiles d.word → d.takes ≤ d.conv / dTile d.word + 1 →
      s.running (qPage q) = true → s.physOf (s.qCtx q) (dWaitTally d.word) = some p → dWaitN d.word ≠ 0 → dWaitN d.word ≤ (s.tally p).val →
      ∃ t, exec (.tileTake q 0) s = .next t ∧ (t.queue q).descs = [{ d with takes := d.takes + 1 }] ∧
        t.tally p = { s.tally p with val := (s.tally p).val - dWaitN d.word } ∧ (∀ k, k ≠ p → t.tally k = s.tally k) ∧ t.hall.answers = [] ∧ SameMem s t) ∧
    (dTileEn d.word = true → d.posting = false → d.posted < d.complete / dTile d.word → d.doneSent = false →
      s.physOf (s.qCtx q) (dTileTally d.word) = some p →
      ∃ t d', exec (.tilePost q) s = .next t ∧ (t.queue q).descs = [d'] ∧ d'.posted = d.posted + 1 ∧ d'.posting = false ∧ d'.ending = none ∧
        (t.tally p).val = min ((s.tally p).val + dTileN d.word) tallyMax ∧ (∀ k, k ≠ p → t.tally k = s.tally k) ∧ t.hall.answers = [] ∧ SameMem s t) ∧
    (d.finished = true → dDoneEn d.word = true → d.doneSent = false → s.physOf (s.qCtx q) (dDoneTally d.word) = some p →
      ∃ t d', exec (.donePost q) s = .next t ∧ (t.queue q).descs = [d'] ∧ d'.doneSent = true ∧ d'.doneOk = true ∧ d'.ending = none ∧
        (t.tally p).val = min ((s.tally p).val + dDoneN d.word) tallyMax ∧ (∀ k, k ≠ p → t.tally k = s.tally k) ∧ t.hall.answers = [] ∧ SameMem s t)) ∧
  (∀ (s : State) (q : Fin 128) (d : Desc) (rest : List Desc) (st code : Nat), s.quiet = true → (s.queue q).descs = d :: rest → d.endStatus = some (st, code) →
    ∃ t, exec (.descriptorEnd q) s = .next t ∧ (t.queue q).descs = rest ∧ (t.queue q).endStatus = st ∧ (t.queue q).endCode = code ∧
      (t.queue q).endSeq = ((s.queue q).endSeq + 1) % 2 ^ 16 ∧ (∀ o ∈ (t.ring d.ring).out, o.id = d.cmd → o.res = some st) ∧
      (∀ k, k ≠ q.val → t.queue k = s.queue k) ∧ SameMem s t ∧ t.hall = s.hall)

/-- For a served QUEUE_CMD of a queue of that context: (1) RESUME of a queue that is FAULTED with its record intact clears
the record; (2) ABORT ends its one active descriptor that has not posted its completion with ABORTED, and leaves one
that is only queued; (3) FLUSH ends a queued one too; (4) each on an empty queue sets CMD_IGNORED and changes no
queue. (5) For a queue of another context it sets ACCESS_DENIED. (6) A mixer in service that fails a block leaves
service FAULTED; one that delivers counts its block. (7) KEY_APPLY of a context that is not being cleared, without a
peer, makes KEY_NEXT its key, sets SET and counts SEQ. (8) START keeps the check inputs and sets BUSY, or sets
CHK_IGNORED while BUSY; its end writes the block of those inputs, DONE and SEQ. (9) RETURN keeps the named mixers that
are out of service for a comparison, whose end brings those that agree back. (R381, R382, R393, R409, R507, R510,
R516, R519, R523, R526, R528, R529) -/
def Obligations.QueueCommandsMixersAndKeys : Prop :=
  (∀ (s : State) (port : Port) (c : Fin 16) (q : Fin 128), s.quiet = true →
    (∀ r d rest, s.writes port ⟨.TQC, c⟩ (0x100 + 4 * q.val) 1 = true → s.qCtx q = c → (s.queue q).rr = some r → (s.queue q).descs = d :: rest →
      (s.queue q).rrBad = false → ∃ t, exec (.queueResume port c q) s = .next t ∧ t.queue q = { s.queue q with rr := none } ∧
        (∀ k, k ≠ q.val → t.queue k = s.queue k) ∧ t = { s with queues := t.queues }) ∧
    (∀ d, s.writes port ⟨.TQC, c⟩ (0x100 + 4 * q.val) 2 = true → s.qCtx q = c → (s.queue q).descs = [d] → d.doneSent = false → d.ending = none →
      d.waiting = false → s.hall.holders = [] →
      (d.active = true → ∃ t d', exec (.queueAbort port c q) s = .next t ∧ (t.queue q).descs = [d'] ∧ d'.ending = some (9, 0) ∧ d'.tokens = [] ∧
        SameMem s t ∧ t.hall = s.hall ∧ (∀ k, k ≠ q.val → t.queue k = s.queue k)) ∧
      (d.active = false → exec (.queueAbort port c q) s = .next s)) ∧
    (∀ d, s.writes port ⟨.TQC, c⟩ (0x100 + 4 * q.val) 6 = true → s.qCtx q = c → (s.queue q).descs = [d] → d.doneSent = false → d.ending = none →
      d.waiting = false → s.hall.holders = [] →
      ∃ t d', exec (.queueFlush port c q) s = .next t ∧ (t.queue q).descs = [d'] ∧ d'.ending = some (9, 0) ∧ SameMem s t ∧ t.hall = s.hall ∧
        (∀ k, k ≠ q.val → t.queue k = s.queue k)) ∧
    (s.writes port ⟨.TQC, c⟩ (0x100 + 4 * q.val) 2 = true → s.qCtx q = c → (s.queue q).descs = [] →
      ∃ t, exec (.queueAbort port c q) s = .next t ∧ (t.rd (qPage q) 0x020).getLsbD Err.ENG_CMD_IGNORED = true ∧ t.queues = s.queues ∧ SameMem s t) ∧
    (s.writes port ⟨.TQC, c⟩ (0x100 + 4 * q.val) 1 = true → s.qCtx q ≠ c →
      ∃ t, exec (.queueResume port c q) s = .next t ∧ (t.rd ⟨.TQC, c⟩ 0x020).getLsbD Err.ACCESS_DENIED = true ∧ t.queues = s.queues ∧ SameMem s t)) ∧
  (∀ (s : State) (g k : Fin 8) (quick : Bool), s.quiet = true → (s.inService g).testBit k = true →
    (∃ t, exec (.mixerBlockDone g k quick true) s = .next t ∧ (t.inService g).testBit k = false ∧ (t.mixFaulted g).testBit k = true ∧
      (t.rd (mixPage g) 0x020).getLsbD Err.MIX_MIXER_FAULT = true ∧ SameMem s t) ∧
    (∃ t, exec (.mixerBlockDone g k quick false) s = .next t ∧ t.inService g = s.inService g ∧ SameMem s t ∧
      (t.rd (mixPage g) F.MIX_BLOCKS.off).toNat + (t.rd (mixPage g) (F.MIX_BLOCKS.off + 4)).toNat * 2 ^ 32 =
        ((s.rd (mixPage g) F.MIX_BLOCKS.off).toNat + (s.rd (mixPage g) (F.MIX_BLOCKS.off + 4)).toNat * 2 ^ 32 + 1) % 2 ^ 64)) ∧
  (∀ (s : State) (port : Port) (c : Fin 16), s.quiet = true → s.writes port (tmkPage c) 0x110 1 = true → s.ctxState c ≠ 1 → s.twinState = twOFF →
    ∃ t, exec (.keyApply port c) s = .next t ∧ t.rd (tmkPage c) 0x100 = s.rd (tmkPage c) 0x108 ∧ t.rd (tmkPage c) 0x104 = s.rd (tmkPage c) 0x10C ∧
      t.flag (tmkPage c) F.TMK_KEY_STATUS_SET = true ∧
      t.get (tmkPage c) F.TMK_KEY_STATUS_SEQ = (s.get (tmkPage c) F.TMK_KEY_STATUS_SEQ + 1) % 2 ^ 16 ∧
      RegsOnly s t [(tmkPage c).base + 0x100, (tmkPage c).base + 0x104, (tmkPage c).base + 0x114]) ∧
  (∀ (s : State) (g : Fin 8), s.quiet = true →
    (s.writes .steward (mixPage g) 0x128 1 = true → s.flag (mixPage g) F.MIX_CHK_STATUS_BUSY = false → (s.mix g).cmp = none →
      ∃ t, exec (.chkStart g) s = .next t ∧ t.mix g = { s.mix g with chk := some (s.chkInputs g) } ∧
        t.flag (mixPage g) F.MIX_CHK_STATUS_BUSY = true ∧ t = { s with regs := t.regs, mixers := t.mixers } ∧
        SameRegs s t [(mixPage g).base + 0x12C]) ∧
    (s.writes .steward (mixPage g) 0x128 1 = true → s.flag (mixPage g) F.MIX_CHK_STATUS_BUSY = true →
      ∃ t, exec (.chkStart g) s = .next t ∧ t.mixers = s.mixers ∧ (t.rd (mixPage g) 0x020).getLsbD Err.MIX_CHK_IGNORED = true ∧ SameMem s t) ∧
    (∀ x, (s.mix g).chk = some x →
      ((s.mix g).fault = false → ∃ t, exec (.checkDone g) s = .next t ∧ t.mix g = { s.mix g with chk := none } ∧
        t.flag (mixPage g) F.MIX_CHK_STATUS_BUSY = false ∧ t.flag (mixPage g) F.MIX_CHK_STATUS_DONE = true ∧
        t.get (mixPage g) F.MIX_CHK_STATUS_SEQ = (s.get (mixPage g) F.MIX_CHK_STATUS_SEQ + 1) % 2 ^ 16 ∧
        (∀ i < 4, t.rd (mixPage g) (0x130 + 4 * i) = BitVec.ofNat 32 ((mixBlock x.key x.stream x.purpose x.pos x.quick).getD i 0)) ∧
        t = { s with regs := t.regs, mixers := t.mixers }) ∧
      ((s.mix g).fault = true → ∃ t, exec (.checkDone g) s = .next t ∧ t.mix g = { s.mix g with chk := none } ∧
        t.flag (mixPage g) F.MIX_CHK_STATUS_BUSY = false ∧ t.flag (mixPage g) F.MIX_CHK_STATUS_DONE = s.flag (mixPage g) F.MIX_CHK_STATUS_DONE ∧
        SameRegs s t [(mixPage g).base + 0x12C] ∧ t = { s with regs := t.regs, mixers := t.mixers })) ∧
    (∀ mask : BitVec 8, s.writes .steward (mixPage g) 0x100 (wordOf mask.toNat) = true → (s.mix g).cmp = none →
      mask.toNat &&& (255 - s.inService g) ≠ 0 → ∃ t, exec (.mixReturn g mask) s = .next t ∧
        t.mix g = { s.mix g with cmp := some (mask.toNat &&& (255 - s.inService g), s.chkInputs g) } ∧ t = { s with mixers := t.mixers }) ∧
    (∀ (agree : BitVec 8) (mask : Nat) (x : ChkIn), (s.mix g).cmp = some (mask, x) → (s.mix g).chk = none → (s.mix g).fault = false → mask < 256 →
      ∃ t, exec (.mixerCompareDone g agree) s = .next t ∧ t.mix g = { s.mix g with cmp := none, chk := (s.mix g).start, start := none } ∧
        t.inService g = (s.inService g ||| (mask &&& agree.toNat)) ∧ t.mixFaulted g = (s.mixFaulted g &&& (255 - (mask &&& agree.toNat))) ∧
        t = { s with regs := t.regs, mixers := t.mixers }))

/-- For the one fetched command of a served ring with nothing outstanding: one that R415 calls ill-formed ends with ERROR.
A STREAM puts its descriptor in a queue that serves its context and has room, or is DENIED; the room is the queue's
and, for another gallery, that of the stair's first buffer. A TALLY_OP of ADD, SUB, READ or CLEAR_ORPHAN acts and
takes the hall's status; SET is DENIED, others ERROR. WAIT, BARRIER and EVENT_STEP are granted, answered or wait in
the hall. FENCE and JUMP have no outcome yet; JUMP moves fetching to its list and leaves HEAD. NOTE writes its word,
sends its INT, and ends OK. HEAD moves past the command otherwise. (R415, R416, R417, R418, R420, R421, R422, R426,
Table 10-3, Table 11-4) -/
def Obligations.RingCommandsDispatch : Prop :=
  ∀ (s : State) (r : Fin 64) (g k : Nat) (x : RingCmd), s.quiet = true → s.dispatches r g k x →
    (x.wellFormed = false → ∃ t, exec (.commandDispatch r) s = .next t ∧ RingSent s t r x (some 10) ∧ SameMem s t ∧ t.hall = s.hall) ∧
    (x.wellFormed = true →
      (x.op = 6 → ∃ t, exec (.cmdFence r) s = .next t ∧ exec (.commandDispatch r) s = .next t ∧ RingSent s t r x none ∧ SameMem s t ∧ t.hall = s.hall) ∧
      (x.op = 1 → s.queueServes (x.f 8 0 7) (ringCtx r) = false → ∃ t, exec (.cmdStream r) s = .next t ∧ RingSent s t r x (some 5) ∧
        SameMem s t ∧ t.hall = s.hall) ∧
      (x.op = 1 → s.queueServes (x.f 8 0 7) (ringCtx r) = true → s.queueRoom (x.f 8 0 7) = true →
        s.routeFree ⟨g, x.sc, ringCtx r, 0⟩ (x.f 8 0 7 / 16) = true → ∃ t o d, exec (.cmdStream r) s = .next t ∧
        (t.ring r).out = [o] ∧ o.res = none ∧ t.head r = (x.count + 1) % 2 ^ 16 ∧ (t.queue (x.f 8 0 7)).descs = (s.queue (x.f 8 0 7)).descs ++ [d] ∧
        d.tva = x.f 0x10 0 48 ∧ d.sc = x.sc ∧ d.ring = r.val ∧ d.cmd = o.id ∧ d.stage = .queued ∧ (∀ q, q ≠ x.f 8 0 7 → t.queue q = s.queue q) ∧
        SameMem s t ∧ t.hall = s.hall) ∧
      (x.op = 2 → x.f 8 0 4 = 5 → ∃ t, exec (.cmdTallyOp r) s = .next t ∧ RingSent s t r x (some 5) ∧ SameMem s t ∧ t.hall = s.hall) ∧
      (x.op = 2 → x.f 8 0 4 = 2 ∨ x.f 8 0 4 = 3 ∨ x.f 8 0 4 = 6 ∨ 7 < x.f 8 0 4 ∨ (x.f 8 0 4 ≠ 5 ∧ x.f 8 4 1 = 1 ∧ x.f 0x18 0 48 % 4 ≠ 0) →
        ∃ t, exec (.cmdTallyOp r) s = .next t ∧ RingSent s t r x (some 10) ∧ SameMem s t ∧ t.hall = s.hall) ∧
      (∀ p, x.op = 2 → (x.f 8 4 1 = 1 → x.f 0x18 0 48 % 4 = 0) → s.hallIdle → s.hall.holders = [] → s.partner p = none →
        s.physOf (ringCtx r) (x.f 0xA 0 13) = some p →
        s.tallyLegal ⟨.ring r, ringCtx r, x.f 8 0 4, x.f 0xA 0 13, x.f 0xC 0 24, 0, x.sc, 0, (s.ring r).nextId⟩ p = true →
        (x.f 8 0 4 = 0 → ∃ t, exec (.cmdTallyOp r) s = .next t ∧ RingSent s t r x (some 0) ∧ SameMem s t ∧
          (t.tally p).val = min ((s.tally p).val + x.f 0xC 0 24) tallyMax ∧ (∀ j, j ≠ p → t.tally j = s.tally j)) ∧
        (x.f 8 0 4 = 1 → x.f 0xC 0 24 ≤ (s.tally p).val → ∃ t, exec (.cmdTallyOp r) s = .next t ∧ RingSent s t r x (some 0) ∧ SameMem s t ∧
          t.tally p = { s.tally p with val := (s.tally p).val - x.f 0xC 0 24 } ∧ (∀ j, j ≠ p → t.tally j = s.tally j)) ∧
        (x.f 8 0 4 = 1 → (s.tally p).val < x.f 0xC 0 24 → ∃ t, exec (.cmdTallyOp r) s = .next t ∧ RingSent s t r x (some 7) ∧ SameMem s t ∧
          t.hall = s.hall) ∧
        (x.f 8 0 4 = 4 → ∃ t, exec (.cmdTallyOp r) s = .next t ∧ RingSent s t r x (some 0) ∧ SameMem s t ∧ t.hall = s.hall ∧
          ∀ o ∈ (t.ring r).out, o.word = (s.tally p).report ∧ o.dest = (if x.f 8 4 1 = 1 then some (x.f 0x18 0 48, x.sc) else none)) ∧
        (x.f 8 0 4 = 7 → ∃ t, exec (.cmdTallyOp r) s = .next t ∧ RingSent s t r x (some 0) ∧ SameMem s t ∧
          t.tally p = { s.tally p with orph := false } ∧ (∀ j, j ≠ p → t.tally j = s.tally j))) ∧
      (∀ p req, x.op = 3 → s.hallIdle → s.hall.holders = [] → s.partner p = none →
        req = ⟨.ring r, ringCtx r, 2 + x.f 8 0 1, x.f 0xA 0 13, x.f 0xC 0 24, x.f 0x10 0 32, x.sc, 0, (s.ring r).nextId⟩ →
        s.physOf (ringCtx r) (x.f 0xA 0 13) = some p → s.tallyLegal req p = true →
        (x.f 8 0 1 = 0 → x.f 0xC 0 24 ≤ (s.tally p).val → ∃ t, exec (.cmdWait r) s = .next t ∧ RingSent s t r x (some 0) ∧ SameMem s t ∧
          t.hall = s.hall) ∧
        (x.f 8 0 1 = 1 → x.f 0xC 0 24 ≤ (s.tally p).val → ∃ t, exec (.cmdWait r) s = .next t ∧
          RingSent s t r x (some (if (s.tally p).orph then 2 else 0)) ∧ SameMem s t ∧
          t.tally p = { s.tally p with val := (s.tally p).val - x.f 0xC 0 24 } ∧ (∀ j, j ≠ p → t.tally j = s.tally j)) ∧
        ((s.tally p).val < x.f 0xC 0 24 → x.f 0x10 0 32 ≠ nowait → ∃ t w, exec (.cmdWait r) s = .next t ∧ RingSent s t r x none ∧ SameMem s t ∧
          t.hall = { s.hall with waiters := [w] } ∧ w.req = req ∧ w.phys = p) ∧
        ((s.tally p).val < x.f 0xC 0 24 → x.f 0x10 0 32 = nowait → ∃ t, exec (.cmdWait r) s = .next t ∧
          RingSent s t r x (some (if x.f 8 0 1 = 0 then 8 else 7)) ∧ SameMem s t ∧ t.hall = s.hall)) ∧
      (∀ p virt n timeout, x.op = 4 → virt = x.f 0xA 0 13 → n = x.f 0xC 0 24 →
        timeout = (if x.f 8 0 1 = 1 then nowait else x.f 0x10 0 32) → s.hallIdle → s.hall.holders = [] → s.partner p = none →
        s.physOf (ringCtx r) virt = some p → s.tallyLegal ⟨.ring r, ringCtx r, 6, virt, n, timeout, x.sc, 0, (s.ring r).nextId⟩ p = true →
        ((s.tally p).val + 1 = n → ∃ t, exec (.cmdBarrier r) s = .next t ∧ RingSent s t r x (some 0) ∧ SameMem s t ∧ (t.tally p).val = 0 ∧ (t.tally p).part = 0 ∧
          (t.tally p).gen = (!(s.tally p).gen) ∧ t.hall.waiters = [] ∧ (∀ j, j ≠ p → t.tally j = s.tally j)) ∧
        ((s.tally p).val + 1 < n → ∃ t, exec (.cmdBarrier r) s = .next t ∧ RingSent s t r x (if timeout = nowait then some 0 else none) ∧ SameMem s t ∧
          (t.tally p).val = (s.tally p).val + 1 ∧ (t.tally p).gen = (s.tally p).gen ∧
          t.hall.waiters.length = (if timeout = nowait then 0 else 1) ∧ (∀ j, j ≠ p → t.tally j = s.tally j))) ∧
      (∀ p virt n timeout, x.op = 5 → s.stepBarrier (ringCtx r) = some (virt, n) →
        timeout = (if x.f 8 0 1 = 1 then nowait else x.f 0x10 0 32) → s.hallIdle → s.hall.holders = [] → s.partner p = none →
        s.physOf (ringCtx r) virt = some p → s.tallyLegal ⟨.ring r, ringCtx r, 6, virt, n, timeout, x.sc, 0, (s.ring r).nextId⟩ p = true →
        ((s.tally p).val + 1 = n → ∃ t, exec (.cmdEventStep r) s = .next t ∧ RingSent s t r x (some 0) ∧ SameMem s t ∧ (t.tally p).val = 0 ∧ (t.tally p).part = 0 ∧
          (t.tally p).gen = (!(s.tally p).gen) ∧ t.hall.waiters = [] ∧ (∀ j, j ≠ p → t.tally j = s.tally j)) ∧
        ((s.tally p).val + 1 < n → ∃ t, exec (.cmdEventStep r) s = .next t ∧ RingSent s t r x (if timeout = nowait then some 0 else none) ∧ SameMem s t ∧
          (t.tally p).val = (s.tally p).val + 1 ∧ (t.tally p).gen = (s.tally p).gen ∧
          t.hall.waiters.length = (if timeout = nowait then 0 else 1) ∧ (∀ j, j ≠ p → t.tally j = s.tally j))) ∧
      (x.op = 5 → s.stepBarrier (ringCtx r) = none → ∃ t, exec (.cmdEventStep r) s = .next t ∧ RingSent s t r x (some 10) ∧ SameMem s t ∧
        t.hall = s.hall) ∧
      (x.op = 7 → x.f 8 1 1 = 0 →
        (x.f 8 0 1 = 0 → ∃ t, exec (.cmdNote r) s = .next t ∧ RingSent s t r x (some 0) ∧ SameMem s t ∧ t.hall = s.hall ∧ t.links = s.links) ∧
        (∀ a, x.f 8 0 1 = 1 → s.flag pgVTC (F.VTC_INT_ROUTE_EN.at (ringCtx r)) = true → a = s.get pgVTC (F.VTC_INT_ROUTE_PRIMARY.at (ringCtx r)) →
          s.routes a (ringCtx r) = true → ∃ t, exec (.cmdNote r) s = .next t ∧ RingSent s t r x (some 0) ∧ SameMem s t ∧ t.hall = s.hall ∧
          (t.link a).tx = (s.link a).tx ++ [⟨⟨mkHdr opINT 0 x.sc (s.vcMap a x.sc) (ringCtx r) 0 0 (1 + r * 2 ^ 8 + x.f 0xC 0 16 * 2 ^ 24) 0
            (x.f 0x10 0 32), []⟩, s.vcMap a x.sc, ringCtx r, .plain⟩] ∧ (∀ m, m ≠ a → (t.link m).tx = (s.link m).tx)) ∧
        (x.f 8 0 1 = 1 → s.flag pgVTC (F.VTC_INT_ROUTE_EN.at (ringCtx r)) = false → ∃ t, exec (.cmdNote r) s = .next t ∧
          RingSent s t r x (some 0) ∧ SameMem s t ∧ t.links = s.links)) ∧
      (x.op = 7 → x.f 8 1 1 = 1 → (x.f 0x18 0 48 % 4 ≠ 0 → ∃ t, exec (.cmdNote r) s = .next t ∧ RingSent s t r x (some 10) ∧ SameMem s t ∧
          t.hall = s.hall ∧ t.links = s.links) ∧
        (∀ dpa b l, x.f 0x18 0 48 % 4 = 0 → s.wordHome g (ringCtx r) (x.f 0x18 0 48) dpa b l →
          s.routeFree ⟨g, x.sc, ringCtx r, 0⟩ (b / 64) = true → ∃ t, exec (.cmdNote r) s = .next t ∧
          RingSent s t r x (some 0) ∧ WordWritten s t b l (dpa % 64) (x.f 0x10 0 32) ∧ t.hall = s.hall)) ∧
      (x.op = 8 → x.f 0x10 0 48 % 64 ≠ 0 → ∃ t, exec (.cmdJump r) s = .next t ∧ RingSent s t r x (some 10) ∧ SameMem s t ∧ t.hall = s.hall) ∧
      (x.op = 8 → x.f 0x10 0 48 % 64 = 0 → ∃ t o, exec (.cmdJump r) s = .next t ∧ (t.ring r).out = [o] ∧ o.op = 8 ∧ o.res = none ∧
        (t.ring r).list = some (x.f 0x10 0 48, x.f 8 0 12 + 1, x.count) ∧ (t.ring r).next = (x.count + 1) % 2 ^ 16 ∧ t.head r = s.head r ∧
        SameMem s t ∧ t.hall = s.hall ∧ ∀ j, j ≠ r.val → t.ring j = s.ring j))

/-- (1) A doorbell of a served ring moves TAIL only within its size and never back; else it sets DB_IGNORED. (2) A fetch
of a ring with nothing prefetched, the only one of its gallery that may fetch, by a cached translation of a good bank
line, keeps the line's bytes with the ring's count; a permission fault makes the ring FAULTED with its stop record and
ERR_STATUS.FETCH_FAULT. (3) The one outstanding command with an outcome leaves and raises COMPLETE; a stopping status
with ERR_STOP stops the ring and is recorded; a response word is written first; a FENCE alone completes. (4) RESTART
of a stopped or faulted ring clears the stop and its record, else sets DB_IGNORED; CLEAR clears DB_IGNORED. (5) EN of
a slot is set unless another enabled slot names its ring, which sets BAD_VALUE. (R410, R411, R412, R414, R418, R423,
R431, R433, R443, Table 10-3) -/
def Obligations.RingsFetchCompleteAndRestart : Prop :=
  (∀ (s : State) (port : Port) (r : Fin 64) (v : BitVec 16), s.quiet = true → s.writes port (tdbPage (ringCtx r)) (0x100 + 16 * (r.val % 4)) (wordOf v.toNat) = true →
    (∀ g k, s.ringHome r = some (g, k) → sub16 v.toNat (s.head r) ≤ s.slotSize g k → sub16 (s.tail r) (s.head r) ≤ sub16 v.toNat (s.head r) →
      ∃ t, exec (.doorbell port r v) s = .next t ∧ t.tail r = v.toNat ∧ RegsOnly s t [(tdbPage (ringCtx r)).base + 0x100 + 16 * (r.val % 4)]) ∧
    ((∀ g k, s.ringHome r = some (g, k) → s.slotSize g k < sub16 v.toNat (s.head r) ∨ sub16 v.toNat (s.head r) < sub16 (s.tail r) (s.head r)) →
      ∃ t, exec (.doorbell port r v) s = .next t ∧ t.tail r = s.tail r ∧ t.ringGet r F.TDB_RING_STAT_DB_IGNORED = 1 ∧
        RegsOnly s t [(tdbPage (ringCtx r)).base + 0x108 + 16 * (r.val % 4)])) ∧
  (∀ (s : State) (r : Fin 64) (g k tva : Nat), s.quiet = true → s.ringHome r = some (g, k) → s.running (fmnPage g) = true → s.isFatal = false →
    (s.ring r).faulted = false → (s.ring r).fetched = [] → (s.ring r).list = none → (s.ring r).next ≠ s.tail r →
    s.fetchReqs g = [⟨k, s.slotClass g k, 0⟩] →
    tva = (s.slotBase g k + 64 * ((s.ring r).next % s.slotSize g k)) % 2 ^ 48 →
    (∀ dpa b l, s.peekX g (ringCtx r) tva .rd none = some (.ok dpa) → s.target dpa = .ok (.sram b l) → s.running pgMMAP = true →
      s.limOpen (b / 64) = true → s.routeFree ⟨g, s.slotClass g k, ringCtx r, 0⟩ (b / 64) = true → (∀ j < 8, (s.granPeek b l j).cls = .good) →
      ∃ t, exec (.ringFetch r) s = .next t ∧ t.ring r = { s.ring r with
          fetched := [⟨(s.linePeek b l).bytes, (s.ring r).next, false, false⟩], next := ((s.ring r).next + 1) % 2 ^ 16 } ∧
        (∀ j, j ≠ r.val → t.ring j = s.ring j) ∧ SameMem s t ∧ t.hall = s.hall) ∧
    (∀ f, s.peekX g (ringCtx r) tva .rd none = some (.error f) → ∃ t, exec (.ringFetch r) s = .next t ∧
      t.ring r = { s.ring r with faulted := true } ∧ t.ringGet r F.TDB_RING_STAT_STOP_STATUS = 4 ∧
      t.ringGet r F.TDB_RING_STAT_STOP_INDEX = (s.ring r).next % 2 ^ 16 ∧ (t.rd (fmnPage g) 0x020).getLsbD Err.FMN_FETCH_FAULT = true ∧
      t.head r = s.head r ∧ (∀ j, j ≠ r.val → t.ring j = s.ring j) ∧ SameMem s t ∧ t.hall = s.hall)) ∧
  (∀ (s : State) (r : Fin 64) (g k : Nat) (o : OutCmd), s.quiet = true → s.ringHome r = some (g, k) → (s.ring r).out = [o] → o.fin = false →
    o.list = false →
    (∀ st, o.res = some st → o.dest = none → stopping st = false → ∃ t, exec (.commandComplete r 0) s = .next t ∧ t.ring r = { s.ring r with out := [] } ∧
      t.ringGet r F.TDB_RING_PTR_COMPLETE = (s.ringGet r F.TDB_RING_PTR_COMPLETE + 1) % 2 ^ 16 ∧ SameMem s t ∧ t.hall = s.hall) ∧
    (∀ st, o.res = some st → o.dest = none → stopping st = true → s.flag (fmnPage g) (F.FMN_RING_SLOT_ERR_STOP.at k) = true →
      s.ringGet r F.TDB_RING_STAT_STOP_STATUS = 0 → (s.ring r).stopped = false → ∃ t, exec (.commandComplete r 0) s = .next t ∧
      t.ring r = { s.ring r with out := [], stopped := true } ∧ t.ringGet r F.TDB_RING_STAT_STOP_STATUS = st ∧
      t.ringGet r F.TDB_RING_STAT_STOP_CMD = o.op % 256 ∧ t.ringGet r F.TDB_RING_STAT_STOP_INDEX = o.count % 2 ^ 16 ∧
      t.get (tdbPage (ringCtx r)) (F.TDB_RING_STOPTAG_TAG.at (r.val % 4)) = o.tag % 2 ^ 16 ∧
      (t.rd (fmnPage g) 0x020).getLsbD Err.FMN_RING_STOPPED = true ∧ SameMem s t ∧ t.hall = s.hall) ∧
    (∀ st tva sc dpa b l, o.res = some st → o.dest = some (tva, sc) → stopping st = false → s.wordHome g (ringCtx r) tva dpa b l →
      s.routeFree ⟨g, sc, ringCtx r, 0⟩ (b / 64) = true →
      ∃ t, exec (.commandComplete r 0) s = .next t ∧ t.ring r = { s.ring r with out := [] } ∧ WordWritten s t b l (dpa % 64) (o.word % 2 ^ 32) ∧
      t.hall = s.hall) ∧
    (o.res = none → o.op = 6 → ∃ t, exec (.commandComplete r 0) s = .next t ∧ t.ring r = { s.ring r with out := [] } ∧ SameMem s t ∧ t.hall = s.hall)) ∧
  (∀ (s : State) (port : Port) (r : Fin 64), s.quiet = true →
    (s.writes port (tdbPage (ringCtx r)) (0x10C + 16 * (r.val % 4)) 1 = true →
      ((s.ring r).stopped = true ∨ (s.ring r).faulted = true → ∃ t, exec (.ringRestart port r) s = .next t ∧
        t.ring r = { s.ring r with stopped := false, faulted := false } ∧ t.ringGet r F.TDB_RING_STAT_STOP_STATUS = 0 ∧
        (∀ j, j ≠ r.val → t.ring j = s.ring j) ∧ t = { s with regs := t.regs, rings := t.rings }) ∧
      ((s.ring r).stopped = false → (s.ring r).faulted = false → ∃ t, exec (.ringRestart port r) s = .next t ∧
        t.ringGet r F.TDB_RING_STAT_DB_IGNORED = 1 ∧ RegsOnly s t [(tdbPage (ringCtx r)).base + 0x108 + 16 * (r.val % 4)])) ∧
    (s.writes port (tdbPage (ringCtx r)) (0x10C + 16 * (r.val % 4)) 2 = true → ∃ t, exec (.ringClear port r) s = .next t ∧
      t.ringGet r F.TDB_RING_STAT_DB_IGNORED = 0 ∧ RegsOnly s t [(tdbPage (ringCtx r)).base + 0x108 + 16 * (r.val % 4)])) ∧
  (∀ (s : State) (g k : Fin 8) (on : Bool), s.quiet = true →
    s.writes .steward (fmnPage g) (0x100 + 16 * k.val) (wput (s.rd (fmnPage g) (0x100 + 16 * k.val)) (F.FMN_RING_SLOT_EN.at k).lo 1 (b2n on)) = true →
    (on = true → (∀ j ∈ s.slotsOf (s.get (fmnPage g) (F.FMN_RING_SLOT_RING.at k)), j = 8 * g.val + k.val) → ∃ t, exec (.ringSlotEn g k on) s = .next t ∧
      t.flag (fmnPage g) (F.FMN_RING_SLOT_EN.at k) = true ∧ SameMem s t ∧ t.hall = s.hall ∧ t.queues = s.queues) ∧
    (on = true → ∀ j ∈ s.slotsOf (s.get (fmnPage g) (F.FMN_RING_SLOT_RING.at k)), j ≠ 8 * g.val + k.val → ∃ t, exec (.ringSlotEn g k on) s = .next t ∧
      t.flag (fmnPage g) (F.FMN_RING_SLOT_EN.at k) = s.flag (fmnPage g) (F.FMN_RING_SLOT_EN.at k) ∧
      (t.rd (fmnPage g) 0x020).getLsbD Err.FMN_BAD_VALUE = true ∧ t.rings = s.rings ∧ SameMem s t ∧ t.hall = s.hall) ∧
    (on = false → ∃ t, exec (.ringSlotEn g k on) s = .next t ∧ t.flag (fmnPage g) (F.FMN_RING_SLOT_EN.at k) = false ∧ SameMem s t ∧
      t.hall = s.hall ∧ t.queues = s.queues))

/-- For an accepted TALLY of a tally that its context has, legal there, with nothing waiting in the hall and no peer, on a
tally without a link: READ answers as it stands; ADD saturates and answers; SUB subtracts, or answers UNDERFLOW with
the value as it was; WAIT_GE answers OK if the value suffices, TIMEOUT with NOWAIT, and else waits; WAIT_TAKE takes
what it asks if the value suffices and else waits; an ARRIVE that completes its barrier releases it, value 0 and GEN
inverted; an earlier one is counted and waits; CLEAR_ORPHAN clears ORPHANED. Every other tally, and memory, are as
before. An illegal one answers ERROR and changes no tally. (R456, R460, R461, R462, R463, R464, R465, R469, R478,
R497, Table 6-6, Table 11-4) -/
def Obligations.TallyRequestsActAndAnswer : Prop :=
  ∀ (s : State) (m : Fin 16) (h : BitVec 128) (data : List Byte) (p : Nat), s.quiet = true → hOpc h = opTALLY → s.accepts m h data → s.hallIdle →
    s.physOf (hCtx h) (hb h 48 13) = some p → s.partner p = none → s.hall.holders = [] →
    (s.tallyLegal (tallyReqOf m h) p = true →
      (tallyTop h = 4 → ∃ t, exec (.tallyRead m h data) s = .next t ∧ t.hall = s.hall ∧ SameMem s t ∧
        (t.link m).tx = (s.link m).tx ++ [s.rspMsg m h 0 0 0 (s.tally p).report []]) ∧
      (tallyTop h = 0 → ∃ t, exec (.tallyAdd m h data) s = .next t ∧ (t.tally p).val = min ((s.tally p).val + hb h 64 24) tallyMax ∧
        (t.tally p).sat = ((s.tally p).sat || decide (tallyMax < (s.tally p).val + hb h 64 24)) ∧ (t.tally p).touched = s.ticks ∧
        (∀ k, k ≠ p → t.tally k = s.tally k) ∧ SameMem s t ∧ (t.link m).tx = (s.link m).tx ++ [s.rspMsg m h 0 0 0 (t.tally p).report []]) ∧
      (tallyTop h = 1 → hb h 64 24 ≤ (s.tally p).val → ∃ t, exec (.tallySub m h data) s = .next t ∧
        t.tally p = { s.tally p with val := (s.tally p).val - hb h 64 24 } ∧ (∀ k, k ≠ p → t.tally k = s.tally k) ∧ SameMem s t ∧
        (t.link m).tx = (s.link m).tx ++ [s.rspMsg m h 0 0 0 (t.tally p).report []]) ∧
      (tallyTop h = 1 → (s.tally p).val < hb h 64 24 → ∃ t, exec (.tallySub m h data) s = .next t ∧ t.hall = s.hall ∧ SameMem s t ∧
        (t.link m).tx = (s.link m).tx ++ [s.rspMsg m h 7 0 0 (s.tally p).report []]) ∧
      (tallyTop h = 2 → hb h 64 24 ≤ (s.tally p).val → ∃ t, exec (.tallyWaitGe m h data) s = .next t ∧ t.hall = s.hall ∧ SameMem s t ∧
        (t.link m).tx = (s.link m).tx ++ [s.rspMsg m h 0 0 0 (s.tally p).report []]) ∧
      (tallyTop h = 2 → (s.tally p).val < hb h 64 24 → hXf h = nowait → ∃ t, exec (.tallyWaitGe m h data) s = .next t ∧ t.hall = s.hall ∧
        SameMem s t ∧ (t.link m).tx = (s.link m).tx ++ [s.rspMsg m h 8 0 0 (s.tally p).report []]) ∧
      (tallyTop h = 2 → (s.tally p).val < hb h 64 24 → hXf h ≠ nowait → ∃ t w, exec (.tallyWaitGe m h data) s = .next t ∧
        t.hall = { s.hall with waiters := [w] } ∧ w.req = tallyReqOf m h ∧ w.phys = p ∧ (t.link m).tx = (s.link m).tx ∧ SameMem s t) ∧
      (tallyTop h = 3 → hb h 64 24 ≤ (s.tally p).val → ∃ t, exec (.tallyWaitTake m h data) s = .next t ∧
        t.tally p = { s.tally p with val := (s.tally p).val - hb h 64 24 } ∧ (∀ k, k ≠ p → t.tally k = s.tally k) ∧ t.hall.waiters = [] ∧
        t.hall.holders = (if (s.tally p).lock then [⟨p, .module m 0, hCtx h, hb h 64 24, false⟩] else []) ∧ SameMem s t ∧
        (t.link m).tx = (s.link m).tx ++ [s.rspMsg m h (if (s.tally p).orph then 2 else 0) 0 0 (t.tally p).report []]) ∧
      (tallyTop h = 3 → (s.tally p).val < hb h 64 24 → hXf h ≠ nowait → ∃ t w, exec (.tallyWaitTake m h data) s = .next t ∧
        t.hall = { s.hall with waiters := [w] } ∧ w.req = tallyReqOf m h ∧ w.phys = p ∧ (t.link m).tx = (s.link m).tx ∧ SameMem s t) ∧
      (tallyTop h = 6 → (s.tally p).val + 1 = hb h 64 24 → ∃ t, exec (.tallyArrive m h data) s = .next t ∧ (t.tally p).val = 0 ∧
        (t.tally p).part = 0 ∧ (t.tally p).gen = (!(s.tally p).gen) ∧ t.hall.waiters = [] ∧ (∀ k, k ≠ p → t.tally k = s.tally k) ∧ SameMem s t ∧
        (t.link m).tx = (s.link m).tx ++ [s.rspMsg m h 0 0 0 (t.tally p).report []]) ∧
      (tallyTop h = 6 → (s.tally p).val + 1 < hb h 64 24 → hXf h ≠ nowait → ∃ t w, exec (.tallyArrive m h data) s = .next t ∧
        (t.tally p).val = (s.tally p).val + 1 ∧ (t.tally p).part = hb h 64 24 ∧ (t.tally p).gen = (s.tally p).gen ∧ t.hall.waiters = [w] ∧
        w.req = tallyReqOf m h ∧ w.phys = p ∧ (t.link m).tx = (s.link m).tx ∧ SameMem s t) ∧
      (tallyTop h = 7 → ∃ t, exec (.clearOrphan m h data) s = .next t ∧ t.tally p = { s.tally p with orph := false } ∧
        (∀ k, k ≠ p → t.tally k = s.tally k) ∧ SameMem s t ∧ (t.link m).tx = (s.link m).tx ++ [s.rspMsg m h 0 0 0 (t.tally p).report []])) ∧
    (s.tallyLegal (tallyReqOf m h) p = false → tallyTop h = 3 → ∃ t, exec (.tallyWaitTake m h data) s = .next t ∧ t.hall = s.hall ∧ SameMem s t ∧
      (t.link m).tx = (s.link m).tx ++ [s.rspMsg m h 10 dtTally 0 0 []])

/-- (1) A served SET of a tally that is not broken, with no link and nothing waiting, stores the value and clears
SATURATED. (2) A module's WAIT_GE or barrier wait past its deadline leaves the hall and is answered TIMEOUT, with
ERR_STATUS.TIMEOUT. (3) At the end of its period a context's one link loses the lower of its two values from both, so
their difference stays. (4) Under the conditions of a deadlock not yet reported, the report sets DL_ACTIVE and
ERR_STATUS.DEADLOCK and leaves the hall as it is; reported, it does nothing. (R457, R466, R467, R472, R480, R481,
R486, R488, Table 18-6) -/
def Obligations.HallTimersAndWindow : Prop :=
  (∀ (s : State) (p : Fin 8192) (n : BitVec 24), s.quiet = true → s.stwServes = true → s.hallIdle → s.partner p = none → (s.tally p).broken = false →
    ∃ t, exec (.tallySet p n) s = .next t ∧ t.tally p = { s.tally p with val := n.toNat, sat := false, touched := s.ticks } ∧
      (∀ k, k ≠ p.val → t.tally k = s.tally k) ∧ t.hall.waiters = [] ∧ t.hall.holders = s.hall.holders ∧ SameMem s t ∧ t.links = s.links) ∧
  (∀ (s : State) (k : Fin 2048) (w : Waiter) (m tag n : Nat), s.quiet = true → s.hall.waiters[k.val]? = some w → w.deadline = some n → n ≤ s.ticks →
    w.asked = false → w.req.who = .module m tag → w.req.hdr ≠ 0 → (w.req.top = 2 ∨ w.req.top = 6) → s.hall.held = [] →
    ∃ t, exec (.waitTimeout k) s = .next t ∧ t.hall = { s.hall with waiters := s.hall.waiters.erase w } ∧
      (t.link m).tx = (s.link m).tx ++ [s.rspMsg m w.req.hdr 8 0 0 (s.tally w.phys).report []] ∧
      (t.rd pgTHL 0x020).getLsbD Err.THL_TIMEOUT = true ∧ SameMem s t) ∧
  (∀ (s : State) (c : Fin 16) (a b : Nat), s.quiet = true → s.get (ttvPage c) F.TTV_REALIGN_CTRL_PERIOD ≠ 0 →
    (find s.hall.realignAt c).getD 0 + s.get (ttvPage c) F.TTV_REALIGN_CTRL_PERIOD ≤ s.ticks → s.twinState = twOFF → s.linksOf c = [(a, b)] → a ≠ b →
    ∃ t, exec (.tallyRealign c) s = .next t ∧ (t.tally a).val = (s.tally a).val - min (s.tally a).val (s.tally b).val ∧
      (t.tally b).val = (s.tally b).val - min (s.tally a).val (s.tally b).val ∧
      (∀ k, k ≠ a → k ≠ b → t.tally k = s.tally k) ∧ find t.hall.realignAt c = some s.ticks ∧ t.hall.waiters = s.hall.waiters ∧ SameMem s t) ∧
  (∀ (s : State) (c : Fin 16), s.quiet = true → s.deadlocked c = true →
    (s.flag (ttvPage c) F.TTV_TTV_STATUS_DL_ACTIVE = false → ∃ t, exec (.tallyDeadlock c) s = .next t ∧
      t.flag (ttvPage c) F.TTV_TTV_STATUS_DL_ACTIVE = true ∧ (t.rd pgTHL 0x020).getLsbD Err.THL_DEADLOCK = true ∧ t.hall = s.hall ∧ SameMem s t) ∧
    (s.flag (ttvPage c) F.TTV_TTV_STATUS_DL_ACTIVE = true → exec (.tallyDeadlock c) s = .next s))

/-- With no peer: (1) a legal LINK_k is stored in its register alone; an illegal one sets LINK_REJECT and leaves the
register. (2) LOCK for the tally that the port has selected sets or clears its lock where it has no link, clearing
drops its holder records, and with a link it sets ATTR_REJECT. (3) CLEAR_SAT clears SATURATED of the tally selected.
No other tally, no memory and no waiter changes. (R458, R473, R479, R501, R602, Table 11-9) -/
def Obligations.TenantTallyRegisters : Prop :=
  (∀ (s : State) (port : Port) (c k : Fin 16) (w : Word), s.quiet = true → s.twinState = twOFF → s.writes port (ttvPage c) (0x140 + 4 * k.val) w = true →
    (s.linkLegal c k w = true → ∃ t, exec (.linkWrite port c k w) s = .next t ∧ t.rd (ttvPage c) (0x140 + 4 * k.val) = w &&& 0x1FFF3FFF#32 ∧
      RegsOnly s t [(ttvPage c).base + (0x140 + 4 * k.val)]) ∧
    (s.linkLegal c k w = false → ∃ t, exec (.linkWrite port c k w) s = .next t ∧ t.flag (ttvPage c) F.TTV_TTV_STATUS_LINK_REJECT = true ∧
      RegsOnly s t [(ttvPage c).base + F.TTV_TTV_STATUS_LINK_REJECT.off])) ∧
  (∀ (s : State) (port : Port) (c : Fin 16) (on : Bool) (p : Nat), s.quiet = true → s.twinState = twOFF →
    s.writes port (ttvPage c) 0x110 (wordOf (b2n on)) = true → s.ttvSel port c = some p → p < 2 ^ 13 →
    (s.partner p = none → ∃ t, exec (.lockWrite port c on) s = .next t ∧ t.tally p = { s.tally p with lock := on } ∧
      (∀ k, k ≠ p → t.tally k = s.tally k) ∧ t.hall.waiters = s.hall.waiters ∧
      t.hall.holders = (if on then s.hall.holders else s.hall.holders.filter (·.phys ≠ p)) ∧ t.regs = s.regs ∧ SameMem s t) ∧
    ((s.partner p).isSome = true → ∃ t, exec (.lockWrite port c on) s = .next t ∧ t.hall = s.hall ∧
      t.flag (ttvPage c) F.TTV_TTV_STATUS_ATTR_REJECT = true ∧ SameMem s t)) ∧
  (∀ (s : State) (port : Port) (c : Fin 16) (p : Nat), s.quiet = true → s.writes port (ttvPage c) 0x114 1 = true → s.ttvSel port c = some p →
    ∃ t, exec (.clearSat port c) s = .next t ∧ t.tally p = { s.tally p with sat := false } ∧ (∀ k, k ≠ p → t.tally k = s.tally k) ∧
      t.hall.waiters = s.hall.waiters ∧ t.hall.holders = s.hall.holders ∧ t = { s with hall := t.hall })

/-- (1) The due tick is noted in REAL mode. (2) Where a step may open it opens now, with the context's key, and every
crier ends DELIVER in EVALUATE. (3) A crier in EVALUATE ends ready to drain; a population's only record becomes what
R537 makes of it. (4) A crier that evaluated, with nothing on its way and nothing to send, drains. (5) It arrives at
the step barrier; the last arrival closes the step: STEP_NUM counts, LAST_STEP shows it. (6) An event on its way is
taken; a landing is counted in its bucket or lost with STEP_LOSSY. (7) RUN starts and stops, or sets BAD_VALUE. (8)
COPY_LIVE, its end, SWAP and SWAP_CANCEL act on the shadow tables and TEV_STATUS. (9) EVM_CTRL takes effect while
event mode is off or halted, else sets WRITE_WHILE_RUN. (R536, R537, R542, R545, R550, R551, R553, R554, R555, R565,
R566, R583) -/
def Obligations.StepsOpenEvaluateDrainAndClose : Prop :=
  (∀ s : State, s.quiet = true →
    (s.evOn = true → s.flag s.evPage F.TEV_STEP_CTRL_RUN = true → s.flag s.evPage F.TEV_STEP_CTRL_MODE = false → s.dueTick ≤ s.ticks →
      exec .stepDue s = .next { s with event := { s.event with due := true } }) ∧
    (s.mayOpen = true → ∃ t, exec .stepOpen s = .next t ∧ t.event.opened = true ∧ t.event.openAt = s.ticks ∧ t.event.key = s.keyOf s.evCtx ∧
      t.event.due = false ∧ (∀ g < 8, (t.crier g).phase = 2 ∧ (t.crier g).drained = false ∧ (t.crier g).answer = none))) ∧
  (∀ (s : State) (g : Fin 8), s.quiet = true → s.event.opened = true → s.running pgMMAP = true →
    ((s.crier g).phase = 2 → ∃ t, exec (.crierEvaluate g) s = .next t ∧ (t.crier g).phase = 4 ∧ (∀ k, k ≠ g.val → t.crier k = s.crier k) ∧
      t.hall = s.hall ∧ t.hbm = s.hbm) ∧
    (∀ n b l, (s.crier g).phase = 2 → n < 64 → (s.pop n).en = true → (s.pop n).eval = true → (s.pop n).gal = g.val → (s.pop n).size = 1 →
      (∀ k < 64, k ≠ n → (s.pop k).en = false) → s.arenaAt g (s.pop n).base = (b, l) → b < 512 → l < 3072 →
      s.flag (bnkPage b) F.BNK_ECC_INJECT_ARM = false → (∀ j < 8, (s.granPeek b l j).cls = .good) → ∃ t, exec (.crierEvaluate g) s = .next t ∧
        WordWritten s t b l 0 (evalRec (s.pop n) (leAt (s.linePeek b l).bytes 0 4)).1) ∧
    ((s.crier g).phase = 4 → (s.crier g).drained = false → s.event.flights = [] → (∀ h < 8, 4 ≤ (s.crier h).phase) → (s.crier g).out = [] →
      (∀ j < 2, ∀ x ∈ (s.link (2 * g + j)).tx, hOpc x.msg.hdr ≠ opEVT) → (∀ d < 8, bit (s.liveEnt tCONV g (8 + d)) 0 = false) →
      ∃ t, exec (.crierDrain g) s = .next t ∧ t.crier g = { s.crier g with drained := true } ∧ (∀ k, k ≠ g.val → t.crier k = s.crier k) ∧
        (s.get s.evPage F.TEV_STEP_REC_LOG2 = 0 → SameMem s t)) ∧
    (∀ p n, (s.crier g).phase = 4 → (s.crier g).drained = true → s.hallIdle → s.hall.holders = [] → s.partner p = none →
      n = 8 + s.get s.evPage F.TEV_STEP_BARRIER_EXT → s.physOf s.evCtx (s.get s.evPage F.TEV_STEP_BARRIER_TALLY) = some p →
      s.tallyLegal ⟨.crier g, s.evCtx, 6, s.get s.evPage F.TEV_STEP_BARRIER_TALLY, n, 0xFFFFFFFF, s.evClass, 0, 0⟩ p = true →
      ((s.tally p).val + 1 < n → ∃ t w, exec (.stepArrive g) s = .next t ∧ (t.crier g).phase = 5 ∧ (t.tally p).val = (s.tally p).val + 1 ∧
        t.hall.waiters = [w] ∧ w.req.who = .crier g ∧ w.phys = p ∧ t.event = s.event ∧ SameMem s t) ∧
      ((s.tally p).val + 1 = n → (∀ h < 8, h ≠ g.val → (s.crier h).answer = some 0) → ∃ t, exec (.stepArrive g) s = .next t ∧
        t.event.opened = false ∧ t.rd s.evPage F.TEV_LAST_STEP.off = s.rd s.evPage F.TEV_STEP_NUM.off ∧
        (t.rd s.evPage F.TEV_STEP_NUM.off).toNat = ((s.rd s.evPage F.TEV_STEP_NUM.off).toNat + 1) % 2 ^ 32 ∧
        (∀ h < 8, (t.crier h).phase = 0 ∧ (t.crier h).answer = none) ∧ SameMem s t)) ∧
    (∀ f rest, takeFirst (fun f => f.g == g.val) s.event.flights = some (f, rest) →
      (s.matches g f.key false = [] → exec (.eventDelivery g) s = .next { s with event := { s.event with flights := rest } }) ∧
      (∀ e bucket, s.matches g f.key false = [e] → bits e 65 2 = 1 → bucket = (f.step + f.d) % 16 → f.g = g.val →
        find (s.crier g).counts bucket = none → find (s.crier g).chunks bucket = none →
        ((∃ c < s.poolSize g, c ∉ (s.crier g).chunks.flatMap (·.2)) → ∃ t, exec (.eventDelivery g) s = .next t ∧ t.event.flights = rest ∧
          find (t.crier g).counts bucket = some 1 ∧ t.hall = s.hall) ∧
        ((∀ c < s.poolSize g, c ∈ (s.crier g).chunks.flatMap (·.2)) → ∃ t, exec (.eventDelivery g) s = .next t ∧ t.event.flights = rest ∧
          find (t.crier g).dropped bucket = some ((find (s.crier g).dropped bucket).getD 0 + 1) ∧
          (t.rd (cryPage g) 0x020).getLsbD Err.CRY_STEP_LOSSY = true ∧ SameMem s t ∧ t.hall = s.hall)))) ∧
  (∀ (s : State) (port : Port) (c : Fin 16), s.quiet = true →
    (s.writes port (tevPage c) 0x100 (wput (s.rd (tevPage c) 0x100) 0 1 1) = true →
      (s.evCtx ≠ c → exec (.stepRun port c true) s = .next s) ∧
      (s.evCtx = c → s.evOn = true → s.get (tevPage c) F.TEV_STEP_BARRIER_TALLY < s.tallyCount c → s.flag (tevPage c) F.TEV_STEP_CTRL_RUN = false →
        s.event.opened = false → ∃ t, exec (.stepRun port c true) s = .next t ∧ t.flag (tevPage c) F.TEV_STEP_CTRL_RUN = true ∧
        t.event = { s.event with started := false, due := false, t0 := s.ticks + 1, first := s.stepNum } ∧ SameMem s t ∧ t.hall = s.hall) ∧
      (s.evCtx = c → s.evOn = false ∨ s.tallyCount c ≤ s.get (tevPage c) F.TEV_STEP_BARRIER_TALLY → ∃ t, exec (.stepRun port c true) s = .next t ∧
        (t.rd (tevPage c) 0x020).getLsbD Err.TEV_BAD_VALUE = true ∧
        t.flag (tevPage c) F.TEV_STEP_CTRL_RUN = s.flag (tevPage c) F.TEV_STEP_CTRL_RUN ∧ t.event = s.event ∧ SameMem s t ∧ t.hall = s.hall)) ∧
    (s.writes port (tevPage c) 0x100 (wput (s.rd (tevPage c) 0x100) 0 1 0) = true → s.evCtx = c →
      ∃ t, exec (.stepRun port c false) s = .next t ∧ t.flag (tevPage c) F.TEV_STEP_CTRL_RUN = false ∧ SameMem s t ∧ t.hall = s.hall) ∧
    (s.writes port (tevPage c) 0x1A0 2 = true → s.evCtx = c → ∃ t, exec (.copyLive port c) s = .next t ∧
      t.flag (tevPage c) F.TEV_TEV_STATUS_COPY_BUSY = true ∧ RegsOnly s t [(tevPage c).base + 0x1A4]) ∧
    (s.writes port (tevPage c) 0x1A0 4 = true → s.evCtx = c → ∃ t, exec (.swapCancel port c) s = .next t ∧
      t.flag (tevPage c) F.TEV_TEV_STATUS_SWAP_PENDING = false ∧ RegsOnly s t [(tevPage c).base + 0x1A4]) ∧
    (s.writes port (tevPage c) 0x1A0 1 = true → s.evCtx = c → s.flag (tevPage c) F.TEV_TEV_STATUS_COPY_BUSY = false →
      (∀ code, s.swapCode = some code → ∃ t, exec (.tevCmdSwap port c) s = .next t ∧ t.flag (tevPage c) F.TEV_TEV_STATUS_SWAP_REJECT = true ∧
        t.get (tevPage c) F.TEV_TEV_STATUS_REJECT_CODE = code ∧ RegsOnly s t [(tevPage c).base + 0x1A4]) ∧
      (s.swapCode = none → s.evIdle = false → ∃ t, exec (.tevCmdSwap port c) s = .next t ∧
        t.flag (tevPage c) F.TEV_TEV_STATUS_SWAP_PENDING = true ∧ RegsOnly s t [(tevPage c).base + 0x1A4]) ∧
      (s.swapCode = none → s.evIdle = true → ∃ t, exec (.tevCmdSwap port c) s = .next t ∧
        t.flag (tevPage c) F.TEV_TEV_STATUS_SWAP_PENDING = false ∧ t.event = { s.event with live := s.event.shadow } ∧ SameMem s t ∧ t.hall = s.hall))) ∧
  (∀ s : State, s.quiet = true → s.flag s.evPage F.TEV_TEV_STATUS_COPY_BUSY = true → ∃ t, exec .copyLiveDone s = .next t ∧
    t.event = { s.event with shadow := s.event.live } ∧ t.flag s.evPage F.TEV_TEV_STATUS_COPY_BUSY = false ∧
    t = { s with regs := t.regs, event := t.event }) ∧
  (∀ (s : State) (w : Word), s.quiet = true → s.writes .steward pgEVM 0x100 w = true →
    (s.evOn = false ∨ s.halted pgEVM = true → ∃ t, exec (.evmCtrl w) s = .next t ∧ t.evOn = w.getLsbD 0 ∧ t.evCtx = wbits w 1 4 ∧
      t.evClass = wbits w 5 3 ∧ (wbits w 1 4 ≠ s.evCtx → t.event = {}) ∧ SameMem s t) ∧
    (s.evOn = true → s.halted pgEVM = false → w.getLsbD 0 = true → wbits w 1 4 = s.evCtx → wbits w 5 3 = s.evClass → exec (.evmCtrl w) s = .next s) ∧
    (s.evOn = true → s.halted pgEVM = false → w.getLsbD 0 = false ∨ wbits w 1 4 ≠ s.evCtx ∨ wbits w 5 3 ≠ s.evClass →
      ∃ t, exec (.evmCtrl w) s = .next t ∧ (t.rd pgEVM 0x020).getLsbD Err.WRITE_WHILE_RUN = true ∧ t.rd pgEVM 0x100 = s.rd pgEVM 0x100 ∧
      t.event = s.event ∧ SameMem s t))

/-- For a message of the peer taken at once: (1) an M_APPLY of an ADD adds to the tally and is acknowledged with its MSEQ;
(2) at the sequencer an M_FWD of a legal ADD adds, takes the next MSEQ and sends an M_APPLY, and one of an unassigned
context is refused RETIRED; an M_COPY of a tally record replaces it here (its layout is the model's own, log entry
29); (3) M_ACK and M_REFUSE answer who waits; (4) M_BEAT tells the peer's MSEQ; (5) M_JOIN has the outcome of Table
14-7; (6) M_LEAVE, or no good flit for BEAT_TIMEOUT, makes the die SOLO, or FENCED where R619 says so. (7) Without a
peer M15 retrains; REJOIN discards the mirrored state; TAKE_OVER leaves FENCED. (8) RESILVER sends its copies within
its rate and its end makes the pair synchronous. (9) A region is enabled if legal, else REGION_REJECT. (R591, R593,
R594, R598, R604, R617, R618, R619, R623, R624, R626, R627) -/
def Obligations.TwinMessagesLossJoinAndRegions : Prop :=
  (∀ (s : State) (h : BitVec 128) (data : List Byte) (x : MirMsg) (p : Nat), s.quiet = true → s.hall.waiters = [] → s.hall.held = [] →
    s.hall.holders = [] → s.partner p = none → x = mirMsg (s.mkMsg h data) → x.phys = p → x.mkind = mkTALLY → x.top = 0 → x.odie ≠ s.dieNo →
    s.twinState = twPAIRED →
    (s.twinTakes opM_APPLY h data → ∃ t, exec (.mApply h data) s = .next t ∧ (t.tally p).val = min ((s.tally p).val + x.n) tallyMax ∧
      (∀ k, k ≠ p → t.tally k = s.tally k) ∧ t.get pgTWN F.TWN_MSEQ_LAST = x.xf ∧ (t.link 15).tx = (s.link 15).tx ++ [x.ackMsg 0] ∧
      t.twin.ops = s.twin.ops ∧ SameMem s t) ∧
    (s.twinTakes opM_FWD h data → s.sequencer = true → x.okind ≠ 3 →
      (s.assigned x.ctx = true → s.tallyLegal x.req p = true → ∃ t o, exec (.mFwd h data) s = .next t ∧
        (t.tally p).val = min ((s.tally p).val + x.n) tallyMax ∧ (∀ k, k ≠ p → t.tally k = s.tally k) ∧
        t.get pgTWN F.TWN_MSEQ_LAST = (s.get pgTWN F.TWN_MSEQ_LAST + 1) % 2 ^ 32 ∧ t.twin.ops = s.twin.ops ++ [o] ∧ o.fwd = false ∧
        hOpc o.msg.hdr = opM_APPLY ∧ o.mseq = t.get pgTWN F.TWN_MSEQ_LAST ∧ SameMem s t) ∧
      (s.assigned x.ctx = false → ∃ t, exec (.mFwd h data) s = .next t ∧ t.hall = s.hall ∧ t.twin = s.twin ∧ SameMem s t ∧
        (t.link 15).tx = (s.link 15).tx ++ [⟨⟨mkHdr opM_REFUSE x.tag x.sc 0 x.ctx 6 0 0 0 0, []⟩, 0, x.ctx, .plain⟩]))) ∧
  (∀ (s : State) (h : BitVec 128) (data : List Byte) (x : MirMsg), s.quiet = true → x = mirMsg (s.mkMsg h data) → s.twinState = twTGT →
    s.twinTakes opM_COPY h data → x.mkind = mkCOPY_TALLY → x.kspec = 0 → ∃ t, exec (.mCopy h data) s = .next t ∧
      t.tally x.phys = tallyOfBits (leNat (x.slots.take 16)) s.ticks ∧ (∀ k, k ≠ x.phys → t.tally k = s.tally k) ∧
      t.get pgTWN F.TWN_MSEQ_LAST = x.xf ∧ (t.link 15).tx = (s.link 15).tx ++ [x.ackMsg 0] ∧ SameMem s t) ∧
  (∀ (s : State) (h hd : BitVec 128) (o : MirOp) (m : Nat), s.quiet = true → s.twin.ops = [o] → o.tag = hTag h → o.fin = .write m hd → hd ≠ 0 →
    (s.twinTakes opM_ACK h [] → o.fwd = false → hStatus h = 0 → (mirMsg o.msg).mkind ≠ mkCOPY_LINE → ∃ t, exec (.mAck h) s = .next t ∧
      t.twin.ops = [] ∧ (t.link m).tx = (s.link m).tx ++ [s.rspMsg m hd 0 0 0 0 []] ∧ SameMem s t ∧ t.hall = s.hall) ∧
    (s.twinTakes opM_REFUSE h [] → o.fwd = true → hStatus h ≠ 0 → ∃ t, exec (.mRefuse h) s = .next t ∧
      t.twin.ops = [] ∧ (t.link m).tx = (s.link m).tx ++ [s.rspMsg m hd (hStatus h) 0 0 0 []] ∧ SameMem s t ∧ t.hall = s.hall)) ∧
  (∀ (s : State) (h : BitVec 128), s.quiet = true →
    (s.twinTakes opM_BEAT h [] → ∃ t, exec (.mBeat h) s = .next t ∧ t.twin = { s.twin with peerMseq := hb h 32 32 } ∧ t.regs = s.regs ∧ SameMem s t ∧
      t.hall = s.hall) ∧
    (s.twinTakes opM_JOIN h [] → s.twinState = twUNPAIRED ∨ s.twinState = twJOINING ∨ s.twinState = twSOLO ∨ s.twinState = twFENCED →
      (hb h 32 1 = s.dieNo → ∃ t, exec (.mJoin h) s = .next t ∧ t.twinState = twUNPAIRED ∧ (t.rd pgTWN 0x020).getLsbD Err.TWN_ROLE_CLASH = true ∧
        SameMem s t ∧ t.hall = s.hall) ∧
      (hb h 32 1 ≠ s.dieNo → s.holdsState = true → hb h 33 1 = 1 → ∃ t, exec (.mJoin h) s = .next t ∧ t.twinState = s.twinState ∧
        (t.rd pgTWN 0x020).getLsbD Err.TWN_JOIN_CONFLICT = true ∧ SameMem s t ∧ t.hall = s.hall) ∧
      (hb h 32 1 ≠ s.dieNo → s.holdsState = false → hb h 33 1 = 0 → ∃ t, exec (.mJoin h) s = .next t ∧ t.twinState = twPAIRED ∧
        t.sequencer = (s.dieNo == 0) ∧ t.flag pgTWN F.TWN_TWN_STATUS_SYNCED = true ∧ SameMem s t ∧ t.hall = s.hall) ∧
      (hb h 32 1 ≠ s.dieNo → s.holdsState = true → hb h 33 1 = 0 → ∃ t, exec (.mJoin h) s = .next t ∧ t.twinState = twSRC ∧ t.sequencer = true ∧
        t.flag pgTWN F.TWN_TWN_STATUS_SYNCED = false ∧ SameMem s t ∧ t.hall = s.hall) ∧
      (hb h 32 1 ≠ s.dieNo → s.holdsState = false → hb h 33 1 = 1 → ∃ t, exec (.mJoin h) s = .next t ∧ t.twinState = twTGT ∧ t.sequencer = false ∧
        t.flag pgTWN F.TWN_TWN_STATUS_SYNCED = false ∧ SameMem s t ∧ t.hall = s.hall)) ∧
    (s.twinState = twPAIRED ∨ s.twinState = twSRC → s.twin.ops = [] → s.hall.holders = [] →
      (s.twinTakes opM_LEAVE h [] → s.flag pgTWN F.TWN_TWN_CTRL_SOLO_POLICY = false → ∃ t, exec (.mLeave h) s = .next t ∧ t.twinState = twSOLO ∧
        t.sequencer = true ∧ t.get pgTWN F.TWN_TWN_STATUS_LOST_CAUSE = (hb h 32 4 + 2) % 8 ∧
        (t.rd pgTWN 0x020).getLsbD Err.TWN_TWIN_LOST = true ∧ SameMem s t ∧ t.hall = s.hall) ∧
      (s.twin.beatAt + s.get pgTWN F.TWN_TWN_CTRL_BEAT_TIMEOUT ≤ s.ticks → ∃ t, exec .beatTimeout s = .next t ∧
        t.twinState = (if s.flag pgTWN F.TWN_TWN_CTRL_SOLO_POLICY && s.dieNo == 1 then twFENCED else twSOLO) ∧
        t.get pgTWN F.TWN_TWN_STATUS_LOST_CAUSE = 2 ∧ (t.rd pgTWN 0x020).getLsbD Err.TWN_TWIN_LOST = true ∧ SameMem s t ∧ t.hall = s.hall))) ∧
  (∀ s : State, s.quiet = true → s.straps.twinEn = true →
    (s.twinState = twUNPAIRED ∨ s.twinState = twSOLO → s.twin.retrainAt + 10000 ≤ s.ticks → s.isFatal = false → ∃ t, exec .twinRetrain s = .next t ∧
      t.modState 15 = (if s.flag (modPage 15) F.MOD_MOD_CTRL_ENABLE then 1 else 0) ∧ t.twin.joined = false ∧ t.twin.retrainAt = s.ticks) ∧
    (s.writes .steward pgTWN 0x104 1 = true → s.twinState = twSOLO ∨ s.twinState = twFENCED ∨ s.twinState = twUNPAIRED →
      (∀ c < 16, s.ctxState c = 0) → s.hall.waiters = [] → s.hall.held = [] → s.hall.holders = [] → ∃ t, exec .twinRejoin s = .next t ∧
      t.twinState = twJOINING ∧ t.holdsState = false ∧ t.sequencer = false ∧ t.hall.tallies = [] ∧ t.twin.ops = [] ∧ SameMem s t) ∧
    (s.writes .steward pgTWN 0x104 2 = true →
      (s.twinState = twFENCED → ∃ t, exec .takeOver s = .next t ∧ t.twinState = twSOLO ∧ t.sequencer = true ∧ RegsOnly s t [pgTWN.base + 0x108]) ∧
      (s.twinState ≠ twFENCED → exec .takeOver s = .next s)) ∧
    (s.twinState = twSRC → s.twin.pass = 0 → s.twin.front + 1 < copyRegs.length →
      (s.twin.copied < s.get pgTWN F.TWN_RESILVER_CTRL_RATE → ∃ t o, exec .resilverCopy s = .next t ∧ t.twin.ops = s.twin.ops ++ [o] ∧
        hOpc o.msg.hdr = opM_COPY ∧ hAddr o.msg.hdr = copyRegs.getD s.twin.front 0 ∧ t.twin.front = s.twin.front + 1 ∧
        t.twin.copied = s.twin.copied + 1 ∧ SameMem s t ∧ t.hall = s.hall) ∧
      (s.get pgTWN F.TWN_RESILVER_CTRL_RATE ≤ s.twin.copied → exec .resilverCopy s = .next s)) ∧
    (s.twinState = twSRC ∨ s.twinState = twTGT → s.twin.pass = 2 → s.twin.copying = [] → (∀ o ∈ s.twin.ops, hOpc o.msg.hdr ≠ opM_COPY) →
      ∃ t, exec .resilverDone s = .next t ∧ t.twinState = twPAIRED ∧ t.sequencer = s.sequencer ∧ t.flag pgTWN F.TWN_TWN_STATUS_SYNCED = true ∧
        t.get pgTWN F.TWN_TWN_STATUS_PASS = 3 ∧ (t.rd pgTWN 0x020).getLsbD Err.TWN_RESILVERED = true ∧ SameMem s t ∧ t.hall = s.hall)) ∧
  (∀ (s : State) (k : Fin 16) (w : Word), s.quiet = true → s.straps.twinEn = true → s.writes .steward pgTWN (0x144 + 8 * k.val) w = true →
    s.twinState = twUNPAIRED → s.regionOn k = false → w.getLsbD 31 = true →
    ((s.set pgTWN (F.TWN_MIR_SIZE_SIZE.at k) (wbits w 0 24)).regionLegal k = true → ∃ t, exec (.regionEnable k w) s = .next t ∧
      t.regionOn k = true ∧ t.get pgTWN (F.TWN_MIR_SIZE_SIZE.at k) = wbits w 0 24 ∧ t.flag pgTWN (F.TWN_MIR_SIZE_SYNCED.at k) = false ∧
      (∀ j, j ≠ k.val → j < 16 → t.regionOn j = s.regionOn j) ∧ SameMem s t ∧ t.hall = s.hall) ∧
    ((s.set pgTWN (F.TWN_MIR_SIZE_SIZE.at k) (wbits w 0 24)).regionLegal k = false → ∃ t, exec (.regionEnable k w) s = .next t ∧
      t.regionOn k = false ∧ (t.rd pgTWN 0x020).getLsbD Err.TWN_REGION_REJECT = true ∧ SameMem s t ∧ t.hall = s.hall))

/-- With the port in service and no operation under a handle: (1) PING answers the device's ID, phase, operations and
pins. (2) REG_READ of a page answers the register's word; where it takes longer it is QUEUED, and its end keeps the
word for FETCH. (3) REG_WRITE of ERR_ENABLE writes it and answers OK. (4) MEM_READ answers a line's bytes with status
and poison mask. (5) MEM_WRITE leaves memory as the bank's write. (6) MEM_ATOM acts as the bank's atomic. (7) REPLAY
sends the last response again, or EMPTY. (8) FETCH answers the oldest finished operation and frees its handle, or
EMPTY. (9) A frame with a wrong CRC, and one that was too long, are counted and answered. (R630, R631, R633, R634,
R635, R659, Table 15-2, Table 15-3, Table 15-4) -/
def Obligations.StewardPortAnswersItsFrames : Prop :=
  (∀ (s : State) (fr : List Byte), s.quiet = true → s.portTakes 0x01 fr →
    ∃ t f, exec (.stwPing fr) s = .next t ∧ f = respFrame 0x81 (byteAt fr 1) psDONE 0 0 0 0 s.pingData ∧ t = { s with stw := { s.stw with last := some f, out := f } }) ∧
  (∀ (s : State) (fr : List Byte) (p : Page) (off : Nat), s.quiet = true → s.portTakes 0x02 fr → s.portFree → region (leAt fr 2 6) = .page p off →
    leAt fr 2 6 % 4 = 0 → s.regHeld .steward p off none = false →
    (∃ t u : State, exec (.stwRegRead fr false) s = .next t ∧ u = { s with stw := u.stw } ∧ t.stw.queue = [] ∧ t.stw.done = [] ∧ SameMem s t ∧ t.hall = s.hall ∧
      t.stw.out = respFrame 0x82 (byteAt fr 1) psDONE 0 0 0 0 (leBytes 4 (u.readReg .steward p off).1.toNat) ∧ t.stw.last = some t.stw.out) ∧
    (∃ t q, exec (.stwRegRead fr true) s = .next t ∧ t.stw.queue = [q] ∧ q.handle = 0 ∧ q.op = some (.regRead (leAt fr 2 6)) ∧
      t.stw.out = respFrame 0x82 (byteAt fr 1) psQUEUED 0 0 0 0 [] ∧ t = { s with stw := t.stw })) ∧
  (∀ (s : State) (h : Fin 16) (q : StwQueued) (a : Nat) (p : Page) (off : Nat), s.quiet = true → s.stw.queue = [q] → q.handle = h.val →
    q.op = some (.regRead a) → region a = .page p off → a % 4 = 0 → s.regHeld .steward p off none = false →
    ∃ t u : State, exec (.stewardOpDone h) s = .next t ∧ u = { s with stw := u.stw } ∧ t.stw.queue = [] ∧ t.stw.out = s.stw.out ∧ SameMem s t ∧ t.hall = s.hall ∧
      t.stw.done = s.stw.done ++ [{ q with op := none, res := some ⟨0, 0, 0, leBytes 4 (u.readReg .steward p off).1.toNat⟩ }]) ∧
  (∀ (s : State) (fr : List Byte) (p : Page), s.quiet = true → s.portTakes 0x03 fr → s.portFree → region (leAt fr 2 6) = .page p 0x024 →
    p.kind.tenant = false → (s.mirroredReg p 0x024 = false ∨ s.twinState = twOFF) → s.regHeld .steward p 0x024 (some (BitVec.ofNat 32 (leAt fr 8 4))) = false →
    ∃ t, exec (.stwRegWrite fr false) s = .next t ∧ t.rd p 0x024 = BitVec.ofNat 32 (leAt fr 8 4) &&& errPositions p.kind ∧ SameRegs s t [p.base + 0x024] ∧
      t = { s with regs := t.regs, stw := t.stw } ∧ t.stw.out = respFrame 0x83 (byteAt fr 1) psDONE 0 0 0 0 []) ∧
  (∀ (s : State) (fr : List Byte) (b l o n : Nat), s.quiet = true → s.portFree → o = leAt fr 2 6 % 64 → n = byteAt fr 8 + 1 →
    byteAt fr 8 < 64 → byteAt fr 9 < 8 → s.portLine (leAt fr 2 6) n b l →
    (∀ x, s.portTakes 0x04 fr → x = s.linePeek b l → ∃ t, exec (.stwMemRead fr false) s = .next t ∧ t.stw.queue = [] ∧ t.hall = s.hall ∧
      t.stw.out = respFrame 0x84 (byteAt fr 1) psDONE 0 (x.status o n).code 0 (unitMask 8 (x.slice o n))
        (if (x.status o n).hasData then (x.slice o n).map (·.1) else []) ∧ t.sram = (s.bankRead b l).2.sram ∧ t.hbm = s.hbm) ∧
    (∀ w, s.portTakes 0x05 fr → w = s.bankWrite b l (enables o n) (atOffset o ((fr.drop 11).take n)) (wrPoison (byteAt fr 10) o n 0) →
      ∃ t, exec (.stwMemWrite fr false) s = .next t ∧ t.stw.queue = [] ∧ t.hall = s.hall ∧ t.sram = w.2.sram ∧ t.hbm = s.hbm ∧
      t.stw.out = respFrame 0x85 (byteAt fr 1) psDONE 0 w.1.status.code 0 0 []) ∧
    (∀ a r, s.portTakes 0x06 fr → byteAt fr 10 < 16 → bits (leAt fr 11 4) 11 5 = 0 →
      mkAtom (leAt fr 11 4) (s.keyOf (byteAt fr 10)) o n ((fr.drop 15).take (if bits (leAt fr 11 4) 4 3 = 2 then 64 else n)) = some a →
      r = s.bankAtomic b l a → ∃ t, exec (.stwMemAtom fr false) s = .next t ∧ t.stw.queue = [] ∧ t.hall = s.hall ∧ t.hbm = s.hbm ∧
      (r.1 = none → t.sram = s.sram ∧ t.stw.out = respFrame 0x86 (byteAt fr 1) psDONE 0 10 dtAtomic 0 []) ∧
      (∀ old w, r.1 = some (old, w) → t.sram = r.2.sram ∧ t.stw.out = respFrame 0x86 (byteAt fr 1) psDONE 0
        (atomOut old w o n).st 0 (unitMask 8 (atomOut old w o n).bytes)
        (if a.returns then padTo (max (if bits (leAt fr 11 4) 4 3 = 2 then 32 else 0) n) ((atomOut old w o n).bytes.map (·.1)) else [])))) ∧
  (∀ (s : State) (fr : List Byte), s.quiet = true → s.portTakes 0x0D fr → s.phase ≠ 1 →
    (∀ f, s.stw.last = some f → exec (.stwReplay fr) s = .next { s with stw := { s.stw with out := f } }) ∧
    (s.stw.last = none → exec (.stwReplay fr) s =
      .next { s with stw := { s.stw with out := respFrame 0x8D (byteAt fr 1) psEMPTY 0 0 s.stw.queue.length 0 [] } })) ∧
  (∀ (s : State) (fr : List Byte), s.quiet = true → s.portTakes 0x0E fr → s.phase ≠ 1 →
    (∀ q r, s.stw.done = [q] → q.res = some r → r.data.length = q.pad ∨ q.pad = 0 → ∃ t, exec (.stwFetch fr) s = .next t ∧ t.stw.done = [] ∧
      t.stw.out = respFrame (0x80 + q.cmd) q.seq psDONE q.handle r.status r.detail r.poison r.data ∧ t.stw.last = some t.stw.out ∧
      t = { s with stw := t.stw }) ∧
    (s.stw.done = [] → ∃ t, exec (.stwFetch fr) s = .next t ∧ t.stw.done = [] ∧ t = { s with stw := t.stw } ∧
      t.stw.out = respFrame 0x8E (byteAt fr 1) psEMPTY 0 0 s.stw.queue.length 0 [])) ∧
  (∀ (s : State) (fr : List Byte), s.quiet = true → s.portAnswers = true →
    (s.stw.long = none → fr.length < 96 → 4 ≤ fr.length → crc16 (fr.take (fr.length - 2)) ≠ leAt fr (fr.length - 2) 2 → ∃ t,
      exec (.stwPing fr) s = .next t ∧ (t.rd pgSTW 0x020).getLsbD Err.STW_PORT_CRC = true ∧ t.stw.queue = s.stw.queue ∧ SameMem s t ∧ t.hall = s.hall ∧
      t.stw.out = respFrame (rcmdOf fr) (byteAt fr 1) psCRC_ERR 0 0 0 0 []) ∧
    (∀ c q, s.stw.long = some (c, q) → c < 256 → q < 256 → ∃ t, exec .stwFrmLow s = .next t ∧ t.stw.long = none ∧
      (t.rd pgSTW 0x020).getLsbD Err.STW_PORT_FRAME = true ∧ SameMem s t ∧ t.hall = s.hall ∧
      t.stw.out = respFrame (if stwCmd c then 0x80 + c else 0xFF) q psBAD_FRAME 0 0 0 0 []) ∧
    (s.stw.long = none → exec .stwFrmLow s = .next s))

/-- (1) ASSIGN of a context that is not CLEARING, and RETIRE of one that is assigned, begin its clearing; else CMD_IGNORED
is set. The clearing's end, with nothing of it left, makes it ASSIGNED with its GEN counted, or UNASSIGNED. (2) The
oldest record of the error log, and of a fault queue, goes to its entry of a ring in a bank line, leaves its buffer,
and HEAD counts. (3) A tail within the head is taken, any other refused. (4) UNLOCK with the key unlocks and is
logged; with another it sets BAD_VALUE. (5) FQ_CTRL.EN translates the base, or sets BASE_FAULT. (6) A parity error on
the path to lines, streams or tallies, and a fault of a switch, stop the device; others mark what they hit. (R127,
R494, R639, R640, R642, R645, R655, R733, R734, R736, R737, R40) -/
def Obligations.ContextsRecordsAndFaults : Prop :=
  (∀ (s : State) (c : Fin 16), s.quiet = true → s.twinState = twOFF →
    (s.writes .steward pgCTX 0x100 (wordOf (c.val + 0x10)) = true →
      (s.ctxState c ≠ 1 → ∃ t, exec (.ctxAssign c) s = .next t ∧ t.ctxState c = 1 ∧ find t.clearing c = some true ∧
        (∀ k < 16, k ≠ c.val → t.ctxState k = s.ctxState k) ∧ SameMem s t) ∧
      (s.ctxState c = 1 → ∃ t, exec (.ctxAssign c) s = .next t ∧ t.ctxState c = 1 ∧ t.clearing = s.clearing ∧
        (t.rd pgCTX 0x020).getLsbD Err.CTX_CMD_IGNORED = true ∧ SameMem s t ∧ t.hall = s.hall)) ∧
    (s.writes .steward pgCTX 0x100 (wordOf (c.val + 0x20)) = true →
      (s.ctxState c = 2 → ∃ t, exec (.ctxRetire c) s = .next t ∧ t.ctxState c = 1 ∧ find t.clearing c = some false ∧
        (∀ k < 16, k ≠ c.val → t.ctxState k = s.ctxState k) ∧ SameMem s t) ∧
      (s.ctxState c = 0 ∨ s.ctxState c = 1 → ∃ t, exec (.ctxRetire c) s = .next t ∧ t.ctxState c = s.ctxState c ∧ t.clearing = s.clearing ∧
        (t.rd pgCTX 0x020).getLsbD Err.CTX_CMD_IGNORED = true ∧ SameMem s t ∧ t.hall = s.hall)) ∧
    (∀ assign, find s.clearing c = some assign → s.ctxQuiet c = true → ∃ t, exec (.contextClearDone c) s = .next t ∧
      t.ctxState c = (if assign then 2 else 0) ∧ find t.clearing c = none ∧ (t.get pgCTX F.CTX_CTX_BUSY).testBit c = false ∧
      t.get pgCTX (F.CTX_CTX_STATE_GEN.at c) = (s.get pgCTX (F.CTX_CTX_STATE_GEN.at c) + (if assign then 1 else 0)) % 2 ^ 16 ∧
      t = { s with regs := t.regs, clearing := t.clearing })) ∧
  (∀ (s : State) (r : LogRec) (rest : List LogRec) (head dpa b l : Nat), s.quiet = true → s.flag pgSTW F.STW_ELOG_CTRL_EN = true → s.elog.writing = false →
    s.elog.buf = r :: rest → head = s.get pgSTW F.STW_ELOG_HEAD →
    (head + 2 ^ 32 - s.get pgSTW F.STW_ELOG_TAIL) % 2 ^ 32 ≠ 2 ^ s.get pgSTW F.STW_ELOG_CTRL_LOG2 →
    dpa = s.get pgSTW F.STW_ELOG_BASE_LO_A * 2 ^ 5 + s.get pgSTW F.STW_ELOG_BASE_HI_A * 2 ^ 32 + 32 * (head % 2 ^ s.get pgSTW F.STW_ELOG_CTRL_LOG2) →
    s.recordHome dpa b l → ∃ t, exec .elogWrite s = .next t ∧ t.elog.buf = rest ∧ t.get pgSTW F.STW_ELOG_HEAD = (head + 1) % 2 ^ 32 ∧
      BytesWritten s t b l (dpa % 64) r.bytes ∧ t.hall = s.hall) ∧
  (∀ (s : State) (c : Fin 16) (r : FaultRec) (rest : List FaultRec) (head dpa b l : Nat), s.quiet = true → s.flag (tfqPage c) F.TFQ_FQ_CTRL_EN = true →
    (s.faultBuf c).writing = false → (s.faultBuf c).buf = r :: rest → head = s.get (tfqPage c) F.TFQ_FQ_HEAD → r.bytes.length = 64 →
    (head + 2 ^ 32 - s.get (tfqPage c) F.TFQ_FQ_TAIL) % 2 ^ 32 ≠ 2 ^ s.get (tfqPage c) F.TFQ_FQ_CTRL_LOG2 →
    dpa = (s.faultBuf c).dpaBase + 64 * (head % 2 ^ s.get (tfqPage c) F.TFQ_FQ_CTRL_LOG2) → dpa % 64 = 0 → s.recordHome dpa b l →
    ∃ t, exec (.faultRecordWrite c) s = .next t ∧ (t.faultBuf c).buf = rest ∧ t.get (tfqPage c) F.TFQ_FQ_HEAD = (head + 1) % 2 ^ 32 ∧
      BytesWritten s t b l 0 r.bytes ∧ t.hall = s.hall ∧
      t.flag (tfqPage c) F.TFQ_FQ_STATUS_INT_PENDING = (s.flag (tfqPage c) F.TFQ_FQ_STATUS_INT_PENDING || s.flag (tfqPage c) F.TFQ_FQ_CTRL_INT_EN)) ∧
  (∀ (s : State) (w : Word) (d : Nat → Nat), s.quiet = true → s.writes .steward pgSTW 0x118 w = true →
    (∀ a, d a = (a + 2 ^ 32 - s.get pgSTW F.STW_ELOG_TAIL) % 2 ^ 32) →
    (d w.toNat ≤ d (s.get pgSTW F.STW_ELOG_HEAD) → ∃ t, exec (.elogTail w) s = .next t ∧ t.get pgSTW F.STW_ELOG_TAIL = w.toNat ∧ SameMem s t ∧ t.hall = s.hall) ∧
    (d (s.get pgSTW F.STW_ELOG_HEAD) < d w.toNat → ∃ t, exec (.elogTail w) s = .next t ∧ t.get pgSTW F.STW_ELOG_TAIL = s.get pgSTW F.STW_ELOG_TAIL ∧
      (t.rd pgSTW 0x020).getLsbD Err.STW_BAD_VALUE = true ∧ SameMem s t ∧ t.hall = s.hall)) ∧
  (∀ (s : State) (port : Port) (c : Fin 16) (w : Word) (d : Nat → Nat), s.quiet = true → s.writes port (tfqPage c) 0x110 w = true →
    (∀ a, d a = (a + 2 ^ 32 - s.get (tfqPage c) F.TFQ_FQ_TAIL) % 2 ^ 32) →
    (d w.toNat ≤ d (s.get (tfqPage c) F.TFQ_FQ_HEAD) → ∃ t, exec (.fqTail port c w) s = .next t ∧ t.get (tfqPage c) F.TFQ_FQ_TAIL = w.toNat ∧
      t.flag (tfqPage c) F.TFQ_FQ_STATUS_INT_PENDING = false ∧ SameMem s t ∧ t.hall = s.hall) ∧
    (d (s.get (tfqPage c) F.TFQ_FQ_HEAD) < d w.toNat → ∃ t, exec (.fqTail port c w) s = .next t ∧
      t.flag (tfqPage c) F.TFQ_FQ_STATUS_WRITE_IGNORED = true ∧ RegsOnly s t [(tfqPage c).base + 0x114])) ∧
  (∀ (s : State) (key : BitVec 8), s.quiet = true →
    s.writes .steward pgDBG 0x100 (wput (wput (s.rdSh pgDBG 0x100) 24 8 key.toNat) 0 1 1) = true →
    (key = 0xD6#8 → ∃ t, exec (.dbgUnlock key) s = .next t ∧ t.unlocked = true ∧ (t.rd pgSTW 0x020).getLsbD Err.STW_DBG_UNLOCKED = true ∧ SameMem s t ∧
      t.hall = s.hall) ∧
    (key ≠ 0xD6#8 → ∃ t, exec (.dbgUnlock key) s = .next t ∧ t.unlocked = s.unlocked ∧ (t.rd pgSTW 0x020).getLsbD Err.STW_BAD_VALUE = true ∧
      SameMem s t ∧ t.hall = s.hall)) ∧
  (∀ (s : State) (port : Port) (c : Fin 16) (tva : Nat), s.quiet = true → s.writes port (tfqPage c) 0x108 (s.rd (tfqPage c) 0x108 ||| 1) = true →
    s.flag (tfqPage c) F.TFQ_FQ_CTRL_EN = false →
    tva = s.get (tfqPage c) F.TFQ_FQ_BASE_LO_TVA * 2 ^ 10 + s.get (tfqPage c) F.TFQ_FQ_BASE_HI_TVA * 2 ^ 32 →
    (∀ dpa, s.peekX 0 c tva .wr none = some (.ok dpa) → ∃ t, exec (.fqEnable port c) s = .next t ∧ t.flag (tfqPage c) F.TFQ_FQ_CTRL_EN = true ∧
      (t.faultBuf c).dpaBase = dpa ∧ SameMem s t ∧ t.hall = s.hall) ∧
    (∀ f, s.peekX 0 c tva .wr none = some (.error f) → ∃ t, exec (.fqEnable port c) s = .next t ∧ t.flag (tfqPage c) F.TFQ_FQ_CTRL_EN = false ∧
      t.flag (tfqPage c) F.TFQ_FQ_STATUS_BASE_FAULT = true ∧ SameMem s t ∧ t.hall = s.hall)) ∧
  (∀ s : State, s.quiet = true →
    (∀ x : ParityAt, s.isFatal = false → x ∈ [.hall, .twin, .contextTable, .portQueue] ∨ (∃ g, x ∈ [.spareMap g, .errandState g, .scoreboard g, .stepEngine g]) ∨
      (∃ a p off, x = .field a ∧ regAt a.toNat = some (p, off) ∧ guarded p off = true) → ∃ t, exec (.parityError x) s = .next t ∧ t.isFatal = true ∧
      t.outs.fatalN = true) ∧
    (∃ t, exec (.parityError .timeCounter) s = .next t ∧ (t.rd pgTBS 0x020).getLsbD Err.TBS_TIME_PARITY = true ∧
      t.flag pgTBS F.TBS_TIME_STATUS_UNSET = true ∧ SameMem s t ∧ t.hall = s.hall) ∧
    (∀ p : Fin 8192, s.hall.waiters = [] → s.hall.held = [] → ∃ t, exec (.parityError (.tally p false)) s = .next t ∧
      t.tally p = { s.tally p with broken := true } ∧ (∀ k, k ≠ p.val → t.tally k = s.tally k) ∧ (t.rd pgTHL 0x020).getLsbD Err.THL_TALLY_UE = true ∧
      SameMem s t) ∧
    (∀ r : Fin 64, (s.ring r).fetched ≠ [] → (s.ring r).list = none → ∃ t, exec (.parityError (.prefetched r)) s = .next t ∧
      t.ring r = { s.ring r with fetched := [], next := s.head r } ∧ t = { s with rings := t.rings }) ∧
    (∀ g : Fin 8, ∃ t, exec (.parityError (.checkUnit g)) s = .next t ∧ (t.mix g).fault = true ∧
      (t.rd (mixPage g) 0x020).getLsbD Err.MIX_CHK_FAULT = true ∧ SameMem s t ∧ t.hall = s.hall) ∧
    (∀ u : UnitAt, s.isFatal = false → (∀ k, u = .central k → (centralPage k).isSome = true) → ∃ t, exec (.switchFault u) s = .next t ∧
      t.isFatal = true ∧ t.outs.fatalN = true))

/-- (1) Test-logic reset and IDCODE select the identity 0x200969CB; BYPASS and every code that Table 15-8 leaves undefined
select the 1-bit register; SAMPLE_PRELOAD captures the pins and loads the update stage. (2) While locked, each of
EXTEST, CLAMP, HIGHZ, DBG_ACCESS, TRACE_READ and IJTAG acts as BYPASS and sets TAP_REFUSED. (3) Unlocked, EXTEST,
CLAMP and HIGHZ act with SCAN_EN and are BYPASS without it. (4) DBG_ACCESS starts a read unless one is in progress;
its end has the register's word, or the line's bytes and status, and changes nothing else. (5) TRACE_READ captures the
entry at the TAP's index, IJTAG the instrument. (R645, R646, R647, R648, R649, R650, R778, Table 15-8, Table 15-9) -/
def Obligations.TapInstructionsNeedTheUnlock : Prop :=
  (∀ s : State, s.quiet = true →
    exec .tapReset s = .next { s with tap := { dr := 0x200969CB } } ∧
    exec .tapIdcode s = .next { s with tap := { s.tap with ir := 0x01, dr := 0x200969CB } } ∧
    (∀ code : BitVec 8, (code = 0xFF#8 ∨ tapCode code.toNat = false → exec (.tapBypass code) s = .next { s with tap := { s.tap with ir := 0xFF, dr := 0 } }) ∧
      (code ≠ 0xFF#8 → tapCode code.toNat = true → exec (.tapBypass code) s = .next s)) ∧
    (∀ pins scan, exec (.tapSample pins scan) s = .next { s with tap := { s.tap with ir := 0x02, dr := pins, scan := scan } })) ∧
  (∀ (s : State) (pins scan k : Nat) (dpa : BitVec 48) (line : Bool) (seg : Fin 9), s.quiet = true → s.unlocked = false →
    ∃ t, exec (.tapExtest pins scan) s = .next t ∧ exec .tapClamp s = .next t ∧ exec .tapHighz s = .next t ∧ exec (.dbgAccess dpa line) s = .next t ∧
      exec .traceRead s = .next t ∧ exec (.tapIjtag seg k) s = .next t ∧ t.tap = { s.tap with ir := 0xFF, dr := 0 } ∧
      t.flag pgDBG F.DBG_DBG_STATUS_TAP_REFUSED = true ∧ t = { s with regs := t.regs, tap := t.tap } ∧
      SameRegs s t [pgDBG.base + F.DBG_DBG_STATUS_TAP_REFUSED.off]) ∧
  (∀ (s : State) (pins scan : Nat), s.quiet = true → s.unlocked = true →
    (s.flag pgDBG F.DBG_DBG_CTRL_SCAN_EN = true →
      exec (.tapExtest pins scan) s = .next { s with tap := { s.tap with ir := 0x00, dr := pins, scan := scan } } ∧
      exec .tapClamp s = .next { s with tap := { s.tap with ir := 0x03, dr := 0 } } ∧
      exec .tapHighz s = .next { s with tap := { s.tap with ir := 0x04, dr := 0 } }) ∧
    (s.flag pgDBG F.DBG_DBG_CTRL_SCAN_EN = false → ∀ c ∈ [Instr.tapExtest pins scan, .tapClamp, .tapHighz],
      exec c s = .next { s with tap := { s.tap with ir := 0xFF, dr := 0 } })) ∧
  (∀ (s : State) (dpa : BitVec 48) (line : Bool), s.quiet = true → s.unlocked = true →
    (s.tap.busy = none → ∃ t, exec (.dbgAccess dpa line) s = .next t ∧ t.tap.ir = 0x10 ∧ t.tap.busy = some (dpa.toNat, line) ∧ t.tap.done = false ∧
      t.tap.dpa = dpa.toNat ∧ t.tap.dr = t.tap.capture ∧ t = { s with tap := t.tap }) ∧
    (s.tap.busy ≠ none → ∃ t, exec (.dbgAccess dpa line) s = .next t ∧ t.tap = { s.tap with ir := 0x10, dr := s.tap.capture } ∧
      t = { s with tap := t.tap })) ∧
  (∀ (s : State) (a : Nat) (line : Bool), s.quiet = true → s.tap.busy = some (a, line) →
    (∀ p off, line = false → region a = .page p off → a % 4 = 0 → s.regHeld .tap p off none = false → ∃ t, exec .dbgReadDone s = .next t ∧
      t.tap.busy = none ∧ t.tap.done = true ∧ t.tap.status = 0 ∧ t.tap.data = (s.readReg .tap p off).1.toNat ∧ SameMem s t ∧ t.hall = s.hall ∧
      t.regs = s.regs) ∧
    (∀ b l, line = true → a % 64 = 0 → region a = .sram → s.target a = .ok (.sram b l) → ∃ t, exec .dbgReadDone s = .next t ∧
      t.tap.busy = none ∧ t.tap.done = true ∧ t.tap.status = ((s.linePeek b l).status 0 64).code ∧ t.tap.poison = (s.linePeek b l).poisonMask ∧
      t.tap.data = leNat (s.linePeek b l).bytes ∧ t = { s with tap := t.tap }) ∧
    (region a = .reserved → ∃ t, exec .dbgReadDone s = .next t ∧ t.tap.busy = none ∧ t.tap.done = true ∧ t.tap.status = 10 ∧
      t = { s with tap := t.tap })) ∧
  (∀ s : State, s.quiet = true → s.unlocked = true →
    (∃ t, exec .traceRead s = .next t ∧ t.tap.ir = 0x11 ∧ t.tap.dr = s.trcEntry ((s.portRd .tap pgDBG 0x138).toNat % 4096) ∧
      (t.portRd .tap pgDBG 0x138).toNat % 4096 = ((s.portRd .tap pgDBG 0x138).toNat + 1) % 4096 ∧ SameMem s t ∧ t.hall = s.hall ∧ t.trace = s.trace) ∧
    (∀ (seg : Fin 9) (k : Nat), ∃ t, exec (.tapIjtag seg k) s = .next t ∧ t.tap = { s.tap with ir := 0x20, dr := (s.instrument seg k).1 } ∧
      t = { s with tap := t.tap, freeCtr := t.freeCtr } ∧ (seg.val < 8 → k = 0 → t.tap.dr = s.get pgPRS (F.PRS_SENSOR_TEMP.at seg))))
end

