-- ==== Sys2Proof/Laws/State.lean ====
section
/-! SUPPORT. One lemma per field for every named update of State: which field it changes, and that it leaves the others. -/

namespace Sys2Proof.Machine

variable (s : State)

/-! ### State.wr -/

@[simp] theorem State.wr_pending (p : Page) (off : Nat) (w : Word) : (s.wr p off w).pending = s.pending := rfl
@[simp] theorem State.wr_regs (p : Page) (off : Nat) (w : Word) : (s.wr p off w).regs = put s.regs (p.base + off) w := rfl
@[simp] theorem State.wr_shadow (p : Page) (off : Nat) (w : Word) : (s.wr p off w).shadow = s.shadow := rfl
@[simp] theorem State.wr_portRegs (p : Page) (off : Nat) (w : Word) : (s.wr p off w).portRegs = s.portRegs := rfl
@[simp] theorem State.wr_straps (p : Page) (off : Nat) (w : Word) : (s.wr p off w).straps = s.straps := rfl
@[simp] theorem State.wr_outs (p : Page) (off : Nat) (w : Word) : (s.wr p off w).outs = s.outs := rfl
@[simp] theorem State.wr_fuses (p : Page) (off : Nat) (w : Word) : (s.wr p off w).fuses = s.fuses := rfl
@[simp] theorem State.wr_boot (p : Page) (off : Nat) (w : Word) : (s.wr p off w).boot = s.boot := rfl
@[simp] theorem State.wr_time (p : Page) (off : Nat) (w : Word) : (s.wr p off w).time = s.time := rfl
@[simp] theorem State.wr_elog (p : Page) (off : Nat) (w : Word) : (s.wr p off w).elog = s.elog := rfl
@[simp] theorem State.wr_faultBufs (p : Page) (off : Nat) (w : Word) : (s.wr p off w).faultBufs = s.faultBufs := rfl
@[simp] theorem State.wr_trace (p : Page) (off : Nat) (w : Word) : (s.wr p off w).trace = s.trace := rfl
@[simp] theorem State.wr_stw (p : Page) (off : Nat) (w : Word) : (s.wr p off w).stw = s.stw := rfl
@[simp] theorem State.wr_tap (p : Page) (off : Nat) (w : Word) : (s.wr p off w).tap = s.tap := rfl
@[simp] theorem State.wr_sram (p : Page) (off : Nat) (w : Word) : (s.wr p off w).sram = s.sram := rfl
@[simp] theorem State.wr_spares (p : Page) (off : Nat) (w : Word) : (s.wr p off w).spares = s.spares := rfl
@[simp] theorem State.wr_ceWindow (p : Page) (off : Nat) (w : Word) : (s.wr p off w).ceWindow = s.ceWindow := rfl
@[simp] theorem State.wr_bankRsp (p : Page) (off : Nat) (w : Word) : (s.wr p off w).bankRsp = s.bankRsp := rfl
@[simp] theorem State.wr_tinkers (p : Page) (off : Nat) (w : Word) : (s.wr p off w).tinkers = s.tinkers := rfl
@[simp] theorem State.wr_hbm (p : Page) (off : Nat) (w : Word) : (s.wr p off w).hbm = s.hbm := rfl
@[simp] theorem State.wr_hbmBase (p : Page) (off : Nat) (w : Word) : (s.wr p off w).hbmBase = s.hbmBase := rfl
@[simp] theorem State.wr_injected (p : Page) (off : Nat) (w : Word) : (s.wr p off w).injected = s.injected := rfl
@[simp] theorem State.wr_hbmEpoch (p : Page) (off : Nat) (w : Word) : (s.wr p off w).hbmEpoch = s.hbmEpoch := rfl
@[simp] theorem State.wr_freeCtr (p : Page) (off : Nat) (w : Word) : (s.wr p off w).freeCtr = s.freeCtr := rfl
@[simp] theorem State.wr_links (p : Page) (off : Nat) (w : Word) : (s.wr p off w).links = s.links := rfl
@[simp] theorem State.wr_xlt (p : Page) (off : Nat) (w : Word) : (s.wr p off w).xlt = s.xlt := rfl
@[simp] theorem State.wr_inval (p : Page) (off : Nat) (w : Word) : (s.wr p off w).inval = s.inval := rfl
@[simp] theorem State.wr_paths (p : Page) (off : Nat) (w : Word) : (s.wr p off w).paths = s.paths := rfl
@[simp] theorem State.wr_hcs (p : Page) (off : Nat) (w : Word) : (s.wr p off w).hcs = s.hcs := rfl
@[simp] theorem State.wr_arbs (p : Page) (off : Nat) (w : Word) : (s.wr p off w).arbs = s.arbs := rfl
@[simp] theorem State.wr_lfsrs (p : Page) (off : Nat) (w : Word) : (s.wr p off w).lfsrs = s.lfsrs := rfl
@[simp] theorem State.wr_grants (p : Page) (off : Nat) (w : Word) : (s.wr p off w).grants = s.grants := rfl
@[simp] theorem State.wr_emerged (p : Page) (off : Nat) (w : Word) : (s.wr p off w).emerged = s.emerged := rfl
@[simp] theorem State.wr_seeds (p : Page) (off : Nat) (w : Word) : (s.wr p off w).seeds = s.seeds := rfl
@[simp] theorem State.wr_twin (p : Page) (off : Nat) (w : Word) : (s.wr p off w).twin = s.twin := rfl
@[simp] theorem State.wr_hall (p : Page) (off : Nat) (w : Word) : (s.wr p off w).hall = s.hall := rfl
@[simp] theorem State.wr_queues (p : Page) (off : Nat) (w : Word) : (s.wr p off w).queues = s.queues := rfl
@[simp] theorem State.wr_rings (p : Page) (off : Nat) (w : Word) : (s.wr p off w).rings = s.rings := rfl
@[simp] theorem State.wr_criers (p : Page) (off : Nat) (w : Word) : (s.wr p off w).criers = s.criers := rfl
@[simp] theorem State.wr_event (p : Page) (off : Nat) (w : Word) : (s.wr p off w).event = s.event := rfl
@[simp] theorem State.wr_stair (p : Page) (off : Nat) (w : Word) : (s.wr p off w).stair = s.stair := rfl
@[simp] theorem State.wr_mixers (p : Page) (off : Nat) (w : Word) : (s.wr p off w).mixers = s.mixers := rfl
@[simp] theorem State.wr_purser (p : Page) (off : Nat) (w : Word) : (s.wr p off w).purser = s.purser := rfl
@[simp] theorem State.wr_clearing (p : Page) (off : Nat) (w : Word) : (s.wr p off w).clearing = s.clearing := rfl
@[simp] theorem State.wr_heldRegs (p : Page) (off : Nat) (w : Word) : (s.wr p off w).heldRegs = s.heldRegs := rfl
@[simp] theorem State.wr_readRsp (p : Page) (off : Nat) (w : Word) : (s.wr p off w).readRsp = s.readRsp := rfl

/-! ### State.wrSh -/

@[simp] theorem State.wrSh_pending (p : Page) (off : Nat) (w : Word) : (s.wrSh p off w).pending = s.pending := rfl
@[simp] theorem State.wrSh_regs (p : Page) (off : Nat) (w : Word) : (s.wrSh p off w).regs = s.regs := rfl
@[simp] theorem State.wrSh_shadow (p : Page) (off : Nat) (w : Word) : (s.wrSh p off w).shadow = put s.shadow (p.base + off) w := rfl
@[simp] theorem State.wrSh_portRegs (p : Page) (off : Nat) (w : Word) : (s.wrSh p off w).portRegs = s.portRegs := rfl
@[simp] theorem State.wrSh_straps (p : Page) (off : Nat) (w : Word) : (s.wrSh p off w).straps = s.straps := rfl
@[simp] theorem State.wrSh_outs (p : Page) (off : Nat) (w : Word) : (s.wrSh p off w).outs = s.outs := rfl
@[simp] theorem State.wrSh_fuses (p : Page) (off : Nat) (w : Word) : (s.wrSh p off w).fuses = s.fuses := rfl
@[simp] theorem State.wrSh_boot (p : Page) (off : Nat) (w : Word) : (s.wrSh p off w).boot = s.boot := rfl
@[simp] theorem State.wrSh_time (p : Page) (off : Nat) (w : Word) : (s.wrSh p off w).time = s.time := rfl
@[simp] theorem State.wrSh_elog (p : Page) (off : Nat) (w : Word) : (s.wrSh p off w).elog = s.elog := rfl
@[simp] theorem State.wrSh_faultBufs (p : Page) (off : Nat) (w : Word) : (s.wrSh p off w).faultBufs = s.faultBufs := rfl
@[simp] theorem State.wrSh_trace (p : Page) (off : Nat) (w : Word) : (s.wrSh p off w).trace = s.trace := rfl
@[simp] theorem State.wrSh_stw (p : Page) (off : Nat) (w : Word) : (s.wrSh p off w).stw = s.stw := rfl
@[simp] theorem State.wrSh_tap (p : Page) (off : Nat) (w : Word) : (s.wrSh p off w).tap = s.tap := rfl
@[simp] theorem State.wrSh_sram (p : Page) (off : Nat) (w : Word) : (s.wrSh p off w).sram = s.sram := rfl
@[simp] theorem State.wrSh_spares (p : Page) (off : Nat) (w : Word) : (s.wrSh p off w).spares = s.spares := rfl
@[simp] theorem State.wrSh_ceWindow (p : Page) (off : Nat) (w : Word) : (s.wrSh p off w).ceWindow = s.ceWindow := rfl
@[simp] theorem State.wrSh_bankRsp (p : Page) (off : Nat) (w : Word) : (s.wrSh p off w).bankRsp = s.bankRsp := rfl
@[simp] theorem State.wrSh_tinkers (p : Page) (off : Nat) (w : Word) : (s.wrSh p off w).tinkers = s.tinkers := rfl
@[simp] theorem State.wrSh_hbm (p : Page) (off : Nat) (w : Word) : (s.wrSh p off w).hbm = s.hbm := rfl
@[simp] theorem State.wrSh_hbmBase (p : Page) (off : Nat) (w : Word) : (s.wrSh p off w).hbmBase = s.hbmBase := rfl
@[simp] theorem State.wrSh_injected (p : Page) (off : Nat) (w : Word) : (s.wrSh p off w).injected = s.injected := rfl
@[simp] theorem State.wrSh_hbmEpoch (p : Page) (off : Nat) (w : Word) : (s.wrSh p off w).hbmEpoch = s.hbmEpoch := rfl
@[simp] theorem State.wrSh_freeCtr (p : Page) (off : Nat) (w : Word) : (s.wrSh p off w).freeCtr = s.freeCtr := rfl
@[simp] theorem State.wrSh_links (p : Page) (off : Nat) (w : Word) : (s.wrSh p off w).links = s.links := rfl
@[simp] theorem State.wrSh_xlt (p : Page) (off : Nat) (w : Word) : (s.wrSh p off w).xlt = s.xlt := rfl
@[simp] theorem State.wrSh_inval (p : Page) (off : Nat) (w : Word) : (s.wrSh p off w).inval = s.inval := rfl
@[simp] theorem State.wrSh_paths (p : Page) (off : Nat) (w : Word) : (s.wrSh p off w).paths = s.paths := rfl
@[simp] theorem State.wrSh_hcs (p : Page) (off : Nat) (w : Word) : (s.wrSh p off w).hcs = s.hcs := rfl
@[simp] theorem State.wrSh_arbs (p : Page) (off : Nat) (w : Word) : (s.wrSh p off w).arbs = s.arbs := rfl
@[simp] theorem State.wrSh_lfsrs (p : Page) (off : Nat) (w : Word) : (s.wrSh p off w).lfsrs = s.lfsrs := rfl
@[simp] theorem State.wrSh_grants (p : Page) (off : Nat) (w : Word) : (s.wrSh p off w).grants = s.grants := rfl
@[simp] theorem State.wrSh_emerged (p : Page) (off : Nat) (w : Word) : (s.wrSh p off w).emerged = s.emerged := rfl
@[simp] theorem State.wrSh_seeds (p : Page) (off : Nat) (w : Word) : (s.wrSh p off w).seeds = s.seeds := rfl
@[simp] theorem State.wrSh_twin (p : Page) (off : Nat) (w : Word) : (s.wrSh p off w).twin = s.twin := rfl
@[simp] theorem State.wrSh_hall (p : Page) (off : Nat) (w : Word) : (s.wrSh p off w).hall = s.hall := rfl
@[simp] theorem State.wrSh_queues (p : Page) (off : Nat) (w : Word) : (s.wrSh p off w).queues = s.queues := rfl
@[simp] theorem State.wrSh_rings (p : Page) (off : Nat) (w : Word) : (s.wrSh p off w).rings = s.rings := rfl
@[simp] theorem State.wrSh_criers (p : Page) (off : Nat) (w : Word) : (s.wrSh p off w).criers = s.criers := rfl
@[simp] theorem State.wrSh_event (p : Page) (off : Nat) (w : Word) : (s.wrSh p off w).event = s.event := rfl
@[simp] theorem State.wrSh_stair (p : Page) (off : Nat) (w : Word) : (s.wrSh p off w).stair = s.stair := rfl
@[simp] theorem State.wrSh_mixers (p : Page) (off : Nat) (w : Word) : (s.wrSh p off w).mixers = s.mixers := rfl
@[simp] theorem State.wrSh_purser (p : Page) (off : Nat) (w : Word) : (s.wrSh p off w).purser = s.purser := rfl
@[simp] theorem State.wrSh_clearing (p : Page) (off : Nat) (w : Word) : (s.wrSh p off w).clearing = s.clearing := rfl
@[simp] theorem State.wrSh_heldRegs (p : Page) (off : Nat) (w : Word) : (s.wrSh p off w).heldRegs = s.heldRegs := rfl
@[simp] theorem State.wrSh_readRsp (p : Page) (off : Nat) (w : Word) : (s.wrSh p off w).readRsp = s.readRsp := rfl

/-! ### State.set -/

@[simp] theorem State.set_pending (p : Page) (f : Fld) (v : Nat) : (s.set p f v).pending = s.pending := rfl
@[simp] theorem State.set_regs (p : Page) (f : Fld) (v : Nat) : (s.set p f v).regs = put s.regs (p.base + f.off) (wput (s.rd p f.off) f.lo f.w v) := rfl
@[simp] theorem State.set_shadow (p : Page) (f : Fld) (v : Nat) : (s.set p f v).shadow = s.shadow := rfl
@[simp] theorem State.set_portRegs (p : Page) (f : Fld) (v : Nat) : (s.set p f v).portRegs = s.portRegs := rfl
@[simp] theorem State.set_straps (p : Page) (f : Fld) (v : Nat) : (s.set p f v).straps = s.straps := rfl
@[simp] theorem State.set_outs (p : Page) (f : Fld) (v : Nat) : (s.set p f v).outs = s.outs := rfl
@[simp] theorem State.set_fuses (p : Page) (f : Fld) (v : Nat) : (s.set p f v).fuses = s.fuses := rfl
@[simp] theorem State.set_boot (p : Page) (f : Fld) (v : Nat) : (s.set p f v).boot = s.boot := rfl
@[simp] theorem State.set_time (p : Page) (f : Fld) (v : Nat) : (s.set p f v).time = s.time := rfl
@[simp] theorem State.set_elog (p : Page) (f : Fld) (v : Nat) : (s.set p f v).elog = s.elog := rfl
@[simp] theorem State.set_faultBufs (p : Page) (f : Fld) (v : Nat) : (s.set p f v).faultBufs = s.faultBufs := rfl
@[simp] theorem State.set_trace (p : Page) (f : Fld) (v : Nat) : (s.set p f v).trace = s.trace := rfl
@[simp] theorem State.set_stw (p : Page) (f : Fld) (v : Nat) : (s.set p f v).stw = s.stw := rfl
@[simp] theorem State.set_tap (p : Page) (f : Fld) (v : Nat) : (s.set p f v).tap = s.tap := rfl
@[simp] theorem State.set_sram (p : Page) (f : Fld) (v : Nat) : (s.set p f v).sram = s.sram := rfl
@[simp] theorem State.set_spares (p : Page) (f : Fld) (v : Nat) : (s.set p f v).spares = s.spares := rfl
@[simp] theorem State.set_ceWindow (p : Page) (f : Fld) (v : Nat) : (s.set p f v).ceWindow = s.ceWindow := rfl
@[simp] theorem State.set_bankRsp (p : Page) (f : Fld) (v : Nat) : (s.set p f v).bankRsp = s.bankRsp := rfl
@[simp] theorem State.set_tinkers (p : Page) (f : Fld) (v : Nat) : (s.set p f v).tinkers = s.tinkers := rfl
@[simp] theorem State.set_hbm (p : Page) (f : Fld) (v : Nat) : (s.set p f v).hbm = s.hbm := rfl
@[simp] theorem State.set_hbmBase (p : Page) (f : Fld) (v : Nat) : (s.set p f v).hbmBase = s.hbmBase := rfl
@[simp] theorem State.set_injected (p : Page) (f : Fld) (v : Nat) : (s.set p f v).injected = s.injected := rfl
@[simp] theorem State.set_hbmEpoch (p : Page) (f : Fld) (v : Nat) : (s.set p f v).hbmEpoch = s.hbmEpoch := rfl
@[simp] theorem State.set_freeCtr (p : Page) (f : Fld) (v : Nat) : (s.set p f v).freeCtr = s.freeCtr := rfl
@[simp] theorem State.set_links (p : Page) (f : Fld) (v : Nat) : (s.set p f v).links = s.links := rfl
@[simp] theorem State.set_xlt (p : Page) (f : Fld) (v : Nat) : (s.set p f v).xlt = s.xlt := rfl
@[simp] theorem State.set_inval (p : Page) (f : Fld) (v : Nat) : (s.set p f v).inval = s.inval := rfl
@[simp] theorem State.set_paths (p : Page) (f : Fld) (v : Nat) : (s.set p f v).paths = s.paths := rfl
@[simp] theorem State.set_hcs (p : Page) (f : Fld) (v : Nat) : (s.set p f v).hcs = s.hcs := rfl
@[simp] theorem State.set_arbs (p : Page) (f : Fld) (v : Nat) : (s.set p f v).arbs = s.arbs := rfl
@[simp] theorem State.set_lfsrs (p : Page) (f : Fld) (v : Nat) : (s.set p f v).lfsrs = s.lfsrs := rfl
@[simp] theorem State.set_grants (p : Page) (f : Fld) (v : Nat) : (s.set p f v).grants = s.grants := rfl
@[simp] theorem State.set_emerged (p : Page) (f : Fld) (v : Nat) : (s.set p f v).emerged = s.emerged := rfl
@[simp] theorem State.set_seeds (p : Page) (f : Fld) (v : Nat) : (s.set p f v).seeds = s.seeds := rfl
@[simp] theorem State.set_twin (p : Page) (f : Fld) (v : Nat) : (s.set p f v).twin = s.twin := rfl
@[simp] theorem State.set_hall (p : Page) (f : Fld) (v : Nat) : (s.set p f v).hall = s.hall := rfl
@[simp] theorem State.set_queues (p : Page) (f : Fld) (v : Nat) : (s.set p f v).queues = s.queues := rfl
@[simp] theorem State.set_rings (p : Page) (f : Fld) (v : Nat) : (s.set p f v).rings = s.rings := rfl
@[simp] theorem State.set_criers (p : Page) (f : Fld) (v : Nat) : (s.set p f v).criers = s.criers := rfl
@[simp] theorem State.set_event (p : Page) (f : Fld) (v : Nat) : (s.set p f v).event = s.event := rfl
@[simp] theorem State.set_stair (p : Page) (f : Fld) (v : Nat) : (s.set p f v).stair = s.stair := rfl
@[simp] theorem State.set_mixers (p : Page) (f : Fld) (v : Nat) : (s.set p f v).mixers = s.mixers := rfl
@[simp] theorem State.set_purser (p : Page) (f : Fld) (v : Nat) : (s.set p f v).purser = s.purser := rfl
@[simp] theorem State.set_clearing (p : Page) (f : Fld) (v : Nat) : (s.set p f v).clearing = s.clearing := rfl
@[simp] theorem State.set_heldRegs (p : Page) (f : Fld) (v : Nat) : (s.set p f v).heldRegs = s.heldRegs := rfl
@[simp] theorem State.set_readRsp (p : Page) (f : Fld) (v : Nat) : (s.set p f v).readRsp = s.readRsp := rfl

/-! ### State.portWr -/

@[simp] theorem State.portWr_pending (port : Port) (p : Page) (off : Nat) (w : Word) : (s.portWr port p off w).pending = s.pending := rfl
@[simp] theorem State.portWr_regs (port : Port) (p : Page) (off : Nat) (w : Word) : (s.portWr port p off w).regs = s.regs := rfl
@[simp] theorem State.portWr_shadow (port : Port) (p : Page) (off : Nat) (w : Word) : (s.portWr port p off w).shadow = s.shadow := rfl
@[simp] theorem State.portWr_portRegs (port : Port) (p : Page) (off : Nat) (w : Word) : (s.portWr port p off w).portRegs = put s.portRegs (port.code * 2 ^ 48 + (p.base + off)) w := rfl
@[simp] theorem State.portWr_straps (port : Port) (p : Page) (off : Nat) (w : Word) : (s.portWr port p off w).straps = s.straps := rfl
@[simp] theorem State.portWr_outs (port : Port) (p : Page) (off : Nat) (w : Word) : (s.portWr port p off w).outs = s.outs := rfl
@[simp] theorem State.portWr_fuses (port : Port) (p : Page) (off : Nat) (w : Word) : (s.portWr port p off w).fuses = s.fuses := rfl
@[simp] theorem State.portWr_boot (port : Port) (p : Page) (off : Nat) (w : Word) : (s.portWr port p off w).boot = s.boot := rfl
@[simp] theorem State.portWr_time (port : Port) (p : Page) (off : Nat) (w : Word) : (s.portWr port p off w).time = s.time := rfl
@[simp] theorem State.portWr_elog (port : Port) (p : Page) (off : Nat) (w : Word) : (s.portWr port p off w).elog = s.elog := rfl
@[simp] theorem State.portWr_faultBufs (port : Port) (p : Page) (off : Nat) (w : Word) : (s.portWr port p off w).faultBufs = s.faultBufs := rfl
@[simp] theorem State.portWr_trace (port : Port) (p : Page) (off : Nat) (w : Word) : (s.portWr port p off w).trace = s.trace := rfl
@[simp] theorem State.portWr_stw (port : Port) (p : Page) (off : Nat) (w : Word) : (s.portWr port p off w).stw = s.stw := rfl
@[simp] theorem State.portWr_tap (port : Port) (p : Page) (off : Nat) (w : Word) : (s.portWr port p off w).tap = s.tap := rfl
@[simp] theorem State.portWr_sram (port : Port) (p : Page) (off : Nat) (w : Word) : (s.portWr port p off w).sram = s.sram := rfl
@[simp] theorem State.portWr_spares (port : Port) (p : Page) (off : Nat) (w : Word) : (s.portWr port p off w).spares = s.spares := rfl
@[simp] theorem State.portWr_ceWindow (port : Port) (p : Page) (off : Nat) (w : Word) : (s.portWr port p off w).ceWindow = s.ceWindow := rfl
@[simp] theorem State.portWr_bankRsp (port : Port) (p : Page) (off : Nat) (w : Word) : (s.portWr port p off w).bankRsp = s.bankRsp := rfl
@[simp] theorem State.portWr_tinkers (port : Port) (p : Page) (off : Nat) (w : Word) : (s.portWr port p off w).tinkers = s.tinkers := rfl
@[simp] theorem State.portWr_hbm (port : Port) (p : Page) (off : Nat) (w : Word) : (s.portWr port p off w).hbm = s.hbm := rfl
@[simp] theorem State.portWr_hbmBase (port : Port) (p : Page) (off : Nat) (w : Word) : (s.portWr port p off w).hbmBase = s.hbmBase := rfl
@[simp] theorem State.portWr_injected (port : Port) (p : Page) (off : Nat) (w : Word) : (s.portWr port p off w).injected = s.injected := rfl
@[simp] theorem State.portWr_hbmEpoch (port : Port) (p : Page) (off : Nat) (w : Word) : (s.portWr port p off w).hbmEpoch = s.hbmEpoch := rfl
@[simp] theorem State.portWr_freeCtr (port : Port) (p : Page) (off : Nat) (w : Word) : (s.portWr port p off w).freeCtr = s.freeCtr := rfl
@[simp] theorem State.portWr_links (port : Port) (p : Page) (off : Nat) (w : Word) : (s.portWr port p off w).links = s.links := rfl
@[simp] theorem State.portWr_xlt (port : Port) (p : Page) (off : Nat) (w : Word) : (s.portWr port p off w).xlt = s.xlt := rfl
@[simp] theorem State.portWr_inval (port : Port) (p : Page) (off : Nat) (w : Word) : (s.portWr port p off w).inval = s.inval := rfl
@[simp] theorem State.portWr_paths (port : Port) (p : Page) (off : Nat) (w : Word) : (s.portWr port p off w).paths = s.paths := rfl
@[simp] theorem State.portWr_hcs (port : Port) (p : Page) (off : Nat) (w : Word) : (s.portWr port p off w).hcs = s.hcs := rfl
@[simp] theorem State.portWr_arbs (port : Port) (p : Page) (off : Nat) (w : Word) : (s.portWr port p off w).arbs = s.arbs := rfl
@[simp] theorem State.portWr_lfsrs (port : Port) (p : Page) (off : Nat) (w : Word) : (s.portWr port p off w).lfsrs = s.lfsrs := rfl
@[simp] theorem State.portWr_grants (port : Port) (p : Page) (off : Nat) (w : Word) : (s.portWr port p off w).grants = s.grants := rfl
@[simp] theorem State.portWr_emerged (port : Port) (p : Page) (off : Nat) (w : Word) : (s.portWr port p off w).emerged = s.emerged := rfl
@[simp] theorem State.portWr_seeds (port : Port) (p : Page) (off : Nat) (w : Word) : (s.portWr port p off w).seeds = s.seeds := rfl
@[simp] theorem State.portWr_twin (port : Port) (p : Page) (off : Nat) (w : Word) : (s.portWr port p off w).twin = s.twin := rfl
@[simp] theorem State.portWr_hall (port : Port) (p : Page) (off : Nat) (w : Word) : (s.portWr port p off w).hall = s.hall := rfl
@[simp] theorem State.portWr_queues (port : Port) (p : Page) (off : Nat) (w : Word) : (s.portWr port p off w).queues = s.queues := rfl
@[simp] theorem State.portWr_rings (port : Port) (p : Page) (off : Nat) (w : Word) : (s.portWr port p off w).rings = s.rings := rfl
@[simp] theorem State.portWr_criers (port : Port) (p : Page) (off : Nat) (w : Word) : (s.portWr port p off w).criers = s.criers := rfl
@[simp] theorem State.portWr_event (port : Port) (p : Page) (off : Nat) (w : Word) : (s.portWr port p off w).event = s.event := rfl
@[simp] theorem State.portWr_stair (port : Port) (p : Page) (off : Nat) (w : Word) : (s.portWr port p off w).stair = s.stair := rfl
@[simp] theorem State.portWr_mixers (port : Port) (p : Page) (off : Nat) (w : Word) : (s.portWr port p off w).mixers = s.mixers := rfl
@[simp] theorem State.portWr_purser (port : Port) (p : Page) (off : Nat) (w : Word) : (s.portWr port p off w).purser = s.purser := rfl
@[simp] theorem State.portWr_clearing (port : Port) (p : Page) (off : Nat) (w : Word) : (s.portWr port p off w).clearing = s.clearing := rfl
@[simp] theorem State.portWr_heldRegs (port : Port) (p : Page) (off : Nat) (w : Word) : (s.portWr port p off w).heldRegs = s.heldRegs := rfl
@[simp] theorem State.portWr_readRsp (port : Port) (p : Page) (off : Nat) (w : Word) : (s.portWr port p off w).readRsp = s.readRsp := rfl

/-! ### State.setSpare -/

@[simp] theorem State.setSpare_pending (b k : Nat) (e : SpareEnt) : (s.setSpare b k e).pending = s.pending := rfl
@[simp] theorem State.setSpare_regs (b k : Nat) (e : SpareEnt) : (s.setSpare b k e).regs = s.regs := rfl
@[simp] theorem State.setSpare_shadow (b k : Nat) (e : SpareEnt) : (s.setSpare b k e).shadow = s.shadow := rfl
@[simp] theorem State.setSpare_portRegs (b k : Nat) (e : SpareEnt) : (s.setSpare b k e).portRegs = s.portRegs := rfl
@[simp] theorem State.setSpare_straps (b k : Nat) (e : SpareEnt) : (s.setSpare b k e).straps = s.straps := rfl
@[simp] theorem State.setSpare_outs (b k : Nat) (e : SpareEnt) : (s.setSpare b k e).outs = s.outs := rfl
@[simp] theorem State.setSpare_fuses (b k : Nat) (e : SpareEnt) : (s.setSpare b k e).fuses = s.fuses := rfl
@[simp] theorem State.setSpare_boot (b k : Nat) (e : SpareEnt) : (s.setSpare b k e).boot = s.boot := rfl
@[simp] theorem State.setSpare_time (b k : Nat) (e : SpareEnt) : (s.setSpare b k e).time = s.time := rfl
@[simp] theorem State.setSpare_elog (b k : Nat) (e : SpareEnt) : (s.setSpare b k e).elog = s.elog := rfl
@[simp] theorem State.setSpare_faultBufs (b k : Nat) (e : SpareEnt) : (s.setSpare b k e).faultBufs = s.faultBufs := rfl
@[simp] theorem State.setSpare_trace (b k : Nat) (e : SpareEnt) : (s.setSpare b k e).trace = s.trace := rfl
@[simp] theorem State.setSpare_stw (b k : Nat) (e : SpareEnt) : (s.setSpare b k e).stw = s.stw := rfl
@[simp] theorem State.setSpare_tap (b k : Nat) (e : SpareEnt) : (s.setSpare b k e).tap = s.tap := rfl
@[simp] theorem State.setSpare_sram (b k : Nat) (e : SpareEnt) : (s.setSpare b k e).sram = s.sram := rfl
@[simp] theorem State.setSpare_spares (b k : Nat) (e : SpareEnt) : (s.setSpare b k e).spares = put s.spares (b * 24 + k) e := rfl
@[simp] theorem State.setSpare_ceWindow (b k : Nat) (e : SpareEnt) : (s.setSpare b k e).ceWindow = s.ceWindow := rfl
@[simp] theorem State.setSpare_bankRsp (b k : Nat) (e : SpareEnt) : (s.setSpare b k e).bankRsp = s.bankRsp := rfl
@[simp] theorem State.setSpare_tinkers (b k : Nat) (e : SpareEnt) : (s.setSpare b k e).tinkers = s.tinkers := rfl
@[simp] theorem State.setSpare_hbm (b k : Nat) (e : SpareEnt) : (s.setSpare b k e).hbm = s.hbm := rfl
@[simp] theorem State.setSpare_hbmBase (b k : Nat) (e : SpareEnt) : (s.setSpare b k e).hbmBase = s.hbmBase := rfl
@[simp] theorem State.setSpare_injected (b k : Nat) (e : SpareEnt) : (s.setSpare b k e).injected = s.injected := rfl
@[simp] theorem State.setSpare_hbmEpoch (b k : Nat) (e : SpareEnt) : (s.setSpare b k e).hbmEpoch = s.hbmEpoch := rfl
@[simp] theorem State.setSpare_freeCtr (b k : Nat) (e : SpareEnt) : (s.setSpare b k e).freeCtr = s.freeCtr := rfl
@[simp] theorem State.setSpare_links (b k : Nat) (e : SpareEnt) : (s.setSpare b k e).links = s.links := rfl
@[simp] theorem State.setSpare_xlt (b k : Nat) (e : SpareEnt) : (s.setSpare b k e).xlt = s.xlt := rfl
@[simp] theorem State.setSpare_inval (b k : Nat) (e : SpareEnt) : (s.setSpare b k e).inval = s.inval := rfl
@[simp] theorem State.setSpare_paths (b k : Nat) (e : SpareEnt) : (s.setSpare b k e).paths = s.paths := rfl
@[simp] theorem State.setSpare_hcs (b k : Nat) (e : SpareEnt) : (s.setSpare b k e).hcs = s.hcs := rfl
@[simp] theorem State.setSpare_arbs (b k : Nat) (e : SpareEnt) : (s.setSpare b k e).arbs = s.arbs := rfl
@[simp] theorem State.setSpare_lfsrs (b k : Nat) (e : SpareEnt) : (s.setSpare b k e).lfsrs = s.lfsrs := rfl
@[simp] theorem State.setSpare_grants (b k : Nat) (e : SpareEnt) : (s.setSpare b k e).grants = s.grants := rfl
@[simp] theorem State.setSpare_emerged (b k : Nat) (e : SpareEnt) : (s.setSpare b k e).emerged = s.emerged := rfl
@[simp] theorem State.setSpare_seeds (b k : Nat) (e : SpareEnt) : (s.setSpare b k e).seeds = s.seeds := rfl
@[simp] theorem State.setSpare_twin (b k : Nat) (e : SpareEnt) : (s.setSpare b k e).twin = s.twin := rfl
@[simp] theorem State.setSpare_hall (b k : Nat) (e : SpareEnt) : (s.setSpare b k e).hall = s.hall := rfl
@[simp] theorem State.setSpare_queues (b k : Nat) (e : SpareEnt) : (s.setSpare b k e).queues = s.queues := rfl
@[simp] theorem State.setSpare_rings (b k : Nat) (e : SpareEnt) : (s.setSpare b k e).rings = s.rings := rfl
@[simp] theorem State.setSpare_criers (b k : Nat) (e : SpareEnt) : (s.setSpare b k e).criers = s.criers := rfl
@[simp] theorem State.setSpare_event (b k : Nat) (e : SpareEnt) : (s.setSpare b k e).event = s.event := rfl
@[simp] theorem State.setSpare_stair (b k : Nat) (e : SpareEnt) : (s.setSpare b k e).stair = s.stair := rfl
@[simp] theorem State.setSpare_mixers (b k : Nat) (e : SpareEnt) : (s.setSpare b k e).mixers = s.mixers := rfl
@[simp] theorem State.setSpare_purser (b k : Nat) (e : SpareEnt) : (s.setSpare b k e).purser = s.purser := rfl
@[simp] theorem State.setSpare_clearing (b k : Nat) (e : SpareEnt) : (s.setSpare b k e).clearing = s.clearing := rfl
@[simp] theorem State.setSpare_heldRegs (b k : Nat) (e : SpareEnt) : (s.setSpare b k e).heldRegs = s.heldRegs := rfl
@[simp] theorem State.setSpare_readRsp (b k : Nat) (e : SpareEnt) : (s.setSpare b k e).readRsp = s.readRsp := rfl

/-! ### State.setTinker -/

@[simp] theorem State.setTinker_pending (g : Nat) (t : Tinker) : (s.setTinker g t).pending = s.pending := rfl
@[simp] theorem State.setTinker_regs (g : Nat) (t : Tinker) : (s.setTinker g t).regs = s.regs := rfl
@[simp] theorem State.setTinker_shadow (g : Nat) (t : Tinker) : (s.setTinker g t).shadow = s.shadow := rfl
@[simp] theorem State.setTinker_portRegs (g : Nat) (t : Tinker) : (s.setTinker g t).portRegs = s.portRegs := rfl
@[simp] theorem State.setTinker_straps (g : Nat) (t : Tinker) : (s.setTinker g t).straps = s.straps := rfl
@[simp] theorem State.setTinker_outs (g : Nat) (t : Tinker) : (s.setTinker g t).outs = s.outs := rfl
@[simp] theorem State.setTinker_fuses (g : Nat) (t : Tinker) : (s.setTinker g t).fuses = s.fuses := rfl
@[simp] theorem State.setTinker_boot (g : Nat) (t : Tinker) : (s.setTinker g t).boot = s.boot := rfl
@[simp] theorem State.setTinker_time (g : Nat) (t : Tinker) : (s.setTinker g t).time = s.time := rfl
@[simp] theorem State.setTinker_elog (g : Nat) (t : Tinker) : (s.setTinker g t).elog = s.elog := rfl
@[simp] theorem State.setTinker_faultBufs (g : Nat) (t : Tinker) : (s.setTinker g t).faultBufs = s.faultBufs := rfl
@[simp] theorem State.setTinker_trace (g : Nat) (t : Tinker) : (s.setTinker g t).trace = s.trace := rfl
@[simp] theorem State.setTinker_stw (g : Nat) (t : Tinker) : (s.setTinker g t).stw = s.stw := rfl
@[simp] theorem State.setTinker_tap (g : Nat) (t : Tinker) : (s.setTinker g t).tap = s.tap := rfl
@[simp] theorem State.setTinker_sram (g : Nat) (t : Tinker) : (s.setTinker g t).sram = s.sram := rfl
@[simp] theorem State.setTinker_spares (g : Nat) (t : Tinker) : (s.setTinker g t).spares = s.spares := rfl
@[simp] theorem State.setTinker_ceWindow (g : Nat) (t : Tinker) : (s.setTinker g t).ceWindow = s.ceWindow := rfl
@[simp] theorem State.setTinker_bankRsp (g : Nat) (t : Tinker) : (s.setTinker g t).bankRsp = s.bankRsp := rfl
@[simp] theorem State.setTinker_tinkers (g : Nat) (t : Tinker) : (s.setTinker g t).tinkers = put s.tinkers g t := rfl
@[simp] theorem State.setTinker_hbm (g : Nat) (t : Tinker) : (s.setTinker g t).hbm = s.hbm := rfl
@[simp] theorem State.setTinker_hbmBase (g : Nat) (t : Tinker) : (s.setTinker g t).hbmBase = s.hbmBase := rfl
@[simp] theorem State.setTinker_injected (g : Nat) (t : Tinker) : (s.setTinker g t).injected = s.injected := rfl
@[simp] theorem State.setTinker_hbmEpoch (g : Nat) (t : Tinker) : (s.setTinker g t).hbmEpoch = s.hbmEpoch := rfl
@[simp] theorem State.setTinker_freeCtr (g : Nat) (t : Tinker) : (s.setTinker g t).freeCtr = s.freeCtr := rfl
@[simp] theorem State.setTinker_links (g : Nat) (t : Tinker) : (s.setTinker g t).links = s.links := rfl
@[simp] theorem State.setTinker_xlt (g : Nat) (t : Tinker) : (s.setTinker g t).xlt = s.xlt := rfl
@[simp] theorem State.setTinker_inval (g : Nat) (t : Tinker) : (s.setTinker g t).inval = s.inval := rfl
@[simp] theorem State.setTinker_paths (g : Nat) (t : Tinker) : (s.setTinker g t).paths = s.paths := rfl
@[simp] theorem State.setTinker_hcs (g : Nat) (t : Tinker) : (s.setTinker g t).hcs = s.hcs := rfl
@[simp] theorem State.setTinker_arbs (g : Nat) (t : Tinker) : (s.setTinker g t).arbs = s.arbs := rfl
@[simp] theorem State.setTinker_lfsrs (g : Nat) (t : Tinker) : (s.setTinker g t).lfsrs = s.lfsrs := rfl
@[simp] theorem State.setTinker_grants (g : Nat) (t : Tinker) : (s.setTinker g t).grants = s.grants := rfl
@[simp] theorem State.setTinker_emerged (g : Nat) (t : Tinker) : (s.setTinker g t).emerged = s.emerged := rfl
@[simp] theorem State.setTinker_seeds (g : Nat) (t : Tinker) : (s.setTinker g t).seeds = s.seeds := rfl
@[simp] theorem State.setTinker_twin (g : Nat) (t : Tinker) : (s.setTinker g t).twin = s.twin := rfl
@[simp] theorem State.setTinker_hall (g : Nat) (t : Tinker) : (s.setTinker g t).hall = s.hall := rfl
@[simp] theorem State.setTinker_queues (g : Nat) (t : Tinker) : (s.setTinker g t).queues = s.queues := rfl
@[simp] theorem State.setTinker_rings (g : Nat) (t : Tinker) : (s.setTinker g t).rings = s.rings := rfl
@[simp] theorem State.setTinker_criers (g : Nat) (t : Tinker) : (s.setTinker g t).criers = s.criers := rfl
@[simp] theorem State.setTinker_event (g : Nat) (t : Tinker) : (s.setTinker g t).event = s.event := rfl
@[simp] theorem State.setTinker_stair (g : Nat) (t : Tinker) : (s.setTinker g t).stair = s.stair := rfl
@[simp] theorem State.setTinker_mixers (g : Nat) (t : Tinker) : (s.setTinker g t).mixers = s.mixers := rfl
@[simp] theorem State.setTinker_purser (g : Nat) (t : Tinker) : (s.setTinker g t).purser = s.purser := rfl
@[simp] theorem State.setTinker_clearing (g : Nat) (t : Tinker) : (s.setTinker g t).clearing = s.clearing := rfl
@[simp] theorem State.setTinker_heldRegs (g : Nat) (t : Tinker) : (s.setTinker g t).heldRegs = s.heldRegs := rfl
@[simp] theorem State.setTinker_readRsp (g : Nat) (t : Tinker) : (s.setTinker g t).readRsp = s.readRsp := rfl

/-! ### State.bankAnswer -/

@[simp] theorem State.bankAnswer_pending (b st mask : Nat) (data : List Byte) : (s.bankAnswer b st mask data).pending = s.pending := rfl
@[simp] theorem State.bankAnswer_regs (b st mask : Nat) (data : List Byte) : (s.bankAnswer b st mask data).regs = s.regs := rfl
@[simp] theorem State.bankAnswer_shadow (b st mask : Nat) (data : List Byte) : (s.bankAnswer b st mask data).shadow = s.shadow := rfl
@[simp] theorem State.bankAnswer_portRegs (b st mask : Nat) (data : List Byte) : (s.bankAnswer b st mask data).portRegs = s.portRegs := rfl
@[simp] theorem State.bankAnswer_straps (b st mask : Nat) (data : List Byte) : (s.bankAnswer b st mask data).straps = s.straps := rfl
@[simp] theorem State.bankAnswer_outs (b st mask : Nat) (data : List Byte) : (s.bankAnswer b st mask data).outs = s.outs := rfl
@[simp] theorem State.bankAnswer_fuses (b st mask : Nat) (data : List Byte) : (s.bankAnswer b st mask data).fuses = s.fuses := rfl
@[simp] theorem State.bankAnswer_boot (b st mask : Nat) (data : List Byte) : (s.bankAnswer b st mask data).boot = s.boot := rfl
@[simp] theorem State.bankAnswer_time (b st mask : Nat) (data : List Byte) : (s.bankAnswer b st mask data).time = s.time := rfl
@[simp] theorem State.bankAnswer_elog (b st mask : Nat) (data : List Byte) : (s.bankAnswer b st mask data).elog = s.elog := rfl
@[simp] theorem State.bankAnswer_faultBufs (b st mask : Nat) (data : List Byte) : (s.bankAnswer b st mask data).faultBufs = s.faultBufs := rfl
@[simp] theorem State.bankAnswer_trace (b st mask : Nat) (data : List Byte) : (s.bankAnswer b st mask data).trace = s.trace := rfl
@[simp] theorem State.bankAnswer_stw (b st mask : Nat) (data : List Byte) : (s.bankAnswer b st mask data).stw = s.stw := rfl
@[simp] theorem State.bankAnswer_tap (b st mask : Nat) (data : List Byte) : (s.bankAnswer b st mask data).tap = s.tap := rfl
@[simp] theorem State.bankAnswer_sram (b st mask : Nat) (data : List Byte) : (s.bankAnswer b st mask data).sram = s.sram := rfl
@[simp] theorem State.bankAnswer_spares (b st mask : Nat) (data : List Byte) : (s.bankAnswer b st mask data).spares = s.spares := rfl
@[simp] theorem State.bankAnswer_ceWindow (b st mask : Nat) (data : List Byte) : (s.bankAnswer b st mask data).ceWindow = s.ceWindow := rfl
@[simp] theorem State.bankAnswer_bankRsp (b st mask : Nat) (data : List Byte) : (s.bankAnswer b st mask data).bankRsp = put s.bankRsp b ⟨st, mask, data⟩ := rfl
@[simp] theorem State.bankAnswer_tinkers (b st mask : Nat) (data : List Byte) : (s.bankAnswer b st mask data).tinkers = s.tinkers := rfl
@[simp] theorem State.bankAnswer_hbm (b st mask : Nat) (data : List Byte) : (s.bankAnswer b st mask data).hbm = s.hbm := rfl
@[simp] theorem State.bankAnswer_hbmBase (b st mask : Nat) (data : List Byte) : (s.bankAnswer b st mask data).hbmBase = s.hbmBase := rfl
@[simp] theorem State.bankAnswer_injected (b st mask : Nat) (data : List Byte) : (s.bankAnswer b st mask data).injected = s.injected := rfl
@[simp] theorem State.bankAnswer_hbmEpoch (b st mask : Nat) (data : List Byte) : (s.bankAnswer b st mask data).hbmEpoch = s.hbmEpoch := rfl
@[simp] theorem State.bankAnswer_freeCtr (b st mask : Nat) (data : List Byte) : (s.bankAnswer b st mask data).freeCtr = s.freeCtr := rfl
@[simp] theorem State.bankAnswer_links (b st mask : Nat) (data : List Byte) : (s.bankAnswer b st mask data).links = s.links := rfl
@[simp] theorem State.bankAnswer_xlt (b st mask : Nat) (data : List Byte) : (s.bankAnswer b st mask data).xlt = s.xlt := rfl
@[simp] theorem State.bankAnswer_inval (b st mask : Nat) (data : List Byte) : (s.bankAnswer b st mask data).inval = s.inval := rfl
@[simp] theorem State.bankAnswer_paths (b st mask : Nat) (data : List Byte) : (s.bankAnswer b st mask data).paths = s.paths := rfl
@[simp] theorem State.bankAnswer_hcs (b st mask : Nat) (data : List Byte) : (s.bankAnswer b st mask data).hcs = s.hcs := rfl
@[simp] theorem State.bankAnswer_arbs (b st mask : Nat) (data : List Byte) : (s.bankAnswer b st mask data).arbs = s.arbs := rfl
@[simp] theorem State.bankAnswer_lfsrs (b st mask : Nat) (data : List Byte) : (s.bankAnswer b st mask data).lfsrs = s.lfsrs := rfl
@[simp] theorem State.bankAnswer_grants (b st mask : Nat) (data : List Byte) : (s.bankAnswer b st mask data).grants = s.grants := rfl
@[simp] theorem State.bankAnswer_emerged (b st mask : Nat) (data : List Byte) : (s.bankAnswer b st mask data).emerged = s.emerged := rfl
@[simp] theorem State.bankAnswer_seeds (b st mask : Nat) (data : List Byte) : (s.bankAnswer b st mask data).seeds = s.seeds := rfl
@[simp] theorem State.bankAnswer_twin (b st mask : Nat) (data : List Byte) : (s.bankAnswer b st mask data).twin = s.twin := rfl
@[simp] theorem State.bankAnswer_hall (b st mask : Nat) (data : List Byte) : (s.bankAnswer b st mask data).hall = s.hall := rfl
@[simp] theorem State.bankAnswer_queues (b st mask : Nat) (data : List Byte) : (s.bankAnswer b st mask data).queues = s.queues := rfl
@[simp] theorem State.bankAnswer_rings (b st mask : Nat) (data : List Byte) : (s.bankAnswer b st mask data).rings = s.rings := rfl
@[simp] theorem State.bankAnswer_criers (b st mask : Nat) (data : List Byte) : (s.bankAnswer b st mask data).criers = s.criers := rfl
@[simp] theorem State.bankAnswer_event (b st mask : Nat) (data : List Byte) : (s.bankAnswer b st mask data).event = s.event := rfl
@[simp] theorem State.bankAnswer_stair (b st mask : Nat) (data : List Byte) : (s.bankAnswer b st mask data).stair = s.stair := rfl
@[simp] theorem State.bankAnswer_mixers (b st mask : Nat) (data : List Byte) : (s.bankAnswer b st mask data).mixers = s.mixers := rfl
@[simp] theorem State.bankAnswer_purser (b st mask : Nat) (data : List Byte) : (s.bankAnswer b st mask data).purser = s.purser := rfl
@[simp] theorem State.bankAnswer_clearing (b st mask : Nat) (data : List Byte) : (s.bankAnswer b st mask data).clearing = s.clearing := rfl
@[simp] theorem State.bankAnswer_heldRegs (b st mask : Nat) (data : List Byte) : (s.bankAnswer b st mask data).heldRegs = s.heldRegs := rfl
@[simp] theorem State.bankAnswer_readRsp (b st mask : Nat) (data : List Byte) : (s.bankAnswer b st mask data).readRsp = s.readRsp := rfl

/-! ### State.setHc -/

@[simp] theorem State.setHc_pending (g : Nat) (h : Hc) : (s.setHc g h).pending = s.pending := rfl
@[simp] theorem State.setHc_regs (g : Nat) (h : Hc) : (s.setHc g h).regs = s.regs := rfl
@[simp] theorem State.setHc_shadow (g : Nat) (h : Hc) : (s.setHc g h).shadow = s.shadow := rfl
@[simp] theorem State.setHc_portRegs (g : Nat) (h : Hc) : (s.setHc g h).portRegs = s.portRegs := rfl
@[simp] theorem State.setHc_straps (g : Nat) (h : Hc) : (s.setHc g h).straps = s.straps := rfl
@[simp] theorem State.setHc_outs (g : Nat) (h : Hc) : (s.setHc g h).outs = s.outs := rfl
@[simp] theorem State.setHc_fuses (g : Nat) (h : Hc) : (s.setHc g h).fuses = s.fuses := rfl
@[simp] theorem State.setHc_boot (g : Nat) (h : Hc) : (s.setHc g h).boot = s.boot := rfl
@[simp] theorem State.setHc_time (g : Nat) (h : Hc) : (s.setHc g h).time = s.time := rfl
@[simp] theorem State.setHc_elog (g : Nat) (h : Hc) : (s.setHc g h).elog = s.elog := rfl
@[simp] theorem State.setHc_faultBufs (g : Nat) (h : Hc) : (s.setHc g h).faultBufs = s.faultBufs := rfl
@[simp] theorem State.setHc_trace (g : Nat) (h : Hc) : (s.setHc g h).trace = s.trace := rfl
@[simp] theorem State.setHc_stw (g : Nat) (h : Hc) : (s.setHc g h).stw = s.stw := rfl
@[simp] theorem State.setHc_tap (g : Nat) (h : Hc) : (s.setHc g h).tap = s.tap := rfl
@[simp] theorem State.setHc_sram (g : Nat) (h : Hc) : (s.setHc g h).sram = s.sram := rfl
@[simp] theorem State.setHc_spares (g : Nat) (h : Hc) : (s.setHc g h).spares = s.spares := rfl
@[simp] theorem State.setHc_ceWindow (g : Nat) (h : Hc) : (s.setHc g h).ceWindow = s.ceWindow := rfl
@[simp] theorem State.setHc_bankRsp (g : Nat) (h : Hc) : (s.setHc g h).bankRsp = s.bankRsp := rfl
@[simp] theorem State.setHc_tinkers (g : Nat) (h : Hc) : (s.setHc g h).tinkers = s.tinkers := rfl
@[simp] theorem State.setHc_hbm (g : Nat) (h : Hc) : (s.setHc g h).hbm = s.hbm := rfl
@[simp] theorem State.setHc_hbmBase (g : Nat) (h : Hc) : (s.setHc g h).hbmBase = s.hbmBase := rfl
@[simp] theorem State.setHc_injected (g : Nat) (h : Hc) : (s.setHc g h).injected = s.injected := rfl
@[simp] theorem State.setHc_hbmEpoch (g : Nat) (h : Hc) : (s.setHc g h).hbmEpoch = s.hbmEpoch := rfl
@[simp] theorem State.setHc_freeCtr (g : Nat) (h : Hc) : (s.setHc g h).freeCtr = s.freeCtr := rfl
@[simp] theorem State.setHc_links (g : Nat) (h : Hc) : (s.setHc g h).links = s.links := rfl
@[simp] theorem State.setHc_xlt (g : Nat) (h : Hc) : (s.setHc g h).xlt = s.xlt := rfl
@[simp] theorem State.setHc_inval (g : Nat) (h : Hc) : (s.setHc g h).inval = s.inval := rfl
@[simp] theorem State.setHc_paths (g : Nat) (h : Hc) : (s.setHc g h).paths = s.paths := rfl
@[simp] theorem State.setHc_hcs (g : Nat) (h : Hc) : (s.setHc g h).hcs = put s.hcs g h := rfl
@[simp] theorem State.setHc_arbs (g : Nat) (h : Hc) : (s.setHc g h).arbs = s.arbs := rfl
@[simp] theorem State.setHc_lfsrs (g : Nat) (h : Hc) : (s.setHc g h).lfsrs = s.lfsrs := rfl
@[simp] theorem State.setHc_grants (g : Nat) (h : Hc) : (s.setHc g h).grants = s.grants := rfl
@[simp] theorem State.setHc_emerged (g : Nat) (h : Hc) : (s.setHc g h).emerged = s.emerged := rfl
@[simp] theorem State.setHc_seeds (g : Nat) (h : Hc) : (s.setHc g h).seeds = s.seeds := rfl
@[simp] theorem State.setHc_twin (g : Nat) (h : Hc) : (s.setHc g h).twin = s.twin := rfl
@[simp] theorem State.setHc_hall (g : Nat) (h : Hc) : (s.setHc g h).hall = s.hall := rfl
@[simp] theorem State.setHc_queues (g : Nat) (h : Hc) : (s.setHc g h).queues = s.queues := rfl
@[simp] theorem State.setHc_rings (g : Nat) (h : Hc) : (s.setHc g h).rings = s.rings := rfl
@[simp] theorem State.setHc_criers (g : Nat) (h : Hc) : (s.setHc g h).criers = s.criers := rfl
@[simp] theorem State.setHc_event (g : Nat) (h : Hc) : (s.setHc g h).event = s.event := rfl
@[simp] theorem State.setHc_stair (g : Nat) (h : Hc) : (s.setHc g h).stair = s.stair := rfl
@[simp] theorem State.setHc_mixers (g : Nat) (h : Hc) : (s.setHc g h).mixers = s.mixers := rfl
@[simp] theorem State.setHc_purser (g : Nat) (h : Hc) : (s.setHc g h).purser = s.purser := rfl
@[simp] theorem State.setHc_clearing (g : Nat) (h : Hc) : (s.setHc g h).clearing = s.clearing := rfl
@[simp] theorem State.setHc_heldRegs (g : Nat) (h : Hc) : (s.setHc g h).heldRegs = s.heldRegs := rfl
@[simp] theorem State.setHc_readRsp (g : Nat) (h : Hc) : (s.setHc g h).readRsp = s.readRsp := rfl

/-! ### State.modHc -/

@[simp] theorem State.modHc_pending (g : Nat) (f : Hc → Hc) : (s.modHc g f).pending = s.pending := rfl
@[simp] theorem State.modHc_regs (g : Nat) (f : Hc → Hc) : (s.modHc g f).regs = s.regs := rfl
@[simp] theorem State.modHc_shadow (g : Nat) (f : Hc → Hc) : (s.modHc g f).shadow = s.shadow := rfl
@[simp] theorem State.modHc_portRegs (g : Nat) (f : Hc → Hc) : (s.modHc g f).portRegs = s.portRegs := rfl
@[simp] theorem State.modHc_straps (g : Nat) (f : Hc → Hc) : (s.modHc g f).straps = s.straps := rfl
@[simp] theorem State.modHc_outs (g : Nat) (f : Hc → Hc) : (s.modHc g f).outs = s.outs := rfl
@[simp] theorem State.modHc_fuses (g : Nat) (f : Hc → Hc) : (s.modHc g f).fuses = s.fuses := rfl
@[simp] theorem State.modHc_boot (g : Nat) (f : Hc → Hc) : (s.modHc g f).boot = s.boot := rfl
@[simp] theorem State.modHc_time (g : Nat) (f : Hc → Hc) : (s.modHc g f).time = s.time := rfl
@[simp] theorem State.modHc_elog (g : Nat) (f : Hc → Hc) : (s.modHc g f).elog = s.elog := rfl
@[simp] theorem State.modHc_faultBufs (g : Nat) (f : Hc → Hc) : (s.modHc g f).faultBufs = s.faultBufs := rfl
@[simp] theorem State.modHc_trace (g : Nat) (f : Hc → Hc) : (s.modHc g f).trace = s.trace := rfl
@[simp] theorem State.modHc_stw (g : Nat) (f : Hc → Hc) : (s.modHc g f).stw = s.stw := rfl
@[simp] theorem State.modHc_tap (g : Nat) (f : Hc → Hc) : (s.modHc g f).tap = s.tap := rfl
@[simp] theorem State.modHc_sram (g : Nat) (f : Hc → Hc) : (s.modHc g f).sram = s.sram := rfl
@[simp] theorem State.modHc_spares (g : Nat) (f : Hc → Hc) : (s.modHc g f).spares = s.spares := rfl
@[simp] theorem State.modHc_ceWindow (g : Nat) (f : Hc → Hc) : (s.modHc g f).ceWindow = s.ceWindow := rfl
@[simp] theorem State.modHc_bankRsp (g : Nat) (f : Hc → Hc) : (s.modHc g f).bankRsp = s.bankRsp := rfl
@[simp] theorem State.modHc_tinkers (g : Nat) (f : Hc → Hc) : (s.modHc g f).tinkers = s.tinkers := rfl
@[simp] theorem State.modHc_hbm (g : Nat) (f : Hc → Hc) : (s.modHc g f).hbm = s.hbm := rfl
@[simp] theorem State.modHc_hbmBase (g : Nat) (f : Hc → Hc) : (s.modHc g f).hbmBase = s.hbmBase := rfl
@[simp] theorem State.modHc_injected (g : Nat) (f : Hc → Hc) : (s.modHc g f).injected = s.injected := rfl
@[simp] theorem State.modHc_hbmEpoch (g : Nat) (f : Hc → Hc) : (s.modHc g f).hbmEpoch = s.hbmEpoch := rfl
@[simp] theorem State.modHc_freeCtr (g : Nat) (f : Hc → Hc) : (s.modHc g f).freeCtr = s.freeCtr := rfl
@[simp] theorem State.modHc_links (g : Nat) (f : Hc → Hc) : (s.modHc g f).links = s.links := rfl
@[simp] theorem State.modHc_xlt (g : Nat) (f : Hc → Hc) : (s.modHc g f).xlt = s.xlt := rfl
@[simp] theorem State.modHc_inval (g : Nat) (f : Hc → Hc) : (s.modHc g f).inval = s.inval := rfl
@[simp] theorem State.modHc_paths (g : Nat) (f : Hc → Hc) : (s.modHc g f).paths = s.paths := rfl
@[simp] theorem State.modHc_hcs (g : Nat) (f : Hc → Hc) : (s.modHc g f).hcs = put s.hcs g (f (s.hc g)) := rfl
@[simp] theorem State.modHc_arbs (g : Nat) (f : Hc → Hc) : (s.modHc g f).arbs = s.arbs := rfl
@[simp] theorem State.modHc_lfsrs (g : Nat) (f : Hc → Hc) : (s.modHc g f).lfsrs = s.lfsrs := rfl
@[simp] theorem State.modHc_grants (g : Nat) (f : Hc → Hc) : (s.modHc g f).grants = s.grants := rfl
@[simp] theorem State.modHc_emerged (g : Nat) (f : Hc → Hc) : (s.modHc g f).emerged = s.emerged := rfl
@[simp] theorem State.modHc_seeds (g : Nat) (f : Hc → Hc) : (s.modHc g f).seeds = s.seeds := rfl
@[simp] theorem State.modHc_twin (g : Nat) (f : Hc → Hc) : (s.modHc g f).twin = s.twin := rfl
@[simp] theorem State.modHc_hall (g : Nat) (f : Hc → Hc) : (s.modHc g f).hall = s.hall := rfl
@[simp] theorem State.modHc_queues (g : Nat) (f : Hc → Hc) : (s.modHc g f).queues = s.queues := rfl
@[simp] theorem State.modHc_rings (g : Nat) (f : Hc → Hc) : (s.modHc g f).rings = s.rings := rfl
@[simp] theorem State.modHc_criers (g : Nat) (f : Hc → Hc) : (s.modHc g f).criers = s.criers := rfl
@[simp] theorem State.modHc_event (g : Nat) (f : Hc → Hc) : (s.modHc g f).event = s.event := rfl
@[simp] theorem State.modHc_stair (g : Nat) (f : Hc → Hc) : (s.modHc g f).stair = s.stair := rfl
@[simp] theorem State.modHc_mixers (g : Nat) (f : Hc → Hc) : (s.modHc g f).mixers = s.mixers := rfl
@[simp] theorem State.modHc_purser (g : Nat) (f : Hc → Hc) : (s.modHc g f).purser = s.purser := rfl
@[simp] theorem State.modHc_clearing (g : Nat) (f : Hc → Hc) : (s.modHc g f).clearing = s.clearing := rfl
@[simp] theorem State.modHc_heldRegs (g : Nat) (f : Hc → Hc) : (s.modHc g f).heldRegs = s.heldRegs := rfl
@[simp] theorem State.modHc_readRsp (g : Nat) (f : Hc → Hc) : (s.modHc g f).readRsp = s.readRsp := rfl

/-! ### State.setLink -/

@[simp] theorem State.setLink_pending (m : Nat) (l : Link) : (s.setLink m l).pending = s.pending := rfl
@[simp] theorem State.setLink_regs (m : Nat) (l : Link) : (s.setLink m l).regs = s.regs := rfl
@[simp] theorem State.setLink_shadow (m : Nat) (l : Link) : (s.setLink m l).shadow = s.shadow := rfl
@[simp] theorem State.setLink_portRegs (m : Nat) (l : Link) : (s.setLink m l).portRegs = s.portRegs := rfl
@[simp] theorem State.setLink_straps (m : Nat) (l : Link) : (s.setLink m l).straps = s.straps := rfl
@[simp] theorem State.setLink_outs (m : Nat) (l : Link) : (s.setLink m l).outs = s.outs := rfl
@[simp] theorem State.setLink_fuses (m : Nat) (l : Link) : (s.setLink m l).fuses = s.fuses := rfl
@[simp] theorem State.setLink_boot (m : Nat) (l : Link) : (s.setLink m l).boot = s.boot := rfl
@[simp] theorem State.setLink_time (m : Nat) (l : Link) : (s.setLink m l).time = s.time := rfl
@[simp] theorem State.setLink_elog (m : Nat) (l : Link) : (s.setLink m l).elog = s.elog := rfl
@[simp] theorem State.setLink_faultBufs (m : Nat) (l : Link) : (s.setLink m l).faultBufs = s.faultBufs := rfl
@[simp] theorem State.setLink_trace (m : Nat) (l : Link) : (s.setLink m l).trace = s.trace := rfl
@[simp] theorem State.setLink_stw (m : Nat) (l : Link) : (s.setLink m l).stw = s.stw := rfl
@[simp] theorem State.setLink_tap (m : Nat) (l : Link) : (s.setLink m l).tap = s.tap := rfl
@[simp] theorem State.setLink_sram (m : Nat) (l : Link) : (s.setLink m l).sram = s.sram := rfl
@[simp] theorem State.setLink_spares (m : Nat) (l : Link) : (s.setLink m l).spares = s.spares := rfl
@[simp] theorem State.setLink_ceWindow (m : Nat) (l : Link) : (s.setLink m l).ceWindow = s.ceWindow := rfl
@[simp] theorem State.setLink_bankRsp (m : Nat) (l : Link) : (s.setLink m l).bankRsp = s.bankRsp := rfl
@[simp] theorem State.setLink_tinkers (m : Nat) (l : Link) : (s.setLink m l).tinkers = s.tinkers := rfl
@[simp] theorem State.setLink_hbm (m : Nat) (l : Link) : (s.setLink m l).hbm = s.hbm := rfl
@[simp] theorem State.setLink_hbmBase (m : Nat) (l : Link) : (s.setLink m l).hbmBase = s.hbmBase := rfl
@[simp] theorem State.setLink_injected (m : Nat) (l : Link) : (s.setLink m l).injected = s.injected := rfl
@[simp] theorem State.setLink_hbmEpoch (m : Nat) (l : Link) : (s.setLink m l).hbmEpoch = s.hbmEpoch := rfl
@[simp] theorem State.setLink_freeCtr (m : Nat) (l : Link) : (s.setLink m l).freeCtr = s.freeCtr := rfl
@[simp] theorem State.setLink_links (m : Nat) (l : Link) : (s.setLink m l).links = put s.links m l := rfl
@[simp] theorem State.setLink_xlt (m : Nat) (l : Link) : (s.setLink m l).xlt = s.xlt := rfl
@[simp] theorem State.setLink_inval (m : Nat) (l : Link) : (s.setLink m l).inval = s.inval := rfl
@[simp] theorem State.setLink_paths (m : Nat) (l : Link) : (s.setLink m l).paths = s.paths := rfl
@[simp] theorem State.setLink_hcs (m : Nat) (l : Link) : (s.setLink m l).hcs = s.hcs := rfl
@[simp] theorem State.setLink_arbs (m : Nat) (l : Link) : (s.setLink m l).arbs = s.arbs := rfl
@[simp] theorem State.setLink_lfsrs (m : Nat) (l : Link) : (s.setLink m l).lfsrs = s.lfsrs := rfl
@[simp] theorem State.setLink_grants (m : Nat) (l : Link) : (s.setLink m l).grants = s.grants := rfl
@[simp] theorem State.setLink_emerged (m : Nat) (l : Link) : (s.setLink m l).emerged = s.emerged := rfl
@[simp] theorem State.setLink_seeds (m : Nat) (l : Link) : (s.setLink m l).seeds = s.seeds := rfl
@[simp] theorem State.setLink_twin (m : Nat) (l : Link) : (s.setLink m l).twin = s.twin := rfl
@[simp] theorem State.setLink_hall (m : Nat) (l : Link) : (s.setLink m l).hall = s.hall := rfl
@[simp] theorem State.setLink_queues (m : Nat) (l : Link) : (s.setLink m l).queues = s.queues := rfl
@[simp] theorem State.setLink_rings (m : Nat) (l : Link) : (s.setLink m l).rings = s.rings := rfl
@[simp] theorem State.setLink_criers (m : Nat) (l : Link) : (s.setLink m l).criers = s.criers := rfl
@[simp] theorem State.setLink_event (m : Nat) (l : Link) : (s.setLink m l).event = s.event := rfl
@[simp] theorem State.setLink_stair (m : Nat) (l : Link) : (s.setLink m l).stair = s.stair := rfl
@[simp] theorem State.setLink_mixers (m : Nat) (l : Link) : (s.setLink m l).mixers = s.mixers := rfl
@[simp] theorem State.setLink_purser (m : Nat) (l : Link) : (s.setLink m l).purser = s.purser := rfl
@[simp] theorem State.setLink_clearing (m : Nat) (l : Link) : (s.setLink m l).clearing = s.clearing := rfl
@[simp] theorem State.setLink_heldRegs (m : Nat) (l : Link) : (s.setLink m l).heldRegs = s.heldRegs := rfl
@[simp] theorem State.setLink_readRsp (m : Nat) (l : Link) : (s.setLink m l).readRsp = s.readRsp := rfl

/-! ### State.modLink -/

@[simp] theorem State.modLink_pending (m : Nat) (f : Link → Link) : (s.modLink m f).pending = s.pending := rfl
@[simp] theorem State.modLink_regs (m : Nat) (f : Link → Link) : (s.modLink m f).regs = s.regs := rfl
@[simp] theorem State.modLink_shadow (m : Nat) (f : Link → Link) : (s.modLink m f).shadow = s.shadow := rfl
@[simp] theorem State.modLink_portRegs (m : Nat) (f : Link → Link) : (s.modLink m f).portRegs = s.portRegs := rfl
@[simp] theorem State.modLink_straps (m : Nat) (f : Link → Link) : (s.modLink m f).straps = s.straps := rfl
@[simp] theorem State.modLink_outs (m : Nat) (f : Link → Link) : (s.modLink m f).outs = s.outs := rfl
@[simp] theorem State.modLink_fuses (m : Nat) (f : Link → Link) : (s.modLink m f).fuses = s.fuses := rfl
@[simp] theorem State.modLink_boot (m : Nat) (f : Link → Link) : (s.modLink m f).boot = s.boot := rfl
@[simp] theorem State.modLink_time (m : Nat) (f : Link → Link) : (s.modLink m f).time = s.time := rfl
@[simp] theorem State.modLink_elog (m : Nat) (f : Link → Link) : (s.modLink m f).elog = s.elog := rfl
@[simp] theorem State.modLink_faultBufs (m : Nat) (f : Link → Link) : (s.modLink m f).faultBufs = s.faultBufs := rfl
@[simp] theorem State.modLink_trace (m : Nat) (f : Link → Link) : (s.modLink m f).trace = s.trace := rfl
@[simp] theorem State.modLink_stw (m : Nat) (f : Link → Link) : (s.modLink m f).stw = s.stw := rfl
@[simp] theorem State.modLink_tap (m : Nat) (f : Link → Link) : (s.modLink m f).tap = s.tap := rfl
@[simp] theorem State.modLink_sram (m : Nat) (f : Link → Link) : (s.modLink m f).sram = s.sram := rfl
@[simp] theorem State.modLink_spares (m : Nat) (f : Link → Link) : (s.modLink m f).spares = s.spares := rfl
@[simp] theorem State.modLink_ceWindow (m : Nat) (f : Link → Link) : (s.modLink m f).ceWindow = s.ceWindow := rfl
@[simp] theorem State.modLink_bankRsp (m : Nat) (f : Link → Link) : (s.modLink m f).bankRsp = s.bankRsp := rfl
@[simp] theorem State.modLink_tinkers (m : Nat) (f : Link → Link) : (s.modLink m f).tinkers = s.tinkers := rfl
@[simp] theorem State.modLink_hbm (m : Nat) (f : Link → Link) : (s.modLink m f).hbm = s.hbm := rfl
@[simp] theorem State.modLink_hbmBase (m : Nat) (f : Link → Link) : (s.modLink m f).hbmBase = s.hbmBase := rfl
@[simp] theorem State.modLink_injected (m : Nat) (f : Link → Link) : (s.modLink m f).injected = s.injected := rfl
@[simp] theorem State.modLink_hbmEpoch (m : Nat) (f : Link → Link) : (s.modLink m f).hbmEpoch = s.hbmEpoch := rfl
@[simp] theorem State.modLink_freeCtr (m : Nat) (f : Link → Link) : (s.modLink m f).freeCtr = s.freeCtr := rfl
@[simp] theorem State.modLink_links (m : Nat) (f : Link → Link) : (s.modLink m f).links = put s.links m (f (s.link m)) := rfl
@[simp] theorem State.modLink_xlt (m : Nat) (f : Link → Link) : (s.modLink m f).xlt = s.xlt := rfl
@[simp] theorem State.modLink_inval (m : Nat) (f : Link → Link) : (s.modLink m f).inval = s.inval := rfl
@[simp] theorem State.modLink_paths (m : Nat) (f : Link → Link) : (s.modLink m f).paths = s.paths := rfl
@[simp] theorem State.modLink_hcs (m : Nat) (f : Link → Link) : (s.modLink m f).hcs = s.hcs := rfl
@[simp] theorem State.modLink_arbs (m : Nat) (f : Link → Link) : (s.modLink m f).arbs = s.arbs := rfl
@[simp] theorem State.modLink_lfsrs (m : Nat) (f : Link → Link) : (s.modLink m f).lfsrs = s.lfsrs := rfl
@[simp] theorem State.modLink_grants (m : Nat) (f : Link → Link) : (s.modLink m f).grants = s.grants := rfl
@[simp] theorem State.modLink_emerged (m : Nat) (f : Link → Link) : (s.modLink m f).emerged = s.emerged := rfl
@[simp] theorem State.modLink_seeds (m : Nat) (f : Link → Link) : (s.modLink m f).seeds = s.seeds := rfl
@[simp] theorem State.modLink_twin (m : Nat) (f : Link → Link) : (s.modLink m f).twin = s.twin := rfl
@[simp] theorem State.modLink_hall (m : Nat) (f : Link → Link) : (s.modLink m f).hall = s.hall := rfl
@[simp] theorem State.modLink_queues (m : Nat) (f : Link → Link) : (s.modLink m f).queues = s.queues := rfl
@[simp] theorem State.modLink_rings (m : Nat) (f : Link → Link) : (s.modLink m f).rings = s.rings := rfl
@[simp] theorem State.modLink_criers (m : Nat) (f : Link → Link) : (s.modLink m f).criers = s.criers := rfl
@[simp] theorem State.modLink_event (m : Nat) (f : Link → Link) : (s.modLink m f).event = s.event := rfl
@[simp] theorem State.modLink_stair (m : Nat) (f : Link → Link) : (s.modLink m f).stair = s.stair := rfl
@[simp] theorem State.modLink_mixers (m : Nat) (f : Link → Link) : (s.modLink m f).mixers = s.mixers := rfl
@[simp] theorem State.modLink_purser (m : Nat) (f : Link → Link) : (s.modLink m f).purser = s.purser := rfl
@[simp] theorem State.modLink_clearing (m : Nat) (f : Link → Link) : (s.modLink m f).clearing = s.clearing := rfl
@[simp] theorem State.modLink_heldRegs (m : Nat) (f : Link → Link) : (s.modLink m f).heldRegs = s.heldRegs := rfl
@[simp] theorem State.modLink_readRsp (m : Nat) (f : Link → Link) : (s.modLink m f).readRsp = s.readRsp := rfl

/-! ### State.setArb -/

@[simp] theorem State.setArb_pending (g : Nat) (a : Arb) : (s.setArb g a).pending = s.pending := rfl
@[simp] theorem State.setArb_regs (g : Nat) (a : Arb) : (s.setArb g a).regs = s.regs := rfl
@[simp] theorem State.setArb_shadow (g : Nat) (a : Arb) : (s.setArb g a).shadow = s.shadow := rfl
@[simp] theorem State.setArb_portRegs (g : Nat) (a : Arb) : (s.setArb g a).portRegs = s.portRegs := rfl
@[simp] theorem State.setArb_straps (g : Nat) (a : Arb) : (s.setArb g a).straps = s.straps := rfl
@[simp] theorem State.setArb_outs (g : Nat) (a : Arb) : (s.setArb g a).outs = s.outs := rfl
@[simp] theorem State.setArb_fuses (g : Nat) (a : Arb) : (s.setArb g a).fuses = s.fuses := rfl
@[simp] theorem State.setArb_boot (g : Nat) (a : Arb) : (s.setArb g a).boot = s.boot := rfl
@[simp] theorem State.setArb_time (g : Nat) (a : Arb) : (s.setArb g a).time = s.time := rfl
@[simp] theorem State.setArb_elog (g : Nat) (a : Arb) : (s.setArb g a).elog = s.elog := rfl
@[simp] theorem State.setArb_faultBufs (g : Nat) (a : Arb) : (s.setArb g a).faultBufs = s.faultBufs := rfl
@[simp] theorem State.setArb_trace (g : Nat) (a : Arb) : (s.setArb g a).trace = s.trace := rfl
@[simp] theorem State.setArb_stw (g : Nat) (a : Arb) : (s.setArb g a).stw = s.stw := rfl
@[simp] theorem State.setArb_tap (g : Nat) (a : Arb) : (s.setArb g a).tap = s.tap := rfl
@[simp] theorem State.setArb_sram (g : Nat) (a : Arb) : (s.setArb g a).sram = s.sram := rfl
@[simp] theorem State.setArb_spares (g : Nat) (a : Arb) : (s.setArb g a).spares = s.spares := rfl
@[simp] theorem State.setArb_ceWindow (g : Nat) (a : Arb) : (s.setArb g a).ceWindow = s.ceWindow := rfl
@[simp] theorem State.setArb_bankRsp (g : Nat) (a : Arb) : (s.setArb g a).bankRsp = s.bankRsp := rfl
@[simp] theorem State.setArb_tinkers (g : Nat) (a : Arb) : (s.setArb g a).tinkers = s.tinkers := rfl
@[simp] theorem State.setArb_hbm (g : Nat) (a : Arb) : (s.setArb g a).hbm = s.hbm := rfl
@[simp] theorem State.setArb_hbmBase (g : Nat) (a : Arb) : (s.setArb g a).hbmBase = s.hbmBase := rfl
@[simp] theorem State.setArb_injected (g : Nat) (a : Arb) : (s.setArb g a).injected = s.injected := rfl
@[simp] theorem State.setArb_hbmEpoch (g : Nat) (a : Arb) : (s.setArb g a).hbmEpoch = s.hbmEpoch := rfl
@[simp] theorem State.setArb_freeCtr (g : Nat) (a : Arb) : (s.setArb g a).freeCtr = s.freeCtr := rfl
@[simp] theorem State.setArb_links (g : Nat) (a : Arb) : (s.setArb g a).links = s.links := rfl
@[simp] theorem State.setArb_xlt (g : Nat) (a : Arb) : (s.setArb g a).xlt = s.xlt := rfl
@[simp] theorem State.setArb_inval (g : Nat) (a : Arb) : (s.setArb g a).inval = s.inval := rfl
@[simp] theorem State.setArb_paths (g : Nat) (a : Arb) : (s.setArb g a).paths = s.paths := rfl
@[simp] theorem State.setArb_hcs (g : Nat) (a : Arb) : (s.setArb g a).hcs = s.hcs := rfl
@[simp] theorem State.setArb_arbs (g : Nat) (a : Arb) : (s.setArb g a).arbs = put s.arbs g a := rfl
@[simp] theorem State.setArb_lfsrs (g : Nat) (a : Arb) : (s.setArb g a).lfsrs = s.lfsrs := rfl
@[simp] theorem State.setArb_grants (g : Nat) (a : Arb) : (s.setArb g a).grants = s.grants := rfl
@[simp] theorem State.setArb_emerged (g : Nat) (a : Arb) : (s.setArb g a).emerged = s.emerged := rfl
@[simp] theorem State.setArb_seeds (g : Nat) (a : Arb) : (s.setArb g a).seeds = s.seeds := rfl
@[simp] theorem State.setArb_twin (g : Nat) (a : Arb) : (s.setArb g a).twin = s.twin := rfl
@[simp] theorem State.setArb_hall (g : Nat) (a : Arb) : (s.setArb g a).hall = s.hall := rfl
@[simp] theorem State.setArb_queues (g : Nat) (a : Arb) : (s.setArb g a).queues = s.queues := rfl
@[simp] theorem State.setArb_rings (g : Nat) (a : Arb) : (s.setArb g a).rings = s.rings := rfl
@[simp] theorem State.setArb_criers (g : Nat) (a : Arb) : (s.setArb g a).criers = s.criers := rfl
@[simp] theorem State.setArb_event (g : Nat) (a : Arb) : (s.setArb g a).event = s.event := rfl
@[simp] theorem State.setArb_stair (g : Nat) (a : Arb) : (s.setArb g a).stair = s.stair := rfl
@[simp] theorem State.setArb_mixers (g : Nat) (a : Arb) : (s.setArb g a).mixers = s.mixers := rfl
@[simp] theorem State.setArb_purser (g : Nat) (a : Arb) : (s.setArb g a).purser = s.purser := rfl
@[simp] theorem State.setArb_clearing (g : Nat) (a : Arb) : (s.setArb g a).clearing = s.clearing := rfl
@[simp] theorem State.setArb_heldRegs (g : Nat) (a : Arb) : (s.setArb g a).heldRegs = s.heldRegs := rfl
@[simp] theorem State.setArb_readRsp (g : Nat) (a : Arb) : (s.setArb g a).readRsp = s.readRsp := rfl

/-! ### State.setXl -/

@[simp] theorem State.setXl_pending (g : Nat) (x : Xlt) : (s.setXl g x).pending = s.pending := rfl
@[simp] theorem State.setXl_regs (g : Nat) (x : Xlt) : (s.setXl g x).regs = s.regs := rfl
@[simp] theorem State.setXl_shadow (g : Nat) (x : Xlt) : (s.setXl g x).shadow = s.shadow := rfl
@[simp] theorem State.setXl_portRegs (g : Nat) (x : Xlt) : (s.setXl g x).portRegs = s.portRegs := rfl
@[simp] theorem State.setXl_straps (g : Nat) (x : Xlt) : (s.setXl g x).straps = s.straps := rfl
@[simp] theorem State.setXl_outs (g : Nat) (x : Xlt) : (s.setXl g x).outs = s.outs := rfl
@[simp] theorem State.setXl_fuses (g : Nat) (x : Xlt) : (s.setXl g x).fuses = s.fuses := rfl
@[simp] theorem State.setXl_boot (g : Nat) (x : Xlt) : (s.setXl g x).boot = s.boot := rfl
@[simp] theorem State.setXl_time (g : Nat) (x : Xlt) : (s.setXl g x).time = s.time := rfl
@[simp] theorem State.setXl_elog (g : Nat) (x : Xlt) : (s.setXl g x).elog = s.elog := rfl
@[simp] theorem State.setXl_faultBufs (g : Nat) (x : Xlt) : (s.setXl g x).faultBufs = s.faultBufs := rfl
@[simp] theorem State.setXl_trace (g : Nat) (x : Xlt) : (s.setXl g x).trace = s.trace := rfl
@[simp] theorem State.setXl_stw (g : Nat) (x : Xlt) : (s.setXl g x).stw = s.stw := rfl
@[simp] theorem State.setXl_tap (g : Nat) (x : Xlt) : (s.setXl g x).tap = s.tap := rfl
@[simp] theorem State.setXl_sram (g : Nat) (x : Xlt) : (s.setXl g x).sram = s.sram := rfl
@[simp] theorem State.setXl_spares (g : Nat) (x : Xlt) : (s.setXl g x).spares = s.spares := rfl
@[simp] theorem State.setXl_ceWindow (g : Nat) (x : Xlt) : (s.setXl g x).ceWindow = s.ceWindow := rfl
@[simp] theorem State.setXl_bankRsp (g : Nat) (x : Xlt) : (s.setXl g x).bankRsp = s.bankRsp := rfl
@[simp] theorem State.setXl_tinkers (g : Nat) (x : Xlt) : (s.setXl g x).tinkers = s.tinkers := rfl
@[simp] theorem State.setXl_hbm (g : Nat) (x : Xlt) : (s.setXl g x).hbm = s.hbm := rfl
@[simp] theorem State.setXl_hbmBase (g : Nat) (x : Xlt) : (s.setXl g x).hbmBase = s.hbmBase := rfl
@[simp] theorem State.setXl_injected (g : Nat) (x : Xlt) : (s.setXl g x).injected = s.injected := rfl
@[simp] theorem State.setXl_hbmEpoch (g : Nat) (x : Xlt) : (s.setXl g x).hbmEpoch = s.hbmEpoch := rfl
@[simp] theorem State.setXl_freeCtr (g : Nat) (x : Xlt) : (s.setXl g x).freeCtr = s.freeCtr := rfl
@[simp] theorem State.setXl_links (g : Nat) (x : Xlt) : (s.setXl g x).links = s.links := rfl
@[simp] theorem State.setXl_xlt (g : Nat) (x : Xlt) : (s.setXl g x).xlt = put s.xlt g x := rfl
@[simp] theorem State.setXl_inval (g : Nat) (x : Xlt) : (s.setXl g x).inval = s.inval := rfl
@[simp] theorem State.setXl_paths (g : Nat) (x : Xlt) : (s.setXl g x).paths = s.paths := rfl
@[simp] theorem State.setXl_hcs (g : Nat) (x : Xlt) : (s.setXl g x).hcs = s.hcs := rfl
@[simp] theorem State.setXl_arbs (g : Nat) (x : Xlt) : (s.setXl g x).arbs = s.arbs := rfl
@[simp] theorem State.setXl_lfsrs (g : Nat) (x : Xlt) : (s.setXl g x).lfsrs = s.lfsrs := rfl
@[simp] theorem State.setXl_grants (g : Nat) (x : Xlt) : (s.setXl g x).grants = s.grants := rfl
@[simp] theorem State.setXl_emerged (g : Nat) (x : Xlt) : (s.setXl g x).emerged = s.emerged := rfl
@[simp] theorem State.setXl_seeds (g : Nat) (x : Xlt) : (s.setXl g x).seeds = s.seeds := rfl
@[simp] theorem State.setXl_twin (g : Nat) (x : Xlt) : (s.setXl g x).twin = s.twin := rfl
@[simp] theorem State.setXl_hall (g : Nat) (x : Xlt) : (s.setXl g x).hall = s.hall := rfl
@[simp] theorem State.setXl_queues (g : Nat) (x : Xlt) : (s.setXl g x).queues = s.queues := rfl
@[simp] theorem State.setXl_rings (g : Nat) (x : Xlt) : (s.setXl g x).rings = s.rings := rfl
@[simp] theorem State.setXl_criers (g : Nat) (x : Xlt) : (s.setXl g x).criers = s.criers := rfl
@[simp] theorem State.setXl_event (g : Nat) (x : Xlt) : (s.setXl g x).event = s.event := rfl
@[simp] theorem State.setXl_stair (g : Nat) (x : Xlt) : (s.setXl g x).stair = s.stair := rfl
@[simp] theorem State.setXl_mixers (g : Nat) (x : Xlt) : (s.setXl g x).mixers = s.mixers := rfl
@[simp] theorem State.setXl_purser (g : Nat) (x : Xlt) : (s.setXl g x).purser = s.purser := rfl
@[simp] theorem State.setXl_clearing (g : Nat) (x : Xlt) : (s.setXl g x).clearing = s.clearing := rfl
@[simp] theorem State.setXl_heldRegs (g : Nat) (x : Xlt) : (s.setXl g x).heldRegs = s.heldRegs := rfl
@[simp] theorem State.setXl_readRsp (g : Nat) (x : Xlt) : (s.setXl g x).readRsp = s.readRsp := rfl

/-! ### State.setPath -/

@[simp] theorem State.setPath_pending (g : Nat) (x : ErrandPath) : (s.setPath g x).pending = s.pending := rfl
@[simp] theorem State.setPath_regs (g : Nat) (x : ErrandPath) : (s.setPath g x).regs = s.regs := rfl
@[simp] theorem State.setPath_shadow (g : Nat) (x : ErrandPath) : (s.setPath g x).shadow = s.shadow := rfl
@[simp] theorem State.setPath_portRegs (g : Nat) (x : ErrandPath) : (s.setPath g x).portRegs = s.portRegs := rfl
@[simp] theorem State.setPath_straps (g : Nat) (x : ErrandPath) : (s.setPath g x).straps = s.straps := rfl
@[simp] theorem State.setPath_outs (g : Nat) (x : ErrandPath) : (s.setPath g x).outs = s.outs := rfl
@[simp] theorem State.setPath_fuses (g : Nat) (x : ErrandPath) : (s.setPath g x).fuses = s.fuses := rfl
@[simp] theorem State.setPath_boot (g : Nat) (x : ErrandPath) : (s.setPath g x).boot = s.boot := rfl
@[simp] theorem State.setPath_time (g : Nat) (x : ErrandPath) : (s.setPath g x).time = s.time := rfl
@[simp] theorem State.setPath_elog (g : Nat) (x : ErrandPath) : (s.setPath g x).elog = s.elog := rfl
@[simp] theorem State.setPath_faultBufs (g : Nat) (x : ErrandPath) : (s.setPath g x).faultBufs = s.faultBufs := rfl
@[simp] theorem State.setPath_trace (g : Nat) (x : ErrandPath) : (s.setPath g x).trace = s.trace := rfl
@[simp] theorem State.setPath_stw (g : Nat) (x : ErrandPath) : (s.setPath g x).stw = s.stw := rfl
@[simp] theorem State.setPath_tap (g : Nat) (x : ErrandPath) : (s.setPath g x).tap = s.tap := rfl
@[simp] theorem State.setPath_sram (g : Nat) (x : ErrandPath) : (s.setPath g x).sram = s.sram := rfl
@[simp] theorem State.setPath_spares (g : Nat) (x : ErrandPath) : (s.setPath g x).spares = s.spares := rfl
@[simp] theorem State.setPath_ceWindow (g : Nat) (x : ErrandPath) : (s.setPath g x).ceWindow = s.ceWindow := rfl
@[simp] theorem State.setPath_bankRsp (g : Nat) (x : ErrandPath) : (s.setPath g x).bankRsp = s.bankRsp := rfl
@[simp] theorem State.setPath_tinkers (g : Nat) (x : ErrandPath) : (s.setPath g x).tinkers = s.tinkers := rfl
@[simp] theorem State.setPath_hbm (g : Nat) (x : ErrandPath) : (s.setPath g x).hbm = s.hbm := rfl
@[simp] theorem State.setPath_hbmBase (g : Nat) (x : ErrandPath) : (s.setPath g x).hbmBase = s.hbmBase := rfl
@[simp] theorem State.setPath_injected (g : Nat) (x : ErrandPath) : (s.setPath g x).injected = s.injected := rfl
@[simp] theorem State.setPath_hbmEpoch (g : Nat) (x : ErrandPath) : (s.setPath g x).hbmEpoch = s.hbmEpoch := rfl
@[simp] theorem State.setPath_freeCtr (g : Nat) (x : ErrandPath) : (s.setPath g x).freeCtr = s.freeCtr := rfl
@[simp] theorem State.setPath_links (g : Nat) (x : ErrandPath) : (s.setPath g x).links = s.links := rfl
@[simp] theorem State.setPath_xlt (g : Nat) (x : ErrandPath) : (s.setPath g x).xlt = s.xlt := rfl
@[simp] theorem State.setPath_inval (g : Nat) (x : ErrandPath) : (s.setPath g x).inval = s.inval := rfl
@[simp] theorem State.setPath_paths (g : Nat) (x : ErrandPath) : (s.setPath g x).paths = put s.paths g x := rfl
@[simp] theorem State.setPath_hcs (g : Nat) (x : ErrandPath) : (s.setPath g x).hcs = s.hcs := rfl
@[simp] theorem State.setPath_arbs (g : Nat) (x : ErrandPath) : (s.setPath g x).arbs = s.arbs := rfl
@[simp] theorem State.setPath_lfsrs (g : Nat) (x : ErrandPath) : (s.setPath g x).lfsrs = s.lfsrs := rfl
@[simp] theorem State.setPath_grants (g : Nat) (x : ErrandPath) : (s.setPath g x).grants = s.grants := rfl
@[simp] theorem State.setPath_emerged (g : Nat) (x : ErrandPath) : (s.setPath g x).emerged = s.emerged := rfl
@[simp] theorem State.setPath_seeds (g : Nat) (x : ErrandPath) : (s.setPath g x).seeds = s.seeds := rfl
@[simp] theorem State.setPath_twin (g : Nat) (x : ErrandPath) : (s.setPath g x).twin = s.twin := rfl
@[simp] theorem State.setPath_hall (g : Nat) (x : ErrandPath) : (s.setPath g x).hall = s.hall := rfl
@[simp] theorem State.setPath_queues (g : Nat) (x : ErrandPath) : (s.setPath g x).queues = s.queues := rfl
@[simp] theorem State.setPath_rings (g : Nat) (x : ErrandPath) : (s.setPath g x).rings = s.rings := rfl
@[simp] theorem State.setPath_criers (g : Nat) (x : ErrandPath) : (s.setPath g x).criers = s.criers := rfl
@[simp] theorem State.setPath_event (g : Nat) (x : ErrandPath) : (s.setPath g x).event = s.event := rfl
@[simp] theorem State.setPath_stair (g : Nat) (x : ErrandPath) : (s.setPath g x).stair = s.stair := rfl
@[simp] theorem State.setPath_mixers (g : Nat) (x : ErrandPath) : (s.setPath g x).mixers = s.mixers := rfl
@[simp] theorem State.setPath_purser (g : Nat) (x : ErrandPath) : (s.setPath g x).purser = s.purser := rfl
@[simp] theorem State.setPath_clearing (g : Nat) (x : ErrandPath) : (s.setPath g x).clearing = s.clearing := rfl
@[simp] theorem State.setPath_heldRegs (g : Nat) (x : ErrandPath) : (s.setPath g x).heldRegs = s.heldRegs := rfl
@[simp] theorem State.setPath_readRsp (g : Nat) (x : ErrandPath) : (s.setPath g x).readRsp = s.readRsp := rfl

/-! ### State.modPath -/

@[simp] theorem State.modPath_pending (g : Nat) (f : ErrandPath → ErrandPath) : (s.modPath g f).pending = s.pending := rfl
@[simp] theorem State.modPath_regs (g : Nat) (f : ErrandPath → ErrandPath) : (s.modPath g f).regs = s.regs := rfl
@[simp] theorem State.modPath_shadow (g : Nat) (f : ErrandPath → ErrandPath) : (s.modPath g f).shadow = s.shadow := rfl
@[simp] theorem State.modPath_portRegs (g : Nat) (f : ErrandPath → ErrandPath) : (s.modPath g f).portRegs = s.portRegs := rfl
@[simp] theorem State.modPath_straps (g : Nat) (f : ErrandPath → ErrandPath) : (s.modPath g f).straps = s.straps := rfl
@[simp] theorem State.modPath_outs (g : Nat) (f : ErrandPath → ErrandPath) : (s.modPath g f).outs = s.outs := rfl
@[simp] theorem State.modPath_fuses (g : Nat) (f : ErrandPath → ErrandPath) : (s.modPath g f).fuses = s.fuses := rfl
@[simp] theorem State.modPath_boot (g : Nat) (f : ErrandPath → ErrandPath) : (s.modPath g f).boot = s.boot := rfl
@[simp] theorem State.modPath_time (g : Nat) (f : ErrandPath → ErrandPath) : (s.modPath g f).time = s.time := rfl
@[simp] theorem State.modPath_elog (g : Nat) (f : ErrandPath → ErrandPath) : (s.modPath g f).elog = s.elog := rfl
@[simp] theorem State.modPath_faultBufs (g : Nat) (f : ErrandPath → ErrandPath) : (s.modPath g f).faultBufs = s.faultBufs := rfl
@[simp] theorem State.modPath_trace (g : Nat) (f : ErrandPath → ErrandPath) : (s.modPath g f).trace = s.trace := rfl
@[simp] theorem State.modPath_stw (g : Nat) (f : ErrandPath → ErrandPath) : (s.modPath g f).stw = s.stw := rfl
@[simp] theorem State.modPath_tap (g : Nat) (f : ErrandPath → ErrandPath) : (s.modPath g f).tap = s.tap := rfl
@[simp] theorem State.modPath_sram (g : Nat) (f : ErrandPath → ErrandPath) : (s.modPath g f).sram = s.sram := rfl
@[simp] theorem State.modPath_spares (g : Nat) (f : ErrandPath → ErrandPath) : (s.modPath g f).spares = s.spares := rfl
@[simp] theorem State.modPath_ceWindow (g : Nat) (f : ErrandPath → ErrandPath) : (s.modPath g f).ceWindow = s.ceWindow := rfl
@[simp] theorem State.modPath_bankRsp (g : Nat) (f : ErrandPath → ErrandPath) : (s.modPath g f).bankRsp = s.bankRsp := rfl
@[simp] theorem State.modPath_tinkers (g : Nat) (f : ErrandPath → ErrandPath) : (s.modPath g f).tinkers = s.tinkers := rfl
@[simp] theorem State.modPath_hbm (g : Nat) (f : ErrandPath → ErrandPath) : (s.modPath g f).hbm = s.hbm := rfl
@[simp] theorem State.modPath_hbmBase (g : Nat) (f : ErrandPath → ErrandPath) : (s.modPath g f).hbmBase = s.hbmBase := rfl
@[simp] theorem State.modPath_injected (g : Nat) (f : ErrandPath → ErrandPath) : (s.modPath g f).injected = s.injected := rfl
@[simp] theorem State.modPath_hbmEpoch (g : Nat) (f : ErrandPath → ErrandPath) : (s.modPath g f).hbmEpoch = s.hbmEpoch := rfl
@[simp] theorem State.modPath_freeCtr (g : Nat) (f : ErrandPath → ErrandPath) : (s.modPath g f).freeCtr = s.freeCtr := rfl
@[simp] theorem State.modPath_links (g : Nat) (f : ErrandPath → ErrandPath) : (s.modPath g f).links = s.links := rfl
@[simp] theorem State.modPath_xlt (g : Nat) (f : ErrandPath → ErrandPath) : (s.modPath g f).xlt = s.xlt := rfl
@[simp] theorem State.modPath_inval (g : Nat) (f : ErrandPath → ErrandPath) : (s.modPath g f).inval = s.inval := rfl
@[simp] theorem State.modPath_paths (g : Nat) (f : ErrandPath → ErrandPath) : (s.modPath g f).paths = put s.paths g (f (s.path g)) := rfl
@[simp] theorem State.modPath_hcs (g : Nat) (f : ErrandPath → ErrandPath) : (s.modPath g f).hcs = s.hcs := rfl
@[simp] theorem State.modPath_arbs (g : Nat) (f : ErrandPath → ErrandPath) : (s.modPath g f).arbs = s.arbs := rfl
@[simp] theorem State.modPath_lfsrs (g : Nat) (f : ErrandPath → ErrandPath) : (s.modPath g f).lfsrs = s.lfsrs := rfl
@[simp] theorem State.modPath_grants (g : Nat) (f : ErrandPath → ErrandPath) : (s.modPath g f).grants = s.grants := rfl
@[simp] theorem State.modPath_emerged (g : Nat) (f : ErrandPath → ErrandPath) : (s.modPath g f).emerged = s.emerged := rfl
@[simp] theorem State.modPath_seeds (g : Nat) (f : ErrandPath → ErrandPath) : (s.modPath g f).seeds = s.seeds := rfl
@[simp] theorem State.modPath_twin (g : Nat) (f : ErrandPath → ErrandPath) : (s.modPath g f).twin = s.twin := rfl
@[simp] theorem State.modPath_hall (g : Nat) (f : ErrandPath → ErrandPath) : (s.modPath g f).hall = s.hall := rfl
@[simp] theorem State.modPath_queues (g : Nat) (f : ErrandPath → ErrandPath) : (s.modPath g f).queues = s.queues := rfl
@[simp] theorem State.modPath_rings (g : Nat) (f : ErrandPath → ErrandPath) : (s.modPath g f).rings = s.rings := rfl
@[simp] theorem State.modPath_criers (g : Nat) (f : ErrandPath → ErrandPath) : (s.modPath g f).criers = s.criers := rfl
@[simp] theorem State.modPath_event (g : Nat) (f : ErrandPath → ErrandPath) : (s.modPath g f).event = s.event := rfl
@[simp] theorem State.modPath_stair (g : Nat) (f : ErrandPath → ErrandPath) : (s.modPath g f).stair = s.stair := rfl
@[simp] theorem State.modPath_mixers (g : Nat) (f : ErrandPath → ErrandPath) : (s.modPath g f).mixers = s.mixers := rfl
@[simp] theorem State.modPath_purser (g : Nat) (f : ErrandPath → ErrandPath) : (s.modPath g f).purser = s.purser := rfl
@[simp] theorem State.modPath_clearing (g : Nat) (f : ErrandPath → ErrandPath) : (s.modPath g f).clearing = s.clearing := rfl
@[simp] theorem State.modPath_heldRegs (g : Nat) (f : ErrandPath → ErrandPath) : (s.modPath g f).heldRegs = s.heldRegs := rfl
@[simp] theorem State.modPath_readRsp (g : Nat) (f : ErrandPath → ErrandPath) : (s.modPath g f).readRsp = s.readRsp := rfl

/-! ### State.setQueue -/

@[simp] theorem State.setQueue_pending (q : Nat) (x : Queue) : (s.setQueue q x).pending = s.pending := rfl
@[simp] theorem State.setQueue_regs (q : Nat) (x : Queue) : (s.setQueue q x).regs = s.regs := rfl
@[simp] theorem State.setQueue_shadow (q : Nat) (x : Queue) : (s.setQueue q x).shadow = s.shadow := rfl
@[simp] theorem State.setQueue_portRegs (q : Nat) (x : Queue) : (s.setQueue q x).portRegs = s.portRegs := rfl
@[simp] theorem State.setQueue_straps (q : Nat) (x : Queue) : (s.setQueue q x).straps = s.straps := rfl
@[simp] theorem State.setQueue_outs (q : Nat) (x : Queue) : (s.setQueue q x).outs = s.outs := rfl
@[simp] theorem State.setQueue_fuses (q : Nat) (x : Queue) : (s.setQueue q x).fuses = s.fuses := rfl
@[simp] theorem State.setQueue_boot (q : Nat) (x : Queue) : (s.setQueue q x).boot = s.boot := rfl
@[simp] theorem State.setQueue_time (q : Nat) (x : Queue) : (s.setQueue q x).time = s.time := rfl
@[simp] theorem State.setQueue_elog (q : Nat) (x : Queue) : (s.setQueue q x).elog = s.elog := rfl
@[simp] theorem State.setQueue_faultBufs (q : Nat) (x : Queue) : (s.setQueue q x).faultBufs = s.faultBufs := rfl
@[simp] theorem State.setQueue_trace (q : Nat) (x : Queue) : (s.setQueue q x).trace = s.trace := rfl
@[simp] theorem State.setQueue_stw (q : Nat) (x : Queue) : (s.setQueue q x).stw = s.stw := rfl
@[simp] theorem State.setQueue_tap (q : Nat) (x : Queue) : (s.setQueue q x).tap = s.tap := rfl
@[simp] theorem State.setQueue_sram (q : Nat) (x : Queue) : (s.setQueue q x).sram = s.sram := rfl
@[simp] theorem State.setQueue_spares (q : Nat) (x : Queue) : (s.setQueue q x).spares = s.spares := rfl
@[simp] theorem State.setQueue_ceWindow (q : Nat) (x : Queue) : (s.setQueue q x).ceWindow = s.ceWindow := rfl
@[simp] theorem State.setQueue_bankRsp (q : Nat) (x : Queue) : (s.setQueue q x).bankRsp = s.bankRsp := rfl
@[simp] theorem State.setQueue_tinkers (q : Nat) (x : Queue) : (s.setQueue q x).tinkers = s.tinkers := rfl
@[simp] theorem State.setQueue_hbm (q : Nat) (x : Queue) : (s.setQueue q x).hbm = s.hbm := rfl
@[simp] theorem State.setQueue_hbmBase (q : Nat) (x : Queue) : (s.setQueue q x).hbmBase = s.hbmBase := rfl
@[simp] theorem State.setQueue_injected (q : Nat) (x : Queue) : (s.setQueue q x).injected = s.injected := rfl
@[simp] theorem State.setQueue_hbmEpoch (q : Nat) (x : Queue) : (s.setQueue q x).hbmEpoch = s.hbmEpoch := rfl
@[simp] theorem State.setQueue_freeCtr (q : Nat) (x : Queue) : (s.setQueue q x).freeCtr = s.freeCtr := rfl
@[simp] theorem State.setQueue_links (q : Nat) (x : Queue) : (s.setQueue q x).links = s.links := rfl
@[simp] theorem State.setQueue_xlt (q : Nat) (x : Queue) : (s.setQueue q x).xlt = s.xlt := rfl
@[simp] theorem State.setQueue_inval (q : Nat) (x : Queue) : (s.setQueue q x).inval = s.inval := rfl
@[simp] theorem State.setQueue_paths (q : Nat) (x : Queue) : (s.setQueue q x).paths = s.paths := rfl
@[simp] theorem State.setQueue_hcs (q : Nat) (x : Queue) : (s.setQueue q x).hcs = s.hcs := rfl
@[simp] theorem State.setQueue_arbs (q : Nat) (x : Queue) : (s.setQueue q x).arbs = s.arbs := rfl
@[simp] theorem State.setQueue_lfsrs (q : Nat) (x : Queue) : (s.setQueue q x).lfsrs = s.lfsrs := rfl
@[simp] theorem State.setQueue_grants (q : Nat) (x : Queue) : (s.setQueue q x).grants = s.grants := rfl
@[simp] theorem State.setQueue_emerged (q : Nat) (x : Queue) : (s.setQueue q x).emerged = s.emerged := rfl
@[simp] theorem State.setQueue_seeds (q : Nat) (x : Queue) : (s.setQueue q x).seeds = s.seeds := rfl
@[simp] theorem State.setQueue_twin (q : Nat) (x : Queue) : (s.setQueue q x).twin = s.twin := rfl
@[simp] theorem State.setQueue_hall (q : Nat) (x : Queue) : (s.setQueue q x).hall = s.hall := rfl
@[simp] theorem State.setQueue_queues (q : Nat) (x : Queue) : (s.setQueue q x).queues = put s.queues q x := rfl
@[simp] theorem State.setQueue_rings (q : Nat) (x : Queue) : (s.setQueue q x).rings = s.rings := rfl
@[simp] theorem State.setQueue_criers (q : Nat) (x : Queue) : (s.setQueue q x).criers = s.criers := rfl
@[simp] theorem State.setQueue_event (q : Nat) (x : Queue) : (s.setQueue q x).event = s.event := rfl
@[simp] theorem State.setQueue_stair (q : Nat) (x : Queue) : (s.setQueue q x).stair = s.stair := rfl
@[simp] theorem State.setQueue_mixers (q : Nat) (x : Queue) : (s.setQueue q x).mixers = s.mixers := rfl
@[simp] theorem State.setQueue_purser (q : Nat) (x : Queue) : (s.setQueue q x).purser = s.purser := rfl
@[simp] theorem State.setQueue_clearing (q : Nat) (x : Queue) : (s.setQueue q x).clearing = s.clearing := rfl
@[simp] theorem State.setQueue_heldRegs (q : Nat) (x : Queue) : (s.setQueue q x).heldRegs = s.heldRegs := rfl
@[simp] theorem State.setQueue_readRsp (q : Nat) (x : Queue) : (s.setQueue q x).readRsp = s.readRsp := rfl

/-! ### State.modQueue -/

@[simp] theorem State.modQueue_pending (q : Nat) (f : Queue → Queue) : (s.modQueue q f).pending = s.pending := rfl
@[simp] theorem State.modQueue_regs (q : Nat) (f : Queue → Queue) : (s.modQueue q f).regs = s.regs := rfl
@[simp] theorem State.modQueue_shadow (q : Nat) (f : Queue → Queue) : (s.modQueue q f).shadow = s.shadow := rfl
@[simp] theorem State.modQueue_portRegs (q : Nat) (f : Queue → Queue) : (s.modQueue q f).portRegs = s.portRegs := rfl
@[simp] theorem State.modQueue_straps (q : Nat) (f : Queue → Queue) : (s.modQueue q f).straps = s.straps := rfl
@[simp] theorem State.modQueue_outs (q : Nat) (f : Queue → Queue) : (s.modQueue q f).outs = s.outs := rfl
@[simp] theorem State.modQueue_fuses (q : Nat) (f : Queue → Queue) : (s.modQueue q f).fuses = s.fuses := rfl
@[simp] theorem State.modQueue_boot (q : Nat) (f : Queue → Queue) : (s.modQueue q f).boot = s.boot := rfl
@[simp] theorem State.modQueue_time (q : Nat) (f : Queue → Queue) : (s.modQueue q f).time = s.time := rfl
@[simp] theorem State.modQueue_elog (q : Nat) (f : Queue → Queue) : (s.modQueue q f).elog = s.elog := rfl
@[simp] theorem State.modQueue_faultBufs (q : Nat) (f : Queue → Queue) : (s.modQueue q f).faultBufs = s.faultBufs := rfl
@[simp] theorem State.modQueue_trace (q : Nat) (f : Queue → Queue) : (s.modQueue q f).trace = s.trace := rfl
@[simp] theorem State.modQueue_stw (q : Nat) (f : Queue → Queue) : (s.modQueue q f).stw = s.stw := rfl
@[simp] theorem State.modQueue_tap (q : Nat) (f : Queue → Queue) : (s.modQueue q f).tap = s.tap := rfl
@[simp] theorem State.modQueue_sram (q : Nat) (f : Queue → Queue) : (s.modQueue q f).sram = s.sram := rfl
@[simp] theorem State.modQueue_spares (q : Nat) (f : Queue → Queue) : (s.modQueue q f).spares = s.spares := rfl
@[simp] theorem State.modQueue_ceWindow (q : Nat) (f : Queue → Queue) : (s.modQueue q f).ceWindow = s.ceWindow := rfl
@[simp] theorem State.modQueue_bankRsp (q : Nat) (f : Queue → Queue) : (s.modQueue q f).bankRsp = s.bankRsp := rfl
@[simp] theorem State.modQueue_tinkers (q : Nat) (f : Queue → Queue) : (s.modQueue q f).tinkers = s.tinkers := rfl
@[simp] theorem State.modQueue_hbm (q : Nat) (f : Queue → Queue) : (s.modQueue q f).hbm = s.hbm := rfl
@[simp] theorem State.modQueue_hbmBase (q : Nat) (f : Queue → Queue) : (s.modQueue q f).hbmBase = s.hbmBase := rfl
@[simp] theorem State.modQueue_injected (q : Nat) (f : Queue → Queue) : (s.modQueue q f).injected = s.injected := rfl
@[simp] theorem State.modQueue_hbmEpoch (q : Nat) (f : Queue → Queue) : (s.modQueue q f).hbmEpoch = s.hbmEpoch := rfl
@[simp] theorem State.modQueue_freeCtr (q : Nat) (f : Queue → Queue) : (s.modQueue q f).freeCtr = s.freeCtr := rfl
@[simp] theorem State.modQueue_links (q : Nat) (f : Queue → Queue) : (s.modQueue q f).links = s.links := rfl
@[simp] theorem State.modQueue_xlt (q : Nat) (f : Queue → Queue) : (s.modQueue q f).xlt = s.xlt := rfl
@[simp] theorem State.modQueue_inval (q : Nat) (f : Queue → Queue) : (s.modQueue q f).inval = s.inval := rfl
@[simp] theorem State.modQueue_paths (q : Nat) (f : Queue → Queue) : (s.modQueue q f).paths = s.paths := rfl
@[simp] theorem State.modQueue_hcs (q : Nat) (f : Queue → Queue) : (s.modQueue q f).hcs = s.hcs := rfl
@[simp] theorem State.modQueue_arbs (q : Nat) (f : Queue → Queue) : (s.modQueue q f).arbs = s.arbs := rfl
@[simp] theorem State.modQueue_lfsrs (q : Nat) (f : Queue → Queue) : (s.modQueue q f).lfsrs = s.lfsrs := rfl
@[simp] theorem State.modQueue_grants (q : Nat) (f : Queue → Queue) : (s.modQueue q f).grants = s.grants := rfl
@[simp] theorem State.modQueue_emerged (q : Nat) (f : Queue → Queue) : (s.modQueue q f).emerged = s.emerged := rfl
@[simp] theorem State.modQueue_seeds (q : Nat) (f : Queue → Queue) : (s.modQueue q f).seeds = s.seeds := rfl
@[simp] theorem State.modQueue_twin (q : Nat) (f : Queue → Queue) : (s.modQueue q f).twin = s.twin := rfl
@[simp] theorem State.modQueue_hall (q : Nat) (f : Queue → Queue) : (s.modQueue q f).hall = s.hall := rfl
@[simp] theorem State.modQueue_queues (q : Nat) (f : Queue → Queue) : (s.modQueue q f).queues = put s.queues q (f (s.queue q)) := rfl
@[simp] theorem State.modQueue_rings (q : Nat) (f : Queue → Queue) : (s.modQueue q f).rings = s.rings := rfl
@[simp] theorem State.modQueue_criers (q : Nat) (f : Queue → Queue) : (s.modQueue q f).criers = s.criers := rfl
@[simp] theorem State.modQueue_event (q : Nat) (f : Queue → Queue) : (s.modQueue q f).event = s.event := rfl
@[simp] theorem State.modQueue_stair (q : Nat) (f : Queue → Queue) : (s.modQueue q f).stair = s.stair := rfl
@[simp] theorem State.modQueue_mixers (q : Nat) (f : Queue → Queue) : (s.modQueue q f).mixers = s.mixers := rfl
@[simp] theorem State.modQueue_purser (q : Nat) (f : Queue → Queue) : (s.modQueue q f).purser = s.purser := rfl
@[simp] theorem State.modQueue_clearing (q : Nat) (f : Queue → Queue) : (s.modQueue q f).clearing = s.clearing := rfl
@[simp] theorem State.modQueue_heldRegs (q : Nat) (f : Queue → Queue) : (s.modQueue q f).heldRegs = s.heldRegs := rfl
@[simp] theorem State.modQueue_readRsp (q : Nat) (f : Queue → Queue) : (s.modQueue q f).readRsp = s.readRsp := rfl

/-! ### State.setRing -/

@[simp] theorem State.setRing_pending (r : Nat) (x : Ring) : (s.setRing r x).pending = s.pending := rfl
@[simp] theorem State.setRing_regs (r : Nat) (x : Ring) : (s.setRing r x).regs = s.regs := rfl
@[simp] theorem State.setRing_shadow (r : Nat) (x : Ring) : (s.setRing r x).shadow = s.shadow := rfl
@[simp] theorem State.setRing_portRegs (r : Nat) (x : Ring) : (s.setRing r x).portRegs = s.portRegs := rfl
@[simp] theorem State.setRing_straps (r : Nat) (x : Ring) : (s.setRing r x).straps = s.straps := rfl
@[simp] theorem State.setRing_outs (r : Nat) (x : Ring) : (s.setRing r x).outs = s.outs := rfl
@[simp] theorem State.setRing_fuses (r : Nat) (x : Ring) : (s.setRing r x).fuses = s.fuses := rfl
@[simp] theorem State.setRing_boot (r : Nat) (x : Ring) : (s.setRing r x).boot = s.boot := rfl
@[simp] theorem State.setRing_time (r : Nat) (x : Ring) : (s.setRing r x).time = s.time := rfl
@[simp] theorem State.setRing_elog (r : Nat) (x : Ring) : (s.setRing r x).elog = s.elog := rfl
@[simp] theorem State.setRing_faultBufs (r : Nat) (x : Ring) : (s.setRing r x).faultBufs = s.faultBufs := rfl
@[simp] theorem State.setRing_trace (r : Nat) (x : Ring) : (s.setRing r x).trace = s.trace := rfl
@[simp] theorem State.setRing_stw (r : Nat) (x : Ring) : (s.setRing r x).stw = s.stw := rfl
@[simp] theorem State.setRing_tap (r : Nat) (x : Ring) : (s.setRing r x).tap = s.tap := rfl
@[simp] theorem State.setRing_sram (r : Nat) (x : Ring) : (s.setRing r x).sram = s.sram := rfl
@[simp] theorem State.setRing_spares (r : Nat) (x : Ring) : (s.setRing r x).spares = s.spares := rfl
@[simp] theorem State.setRing_ceWindow (r : Nat) (x : Ring) : (s.setRing r x).ceWindow = s.ceWindow := rfl
@[simp] theorem State.setRing_bankRsp (r : Nat) (x : Ring) : (s.setRing r x).bankRsp = s.bankRsp := rfl
@[simp] theorem State.setRing_tinkers (r : Nat) (x : Ring) : (s.setRing r x).tinkers = s.tinkers := rfl
@[simp] theorem State.setRing_hbm (r : Nat) (x : Ring) : (s.setRing r x).hbm = s.hbm := rfl
@[simp] theorem State.setRing_hbmBase (r : Nat) (x : Ring) : (s.setRing r x).hbmBase = s.hbmBase := rfl
@[simp] theorem State.setRing_injected (r : Nat) (x : Ring) : (s.setRing r x).injected = s.injected := rfl
@[simp] theorem State.setRing_hbmEpoch (r : Nat) (x : Ring) : (s.setRing r x).hbmEpoch = s.hbmEpoch := rfl
@[simp] theorem State.setRing_freeCtr (r : Nat) (x : Ring) : (s.setRing r x).freeCtr = s.freeCtr := rfl
@[simp] theorem State.setRing_links (r : Nat) (x : Ring) : (s.setRing r x).links = s.links := rfl
@[simp] theorem State.setRing_xlt (r : Nat) (x : Ring) : (s.setRing r x).xlt = s.xlt := rfl
@[simp] theorem State.setRing_inval (r : Nat) (x : Ring) : (s.setRing r x).inval = s.inval := rfl
@[simp] theorem State.setRing_paths (r : Nat) (x : Ring) : (s.setRing r x).paths = s.paths := rfl
@[simp] theorem State.setRing_hcs (r : Nat) (x : Ring) : (s.setRing r x).hcs = s.hcs := rfl
@[simp] theorem State.setRing_arbs (r : Nat) (x : Ring) : (s.setRing r x).arbs = s.arbs := rfl
@[simp] theorem State.setRing_lfsrs (r : Nat) (x : Ring) : (s.setRing r x).lfsrs = s.lfsrs := rfl
@[simp] theorem State.setRing_grants (r : Nat) (x : Ring) : (s.setRing r x).grants = s.grants := rfl
@[simp] theorem State.setRing_emerged (r : Nat) (x : Ring) : (s.setRing r x).emerged = s.emerged := rfl
@[simp] theorem State.setRing_seeds (r : Nat) (x : Ring) : (s.setRing r x).seeds = s.seeds := rfl
@[simp] theorem State.setRing_twin (r : Nat) (x : Ring) : (s.setRing r x).twin = s.twin := rfl
@[simp] theorem State.setRing_hall (r : Nat) (x : Ring) : (s.setRing r x).hall = s.hall := rfl
@[simp] theorem State.setRing_queues (r : Nat) (x : Ring) : (s.setRing r x).queues = s.queues := rfl
@[simp] theorem State.setRing_rings (r : Nat) (x : Ring) : (s.setRing r x).rings = put s.rings r x := rfl
@[simp] theorem State.setRing_criers (r : Nat) (x : Ring) : (s.setRing r x).criers = s.criers := rfl
@[simp] theorem State.setRing_event (r : Nat) (x : Ring) : (s.setRing r x).event = s.event := rfl
@[simp] theorem State.setRing_stair (r : Nat) (x : Ring) : (s.setRing r x).stair = s.stair := rfl
@[simp] theorem State.setRing_mixers (r : Nat) (x : Ring) : (s.setRing r x).mixers = s.mixers := rfl
@[simp] theorem State.setRing_purser (r : Nat) (x : Ring) : (s.setRing r x).purser = s.purser := rfl
@[simp] theorem State.setRing_clearing (r : Nat) (x : Ring) : (s.setRing r x).clearing = s.clearing := rfl
@[simp] theorem State.setRing_heldRegs (r : Nat) (x : Ring) : (s.setRing r x).heldRegs = s.heldRegs := rfl
@[simp] theorem State.setRing_readRsp (r : Nat) (x : Ring) : (s.setRing r x).readRsp = s.readRsp := rfl

/-! ### State.modRing -/

@[simp] theorem State.modRing_pending (r : Nat) (f : Ring → Ring) : (s.modRing r f).pending = s.pending := rfl
@[simp] theorem State.modRing_regs (r : Nat) (f : Ring → Ring) : (s.modRing r f).regs = s.regs := rfl
@[simp] theorem State.modRing_shadow (r : Nat) (f : Ring → Ring) : (s.modRing r f).shadow = s.shadow := rfl
@[simp] theorem State.modRing_portRegs (r : Nat) (f : Ring → Ring) : (s.modRing r f).portRegs = s.portRegs := rfl
@[simp] theorem State.modRing_straps (r : Nat) (f : Ring → Ring) : (s.modRing r f).straps = s.straps := rfl
@[simp] theorem State.modRing_outs (r : Nat) (f : Ring → Ring) : (s.modRing r f).outs = s.outs := rfl
@[simp] theorem State.modRing_fuses (r : Nat) (f : Ring → Ring) : (s.modRing r f).fuses = s.fuses := rfl
@[simp] theorem State.modRing_boot (r : Nat) (f : Ring → Ring) : (s.modRing r f).boot = s.boot := rfl
@[simp] theorem State.modRing_time (r : Nat) (f : Ring → Ring) : (s.modRing r f).time = s.time := rfl
@[simp] theorem State.modRing_elog (r : Nat) (f : Ring → Ring) : (s.modRing r f).elog = s.elog := rfl
@[simp] theorem State.modRing_faultBufs (r : Nat) (f : Ring → Ring) : (s.modRing r f).faultBufs = s.faultBufs := rfl
@[simp] theorem State.modRing_trace (r : Nat) (f : Ring → Ring) : (s.modRing r f).trace = s.trace := rfl
@[simp] theorem State.modRing_stw (r : Nat) (f : Ring → Ring) : (s.modRing r f).stw = s.stw := rfl
@[simp] theorem State.modRing_tap (r : Nat) (f : Ring → Ring) : (s.modRing r f).tap = s.tap := rfl
@[simp] theorem State.modRing_sram (r : Nat) (f : Ring → Ring) : (s.modRing r f).sram = s.sram := rfl
@[simp] theorem State.modRing_spares (r : Nat) (f : Ring → Ring) : (s.modRing r f).spares = s.spares := rfl
@[simp] theorem State.modRing_ceWindow (r : Nat) (f : Ring → Ring) : (s.modRing r f).ceWindow = s.ceWindow := rfl
@[simp] theorem State.modRing_bankRsp (r : Nat) (f : Ring → Ring) : (s.modRing r f).bankRsp = s.bankRsp := rfl
@[simp] theorem State.modRing_tinkers (r : Nat) (f : Ring → Ring) : (s.modRing r f).tinkers = s.tinkers := rfl
@[simp] theorem State.modRing_hbm (r : Nat) (f : Ring → Ring) : (s.modRing r f).hbm = s.hbm := rfl
@[simp] theorem State.modRing_hbmBase (r : Nat) (f : Ring → Ring) : (s.modRing r f).hbmBase = s.hbmBase := rfl
@[simp] theorem State.modRing_injected (r : Nat) (f : Ring → Ring) : (s.modRing r f).injected = s.injected := rfl
@[simp] theorem State.modRing_hbmEpoch (r : Nat) (f : Ring → Ring) : (s.modRing r f).hbmEpoch = s.hbmEpoch := rfl
@[simp] theorem State.modRing_freeCtr (r : Nat) (f : Ring → Ring) : (s.modRing r f).freeCtr = s.freeCtr := rfl
@[simp] theorem State.modRing_links (r : Nat) (f : Ring → Ring) : (s.modRing r f).links = s.links := rfl
@[simp] theorem State.modRing_xlt (r : Nat) (f : Ring → Ring) : (s.modRing r f).xlt = s.xlt := rfl
@[simp] theorem State.modRing_inval (r : Nat) (f : Ring → Ring) : (s.modRing r f).inval = s.inval := rfl
@[simp] theorem State.modRing_paths (r : Nat) (f : Ring → Ring) : (s.modRing r f).paths = s.paths := rfl
@[simp] theorem State.modRing_hcs (r : Nat) (f : Ring → Ring) : (s.modRing r f).hcs = s.hcs := rfl
@[simp] theorem State.modRing_arbs (r : Nat) (f : Ring → Ring) : (s.modRing r f).arbs = s.arbs := rfl
@[simp] theorem State.modRing_lfsrs (r : Nat) (f : Ring → Ring) : (s.modRing r f).lfsrs = s.lfsrs := rfl
@[simp] theorem State.modRing_grants (r : Nat) (f : Ring → Ring) : (s.modRing r f).grants = s.grants := rfl
@[simp] theorem State.modRing_emerged (r : Nat) (f : Ring → Ring) : (s.modRing r f).emerged = s.emerged := rfl
@[simp] theorem State.modRing_seeds (r : Nat) (f : Ring → Ring) : (s.modRing r f).seeds = s.seeds := rfl
@[simp] theorem State.modRing_twin (r : Nat) (f : Ring → Ring) : (s.modRing r f).twin = s.twin := rfl
@[simp] theorem State.modRing_hall (r : Nat) (f : Ring → Ring) : (s.modRing r f).hall = s.hall := rfl
@[simp] theorem State.modRing_queues (r : Nat) (f : Ring → Ring) : (s.modRing r f).queues = s.queues := rfl
@[simp] theorem State.modRing_rings (r : Nat) (f : Ring → Ring) : (s.modRing r f).rings = put s.rings r (f (s.ring r)) := rfl
@[simp] theorem State.modRing_criers (r : Nat) (f : Ring → Ring) : (s.modRing r f).criers = s.criers := rfl
@[simp] theorem State.modRing_event (r : Nat) (f : Ring → Ring) : (s.modRing r f).event = s.event := rfl
@[simp] theorem State.modRing_stair (r : Nat) (f : Ring → Ring) : (s.modRing r f).stair = s.stair := rfl
@[simp] theorem State.modRing_mixers (r : Nat) (f : Ring → Ring) : (s.modRing r f).mixers = s.mixers := rfl
@[simp] theorem State.modRing_purser (r : Nat) (f : Ring → Ring) : (s.modRing r f).purser = s.purser := rfl
@[simp] theorem State.modRing_clearing (r : Nat) (f : Ring → Ring) : (s.modRing r f).clearing = s.clearing := rfl
@[simp] theorem State.modRing_heldRegs (r : Nat) (f : Ring → Ring) : (s.modRing r f).heldRegs = s.heldRegs := rfl
@[simp] theorem State.modRing_readRsp (r : Nat) (f : Ring → Ring) : (s.modRing r f).readRsp = s.readRsp := rfl

/-! ### State.setCrier -/

@[simp] theorem State.setCrier_pending (g : Nat) (x : Crier) : (s.setCrier g x).pending = s.pending := rfl
@[simp] theorem State.setCrier_regs (g : Nat) (x : Crier) : (s.setCrier g x).regs = s.regs := rfl
@[simp] theorem State.setCrier_shadow (g : Nat) (x : Crier) : (s.setCrier g x).shadow = s.shadow := rfl
@[simp] theorem State.setCrier_portRegs (g : Nat) (x : Crier) : (s.setCrier g x).portRegs = s.portRegs := rfl
@[simp] theorem State.setCrier_straps (g : Nat) (x : Crier) : (s.setCrier g x).straps = s.straps := rfl
@[simp] theorem State.setCrier_outs (g : Nat) (x : Crier) : (s.setCrier g x).outs = s.outs := rfl
@[simp] theorem State.setCrier_fuses (g : Nat) (x : Crier) : (s.setCrier g x).fuses = s.fuses := rfl
@[simp] theorem State.setCrier_boot (g : Nat) (x : Crier) : (s.setCrier g x).boot = s.boot := rfl
@[simp] theorem State.setCrier_time (g : Nat) (x : Crier) : (s.setCrier g x).time = s.time := rfl
@[simp] theorem State.setCrier_elog (g : Nat) (x : Crier) : (s.setCrier g x).elog = s.elog := rfl
@[simp] theorem State.setCrier_faultBufs (g : Nat) (x : Crier) : (s.setCrier g x).faultBufs = s.faultBufs := rfl
@[simp] theorem State.setCrier_trace (g : Nat) (x : Crier) : (s.setCrier g x).trace = s.trace := rfl
@[simp] theorem State.setCrier_stw (g : Nat) (x : Crier) : (s.setCrier g x).stw = s.stw := rfl
@[simp] theorem State.setCrier_tap (g : Nat) (x : Crier) : (s.setCrier g x).tap = s.tap := rfl
@[simp] theorem State.setCrier_sram (g : Nat) (x : Crier) : (s.setCrier g x).sram = s.sram := rfl
@[simp] theorem State.setCrier_spares (g : Nat) (x : Crier) : (s.setCrier g x).spares = s.spares := rfl
@[simp] theorem State.setCrier_ceWindow (g : Nat) (x : Crier) : (s.setCrier g x).ceWindow = s.ceWindow := rfl
@[simp] theorem State.setCrier_bankRsp (g : Nat) (x : Crier) : (s.setCrier g x).bankRsp = s.bankRsp := rfl
@[simp] theorem State.setCrier_tinkers (g : Nat) (x : Crier) : (s.setCrier g x).tinkers = s.tinkers := rfl
@[simp] theorem State.setCrier_hbm (g : Nat) (x : Crier) : (s.setCrier g x).hbm = s.hbm := rfl
@[simp] theorem State.setCrier_hbmBase (g : Nat) (x : Crier) : (s.setCrier g x).hbmBase = s.hbmBase := rfl
@[simp] theorem State.setCrier_injected (g : Nat) (x : Crier) : (s.setCrier g x).injected = s.injected := rfl
@[simp] theorem State.setCrier_hbmEpoch (g : Nat) (x : Crier) : (s.setCrier g x).hbmEpoch = s.hbmEpoch := rfl
@[simp] theorem State.setCrier_freeCtr (g : Nat) (x : Crier) : (s.setCrier g x).freeCtr = s.freeCtr := rfl
@[simp] theorem State.setCrier_links (g : Nat) (x : Crier) : (s.setCrier g x).links = s.links := rfl
@[simp] theorem State.setCrier_xlt (g : Nat) (x : Crier) : (s.setCrier g x).xlt = s.xlt := rfl
@[simp] theorem State.setCrier_inval (g : Nat) (x : Crier) : (s.setCrier g x).inval = s.inval := rfl
@[simp] theorem State.setCrier_paths (g : Nat) (x : Crier) : (s.setCrier g x).paths = s.paths := rfl
@[simp] theorem State.setCrier_hcs (g : Nat) (x : Crier) : (s.setCrier g x).hcs = s.hcs := rfl
@[simp] theorem State.setCrier_arbs (g : Nat) (x : Crier) : (s.setCrier g x).arbs = s.arbs := rfl
@[simp] theorem State.setCrier_lfsrs (g : Nat) (x : Crier) : (s.setCrier g x).lfsrs = s.lfsrs := rfl
@[simp] theorem State.setCrier_grants (g : Nat) (x : Crier) : (s.setCrier g x).grants = s.grants := rfl
@[simp] theorem State.setCrier_emerged (g : Nat) (x : Crier) : (s.setCrier g x).emerged = s.emerged := rfl
@[simp] theorem State.setCrier_seeds (g : Nat) (x : Crier) : (s.setCrier g x).seeds = s.seeds := rfl
@[simp] theorem State.setCrier_twin (g : Nat) (x : Crier) : (s.setCrier g x).twin = s.twin := rfl
@[simp] theorem State.setCrier_hall (g : Nat) (x : Crier) : (s.setCrier g x).hall = s.hall := rfl
@[simp] theorem State.setCrier_queues (g : Nat) (x : Crier) : (s.setCrier g x).queues = s.queues := rfl
@[simp] theorem State.setCrier_rings (g : Nat) (x : Crier) : (s.setCrier g x).rings = s.rings := rfl
@[simp] theorem State.setCrier_criers (g : Nat) (x : Crier) : (s.setCrier g x).criers = put s.criers g x := rfl
@[simp] theorem State.setCrier_event (g : Nat) (x : Crier) : (s.setCrier g x).event = s.event := rfl
@[simp] theorem State.setCrier_stair (g : Nat) (x : Crier) : (s.setCrier g x).stair = s.stair := rfl
@[simp] theorem State.setCrier_mixers (g : Nat) (x : Crier) : (s.setCrier g x).mixers = s.mixers := rfl
@[simp] theorem State.setCrier_purser (g : Nat) (x : Crier) : (s.setCrier g x).purser = s.purser := rfl
@[simp] theorem State.setCrier_clearing (g : Nat) (x : Crier) : (s.setCrier g x).clearing = s.clearing := rfl
@[simp] theorem State.setCrier_heldRegs (g : Nat) (x : Crier) : (s.setCrier g x).heldRegs = s.heldRegs := rfl
@[simp] theorem State.setCrier_readRsp (g : Nat) (x : Crier) : (s.setCrier g x).readRsp = s.readRsp := rfl

/-! ### State.modCrier -/

@[simp] theorem State.modCrier_pending (g : Nat) (f : Crier → Crier) : (s.modCrier g f).pending = s.pending := rfl
@[simp] theorem State.modCrier_regs (g : Nat) (f : Crier → Crier) : (s.modCrier g f).regs = s.regs := rfl
@[simp] theorem State.modCrier_shadow (g : Nat) (f : Crier → Crier) : (s.modCrier g f).shadow = s.shadow := rfl
@[simp] theorem State.modCrier_portRegs (g : Nat) (f : Crier → Crier) : (s.modCrier g f).portRegs = s.portRegs := rfl
@[simp] theorem State.modCrier_straps (g : Nat) (f : Crier → Crier) : (s.modCrier g f).straps = s.straps := rfl
@[simp] theorem State.modCrier_outs (g : Nat) (f : Crier → Crier) : (s.modCrier g f).outs = s.outs := rfl
@[simp] theorem State.modCrier_fuses (g : Nat) (f : Crier → Crier) : (s.modCrier g f).fuses = s.fuses := rfl
@[simp] theorem State.modCrier_boot (g : Nat) (f : Crier → Crier) : (s.modCrier g f).boot = s.boot := rfl
@[simp] theorem State.modCrier_time (g : Nat) (f : Crier → Crier) : (s.modCrier g f).time = s.time := rfl
@[simp] theorem State.modCrier_elog (g : Nat) (f : Crier → Crier) : (s.modCrier g f).elog = s.elog := rfl
@[simp] theorem State.modCrier_faultBufs (g : Nat) (f : Crier → Crier) : (s.modCrier g f).faultBufs = s.faultBufs := rfl
@[simp] theorem State.modCrier_trace (g : Nat) (f : Crier → Crier) : (s.modCrier g f).trace = s.trace := rfl
@[simp] theorem State.modCrier_stw (g : Nat) (f : Crier → Crier) : (s.modCrier g f).stw = s.stw := rfl
@[simp] theorem State.modCrier_tap (g : Nat) (f : Crier → Crier) : (s.modCrier g f).tap = s.tap := rfl
@[simp] theorem State.modCrier_sram (g : Nat) (f : Crier → Crier) : (s.modCrier g f).sram = s.sram := rfl
@[simp] theorem State.modCrier_spares (g : Nat) (f : Crier → Crier) : (s.modCrier g f).spares = s.spares := rfl
@[simp] theorem State.modCrier_ceWindow (g : Nat) (f : Crier → Crier) : (s.modCrier g f).ceWindow = s.ceWindow := rfl
@[simp] theorem State.modCrier_bankRsp (g : Nat) (f : Crier → Crier) : (s.modCrier g f).bankRsp = s.bankRsp := rfl
@[simp] theorem State.modCrier_tinkers (g : Nat) (f : Crier → Crier) : (s.modCrier g f).tinkers = s.tinkers := rfl
@[simp] theorem State.modCrier_hbm (g : Nat) (f : Crier → Crier) : (s.modCrier g f).hbm = s.hbm := rfl
@[simp] theorem State.modCrier_hbmBase (g : Nat) (f : Crier → Crier) : (s.modCrier g f).hbmBase = s.hbmBase := rfl
@[simp] theorem State.modCrier_injected (g : Nat) (f : Crier → Crier) : (s.modCrier g f).injected = s.injected := rfl
@[simp] theorem State.modCrier_hbmEpoch (g : Nat) (f : Crier → Crier) : (s.modCrier g f).hbmEpoch = s.hbmEpoch := rfl
@[simp] theorem State.modCrier_freeCtr (g : Nat) (f : Crier → Crier) : (s.modCrier g f).freeCtr = s.freeCtr := rfl
@[simp] theorem State.modCrier_links (g : Nat) (f : Crier → Crier) : (s.modCrier g f).links = s.links := rfl
@[simp] theorem State.modCrier_xlt (g : Nat) (f : Crier → Crier) : (s.modCrier g f).xlt = s.xlt := rfl
@[simp] theorem State.modCrier_inval (g : Nat) (f : Crier → Crier) : (s.modCrier g f).inval = s.inval := rfl
@[simp] theorem State.modCrier_paths (g : Nat) (f : Crier → Crier) : (s.modCrier g f).paths = s.paths := rfl
@[simp] theorem State.modCrier_hcs (g : Nat) (f : Crier → Crier) : (s.modCrier g f).hcs = s.hcs := rfl
@[simp] theorem State.modCrier_arbs (g : Nat) (f : Crier → Crier) : (s.modCrier g f).arbs = s.arbs := rfl
@[simp] theorem State.modCrier_lfsrs (g : Nat) (f : Crier → Crier) : (s.modCrier g f).lfsrs = s.lfsrs := rfl
@[simp] theorem State.modCrier_grants (g : Nat) (f : Crier → Crier) : (s.modCrier g f).grants = s.grants := rfl
@[simp] theorem State.modCrier_emerged (g : Nat) (f : Crier → Crier) : (s.modCrier g f).emerged = s.emerged := rfl
@[simp] theorem State.modCrier_seeds (g : Nat) (f : Crier → Crier) : (s.modCrier g f).seeds = s.seeds := rfl
@[simp] theorem State.modCrier_twin (g : Nat) (f : Crier → Crier) : (s.modCrier g f).twin = s.twin := rfl
@[simp] theorem State.modCrier_hall (g : Nat) (f : Crier → Crier) : (s.modCrier g f).hall = s.hall := rfl
@[simp] theorem State.modCrier_queues (g : Nat) (f : Crier → Crier) : (s.modCrier g f).queues = s.queues := rfl
@[simp] theorem State.modCrier_rings (g : Nat) (f : Crier → Crier) : (s.modCrier g f).rings = s.rings := rfl
@[simp] theorem State.modCrier_criers (g : Nat) (f : Crier → Crier) : (s.modCrier g f).criers = put s.criers g (f (s.crier g)) := rfl
@[simp] theorem State.modCrier_event (g : Nat) (f : Crier → Crier) : (s.modCrier g f).event = s.event := rfl
@[simp] theorem State.modCrier_stair (g : Nat) (f : Crier → Crier) : (s.modCrier g f).stair = s.stair := rfl
@[simp] theorem State.modCrier_mixers (g : Nat) (f : Crier → Crier) : (s.modCrier g f).mixers = s.mixers := rfl
@[simp] theorem State.modCrier_purser (g : Nat) (f : Crier → Crier) : (s.modCrier g f).purser = s.purser := rfl
@[simp] theorem State.modCrier_clearing (g : Nat) (f : Crier → Crier) : (s.modCrier g f).clearing = s.clearing := rfl
@[simp] theorem State.modCrier_heldRegs (g : Nat) (f : Crier → Crier) : (s.modCrier g f).heldRegs = s.heldRegs := rfl
@[simp] theorem State.modCrier_readRsp (g : Nat) (f : Crier → Crier) : (s.modCrier g f).readRsp = s.readRsp := rfl

/-! ### State.modEvent -/

@[simp] theorem State.modEvent_pending (f : EventSt → EventSt) : (s.modEvent f).pending = s.pending := rfl
@[simp] theorem State.modEvent_regs (f : EventSt → EventSt) : (s.modEvent f).regs = s.regs := rfl
@[simp] theorem State.modEvent_shadow (f : EventSt → EventSt) : (s.modEvent f).shadow = s.shadow := rfl
@[simp] theorem State.modEvent_portRegs (f : EventSt → EventSt) : (s.modEvent f).portRegs = s.portRegs := rfl
@[simp] theorem State.modEvent_straps (f : EventSt → EventSt) : (s.modEvent f).straps = s.straps := rfl
@[simp] theorem State.modEvent_outs (f : EventSt → EventSt) : (s.modEvent f).outs = s.outs := rfl
@[simp] theorem State.modEvent_fuses (f : EventSt → EventSt) : (s.modEvent f).fuses = s.fuses := rfl
@[simp] theorem State.modEvent_boot (f : EventSt → EventSt) : (s.modEvent f).boot = s.boot := rfl
@[simp] theorem State.modEvent_time (f : EventSt → EventSt) : (s.modEvent f).time = s.time := rfl
@[simp] theorem State.modEvent_elog (f : EventSt → EventSt) : (s.modEvent f).elog = s.elog := rfl
@[simp] theorem State.modEvent_faultBufs (f : EventSt → EventSt) : (s.modEvent f).faultBufs = s.faultBufs := rfl
@[simp] theorem State.modEvent_trace (f : EventSt → EventSt) : (s.modEvent f).trace = s.trace := rfl
@[simp] theorem State.modEvent_stw (f : EventSt → EventSt) : (s.modEvent f).stw = s.stw := rfl
@[simp] theorem State.modEvent_tap (f : EventSt → EventSt) : (s.modEvent f).tap = s.tap := rfl
@[simp] theorem State.modEvent_sram (f : EventSt → EventSt) : (s.modEvent f).sram = s.sram := rfl
@[simp] theorem State.modEvent_spares (f : EventSt → EventSt) : (s.modEvent f).spares = s.spares := rfl
@[simp] theorem State.modEvent_ceWindow (f : EventSt → EventSt) : (s.modEvent f).ceWindow = s.ceWindow := rfl
@[simp] theorem State.modEvent_bankRsp (f : EventSt → EventSt) : (s.modEvent f).bankRsp = s.bankRsp := rfl
@[simp] theorem State.modEvent_tinkers (f : EventSt → EventSt) : (s.modEvent f).tinkers = s.tinkers := rfl
@[simp] theorem State.modEvent_hbm (f : EventSt → EventSt) : (s.modEvent f).hbm = s.hbm := rfl
@[simp] theorem State.modEvent_hbmBase (f : EventSt → EventSt) : (s.modEvent f).hbmBase = s.hbmBase := rfl
@[simp] theorem State.modEvent_injected (f : EventSt → EventSt) : (s.modEvent f).injected = s.injected := rfl
@[simp] theorem State.modEvent_hbmEpoch (f : EventSt → EventSt) : (s.modEvent f).hbmEpoch = s.hbmEpoch := rfl
@[simp] theorem State.modEvent_freeCtr (f : EventSt → EventSt) : (s.modEvent f).freeCtr = s.freeCtr := rfl
@[simp] theorem State.modEvent_links (f : EventSt → EventSt) : (s.modEvent f).links = s.links := rfl
@[simp] theorem State.modEvent_xlt (f : EventSt → EventSt) : (s.modEvent f).xlt = s.xlt := rfl
@[simp] theorem State.modEvent_inval (f : EventSt → EventSt) : (s.modEvent f).inval = s.inval := rfl
@[simp] theorem State.modEvent_paths (f : EventSt → EventSt) : (s.modEvent f).paths = s.paths := rfl
@[simp] theorem State.modEvent_hcs (f : EventSt → EventSt) : (s.modEvent f).hcs = s.hcs := rfl
@[simp] theorem State.modEvent_arbs (f : EventSt → EventSt) : (s.modEvent f).arbs = s.arbs := rfl
@[simp] theorem State.modEvent_lfsrs (f : EventSt → EventSt) : (s.modEvent f).lfsrs = s.lfsrs := rfl
@[simp] theorem State.modEvent_grants (f : EventSt → EventSt) : (s.modEvent f).grants = s.grants := rfl
@[simp] theorem State.modEvent_emerged (f : EventSt → EventSt) : (s.modEvent f).emerged = s.emerged := rfl
@[simp] theorem State.modEvent_seeds (f : EventSt → EventSt) : (s.modEvent f).seeds = s.seeds := rfl
@[simp] theorem State.modEvent_twin (f : EventSt → EventSt) : (s.modEvent f).twin = s.twin := rfl
@[simp] theorem State.modEvent_hall (f : EventSt → EventSt) : (s.modEvent f).hall = s.hall := rfl
@[simp] theorem State.modEvent_queues (f : EventSt → EventSt) : (s.modEvent f).queues = s.queues := rfl
@[simp] theorem State.modEvent_rings (f : EventSt → EventSt) : (s.modEvent f).rings = s.rings := rfl
@[simp] theorem State.modEvent_criers (f : EventSt → EventSt) : (s.modEvent f).criers = s.criers := rfl
@[simp] theorem State.modEvent_event (f : EventSt → EventSt) : (s.modEvent f).event = f s.event := rfl
@[simp] theorem State.modEvent_stair (f : EventSt → EventSt) : (s.modEvent f).stair = s.stair := rfl
@[simp] theorem State.modEvent_mixers (f : EventSt → EventSt) : (s.modEvent f).mixers = s.mixers := rfl
@[simp] theorem State.modEvent_purser (f : EventSt → EventSt) : (s.modEvent f).purser = s.purser := rfl
@[simp] theorem State.modEvent_clearing (f : EventSt → EventSt) : (s.modEvent f).clearing = s.clearing := rfl
@[simp] theorem State.modEvent_heldRegs (f : EventSt → EventSt) : (s.modEvent f).heldRegs = s.heldRegs := rfl
@[simp] theorem State.modEvent_readRsp (f : EventSt → EventSt) : (s.modEvent f).readRsp = s.readRsp := rfl

/-! ### State.modHall -/

@[simp] theorem State.modHall_pending (f : Hall → Hall) : (s.modHall f).pending = s.pending := rfl
@[simp] theorem State.modHall_regs (f : Hall → Hall) : (s.modHall f).regs = s.regs := rfl
@[simp] theorem State.modHall_shadow (f : Hall → Hall) : (s.modHall f).shadow = s.shadow := rfl
@[simp] theorem State.modHall_portRegs (f : Hall → Hall) : (s.modHall f).portRegs = s.portRegs := rfl
@[simp] theorem State.modHall_straps (f : Hall → Hall) : (s.modHall f).straps = s.straps := rfl
@[simp] theorem State.modHall_outs (f : Hall → Hall) : (s.modHall f).outs = s.outs := rfl
@[simp] theorem State.modHall_fuses (f : Hall → Hall) : (s.modHall f).fuses = s.fuses := rfl
@[simp] theorem State.modHall_boot (f : Hall → Hall) : (s.modHall f).boot = s.boot := rfl
@[simp] theorem State.modHall_time (f : Hall → Hall) : (s.modHall f).time = s.time := rfl
@[simp] theorem State.modHall_elog (f : Hall → Hall) : (s.modHall f).elog = s.elog := rfl
@[simp] theorem State.modHall_faultBufs (f : Hall → Hall) : (s.modHall f).faultBufs = s.faultBufs := rfl
@[simp] theorem State.modHall_trace (f : Hall → Hall) : (s.modHall f).trace = s.trace := rfl
@[simp] theorem State.modHall_stw (f : Hall → Hall) : (s.modHall f).stw = s.stw := rfl
@[simp] theorem State.modHall_tap (f : Hall → Hall) : (s.modHall f).tap = s.tap := rfl
@[simp] theorem State.modHall_sram (f : Hall → Hall) : (s.modHall f).sram = s.sram := rfl
@[simp] theorem State.modHall_spares (f : Hall → Hall) : (s.modHall f).spares = s.spares := rfl
@[simp] theorem State.modHall_ceWindow (f : Hall → Hall) : (s.modHall f).ceWindow = s.ceWindow := rfl
@[simp] theorem State.modHall_bankRsp (f : Hall → Hall) : (s.modHall f).bankRsp = s.bankRsp := rfl
@[simp] theorem State.modHall_tinkers (f : Hall → Hall) : (s.modHall f).tinkers = s.tinkers := rfl
@[simp] theorem State.modHall_hbm (f : Hall → Hall) : (s.modHall f).hbm = s.hbm := rfl
@[simp] theorem State.modHall_hbmBase (f : Hall → Hall) : (s.modHall f).hbmBase = s.hbmBase := rfl
@[simp] theorem State.modHall_injected (f : Hall → Hall) : (s.modHall f).injected = s.injected := rfl
@[simp] theorem State.modHall_hbmEpoch (f : Hall → Hall) : (s.modHall f).hbmEpoch = s.hbmEpoch := rfl
@[simp] theorem State.modHall_freeCtr (f : Hall → Hall) : (s.modHall f).freeCtr = s.freeCtr := rfl
@[simp] theorem State.modHall_links (f : Hall → Hall) : (s.modHall f).links = s.links := rfl
@[simp] theorem State.modHall_xlt (f : Hall → Hall) : (s.modHall f).xlt = s.xlt := rfl
@[simp] theorem State.modHall_inval (f : Hall → Hall) : (s.modHall f).inval = s.inval := rfl
@[simp] theorem State.modHall_paths (f : Hall → Hall) : (s.modHall f).paths = s.paths := rfl
@[simp] theorem State.modHall_hcs (f : Hall → Hall) : (s.modHall f).hcs = s.hcs := rfl
@[simp] theorem State.modHall_arbs (f : Hall → Hall) : (s.modHall f).arbs = s.arbs := rfl
@[simp] theorem State.modHall_lfsrs (f : Hall → Hall) : (s.modHall f).lfsrs = s.lfsrs := rfl
@[simp] theorem State.modHall_grants (f : Hall → Hall) : (s.modHall f).grants = s.grants := rfl
@[simp] theorem State.modHall_emerged (f : Hall → Hall) : (s.modHall f).emerged = s.emerged := rfl
@[simp] theorem State.modHall_seeds (f : Hall → Hall) : (s.modHall f).seeds = s.seeds := rfl
@[simp] theorem State.modHall_twin (f : Hall → Hall) : (s.modHall f).twin = s.twin := rfl
@[simp] theorem State.modHall_hall (f : Hall → Hall) : (s.modHall f).hall = f s.hall := rfl
@[simp] theorem State.modHall_queues (f : Hall → Hall) : (s.modHall f).queues = s.queues := rfl
@[simp] theorem State.modHall_rings (f : Hall → Hall) : (s.modHall f).rings = s.rings := rfl
@[simp] theorem State.modHall_criers (f : Hall → Hall) : (s.modHall f).criers = s.criers := rfl
@[simp] theorem State.modHall_event (f : Hall → Hall) : (s.modHall f).event = s.event := rfl
@[simp] theorem State.modHall_stair (f : Hall → Hall) : (s.modHall f).stair = s.stair := rfl
@[simp] theorem State.modHall_mixers (f : Hall → Hall) : (s.modHall f).mixers = s.mixers := rfl
@[simp] theorem State.modHall_purser (f : Hall → Hall) : (s.modHall f).purser = s.purser := rfl
@[simp] theorem State.modHall_clearing (f : Hall → Hall) : (s.modHall f).clearing = s.clearing := rfl
@[simp] theorem State.modHall_heldRegs (f : Hall → Hall) : (s.modHall f).heldRegs = s.heldRegs := rfl
@[simp] theorem State.modHall_readRsp (f : Hall → Hall) : (s.modHall f).readRsp = s.readRsp := rfl

/-! ### State.modTwin -/

@[simp] theorem State.modTwin_pending (f : Twin → Twin) : (s.modTwin f).pending = s.pending := rfl
@[simp] theorem State.modTwin_regs (f : Twin → Twin) : (s.modTwin f).regs = s.regs := rfl
@[simp] theorem State.modTwin_shadow (f : Twin → Twin) : (s.modTwin f).shadow = s.shadow := rfl
@[simp] theorem State.modTwin_portRegs (f : Twin → Twin) : (s.modTwin f).portRegs = s.portRegs := rfl
@[simp] theorem State.modTwin_straps (f : Twin → Twin) : (s.modTwin f).straps = s.straps := rfl
@[simp] theorem State.modTwin_outs (f : Twin → Twin) : (s.modTwin f).outs = s.outs := rfl
@[simp] theorem State.modTwin_fuses (f : Twin → Twin) : (s.modTwin f).fuses = s.fuses := rfl
@[simp] theorem State.modTwin_boot (f : Twin → Twin) : (s.modTwin f).boot = s.boot := rfl
@[simp] theorem State.modTwin_time (f : Twin → Twin) : (s.modTwin f).time = s.time := rfl
@[simp] theorem State.modTwin_elog (f : Twin → Twin) : (s.modTwin f).elog = s.elog := rfl
@[simp] theorem State.modTwin_faultBufs (f : Twin → Twin) : (s.modTwin f).faultBufs = s.faultBufs := rfl
@[simp] theorem State.modTwin_trace (f : Twin → Twin) : (s.modTwin f).trace = s.trace := rfl
@[simp] theorem State.modTwin_stw (f : Twin → Twin) : (s.modTwin f).stw = s.stw := rfl
@[simp] theorem State.modTwin_tap (f : Twin → Twin) : (s.modTwin f).tap = s.tap := rfl
@[simp] theorem State.modTwin_sram (f : Twin → Twin) : (s.modTwin f).sram = s.sram := rfl
@[simp] theorem State.modTwin_spares (f : Twin → Twin) : (s.modTwin f).spares = s.spares := rfl
@[simp] theorem State.modTwin_ceWindow (f : Twin → Twin) : (s.modTwin f).ceWindow = s.ceWindow := rfl
@[simp] theorem State.modTwin_bankRsp (f : Twin → Twin) : (s.modTwin f).bankRsp = s.bankRsp := rfl
@[simp] theorem State.modTwin_tinkers (f : Twin → Twin) : (s.modTwin f).tinkers = s.tinkers := rfl
@[simp] theorem State.modTwin_hbm (f : Twin → Twin) : (s.modTwin f).hbm = s.hbm := rfl
@[simp] theorem State.modTwin_hbmBase (f : Twin → Twin) : (s.modTwin f).hbmBase = s.hbmBase := rfl
@[simp] theorem State.modTwin_injected (f : Twin → Twin) : (s.modTwin f).injected = s.injected := rfl
@[simp] theorem State.modTwin_hbmEpoch (f : Twin → Twin) : (s.modTwin f).hbmEpoch = s.hbmEpoch := rfl
@[simp] theorem State.modTwin_freeCtr (f : Twin → Twin) : (s.modTwin f).freeCtr = s.freeCtr := rfl
@[simp] theorem State.modTwin_links (f : Twin → Twin) : (s.modTwin f).links = s.links := rfl
@[simp] theorem State.modTwin_xlt (f : Twin → Twin) : (s.modTwin f).xlt = s.xlt := rfl
@[simp] theorem State.modTwin_inval (f : Twin → Twin) : (s.modTwin f).inval = s.inval := rfl
@[simp] theorem State.modTwin_paths (f : Twin → Twin) : (s.modTwin f).paths = s.paths := rfl
@[simp] theorem State.modTwin_hcs (f : Twin → Twin) : (s.modTwin f).hcs = s.hcs := rfl
@[simp] theorem State.modTwin_arbs (f : Twin → Twin) : (s.modTwin f).arbs = s.arbs := rfl
@[simp] theorem State.modTwin_lfsrs (f : Twin → Twin) : (s.modTwin f).lfsrs = s.lfsrs := rfl
@[simp] theorem State.modTwin_grants (f : Twin → Twin) : (s.modTwin f).grants = s.grants := rfl
@[simp] theorem State.modTwin_emerged (f : Twin → Twin) : (s.modTwin f).emerged = s.emerged := rfl
@[simp] theorem State.modTwin_seeds (f : Twin → Twin) : (s.modTwin f).seeds = s.seeds := rfl
@[simp] theorem State.modTwin_twin (f : Twin → Twin) : (s.modTwin f).twin = f s.twin := rfl
@[simp] theorem State.modTwin_hall (f : Twin → Twin) : (s.modTwin f).hall = s.hall := rfl
@[simp] theorem State.modTwin_queues (f : Twin → Twin) : (s.modTwin f).queues = s.queues := rfl
@[simp] theorem State.modTwin_rings (f : Twin → Twin) : (s.modTwin f).rings = s.rings := rfl
@[simp] theorem State.modTwin_criers (f : Twin → Twin) : (s.modTwin f).criers = s.criers := rfl
@[simp] theorem State.modTwin_event (f : Twin → Twin) : (s.modTwin f).event = s.event := rfl
@[simp] theorem State.modTwin_stair (f : Twin → Twin) : (s.modTwin f).stair = s.stair := rfl
@[simp] theorem State.modTwin_mixers (f : Twin → Twin) : (s.modTwin f).mixers = s.mixers := rfl
@[simp] theorem State.modTwin_purser (f : Twin → Twin) : (s.modTwin f).purser = s.purser := rfl
@[simp] theorem State.modTwin_clearing (f : Twin → Twin) : (s.modTwin f).clearing = s.clearing := rfl
@[simp] theorem State.modTwin_heldRegs (f : Twin → Twin) : (s.modTwin f).heldRegs = s.heldRegs := rfl
@[simp] theorem State.modTwin_readRsp (f : Twin → Twin) : (s.modTwin f).readRsp = s.readRsp := rfl

/-! ### State.modTime -/

@[simp] theorem State.modTime_pending (f : TimeBase → TimeBase) : (s.modTime f).pending = s.pending := rfl
@[simp] theorem State.modTime_regs (f : TimeBase → TimeBase) : (s.modTime f).regs = s.regs := rfl
@[simp] theorem State.modTime_shadow (f : TimeBase → TimeBase) : (s.modTime f).shadow = s.shadow := rfl
@[simp] theorem State.modTime_portRegs (f : TimeBase → TimeBase) : (s.modTime f).portRegs = s.portRegs := rfl
@[simp] theorem State.modTime_straps (f : TimeBase → TimeBase) : (s.modTime f).straps = s.straps := rfl
@[simp] theorem State.modTime_outs (f : TimeBase → TimeBase) : (s.modTime f).outs = s.outs := rfl
@[simp] theorem State.modTime_fuses (f : TimeBase → TimeBase) : (s.modTime f).fuses = s.fuses := rfl
@[simp] theorem State.modTime_boot (f : TimeBase → TimeBase) : (s.modTime f).boot = s.boot := rfl
@[simp] theorem State.modTime_time (f : TimeBase → TimeBase) : (s.modTime f).time = f s.time := rfl
@[simp] theorem State.modTime_elog (f : TimeBase → TimeBase) : (s.modTime f).elog = s.elog := rfl
@[simp] theorem State.modTime_faultBufs (f : TimeBase → TimeBase) : (s.modTime f).faultBufs = s.faultBufs := rfl
@[simp] theorem State.modTime_trace (f : TimeBase → TimeBase) : (s.modTime f).trace = s.trace := rfl
@[simp] theorem State.modTime_stw (f : TimeBase → TimeBase) : (s.modTime f).stw = s.stw := rfl
@[simp] theorem State.modTime_tap (f : TimeBase → TimeBase) : (s.modTime f).tap = s.tap := rfl
@[simp] theorem State.modTime_sram (f : TimeBase → TimeBase) : (s.modTime f).sram = s.sram := rfl
@[simp] theorem State.modTime_spares (f : TimeBase → TimeBase) : (s.modTime f).spares = s.spares := rfl
@[simp] theorem State.modTime_ceWindow (f : TimeBase → TimeBase) : (s.modTime f).ceWindow = s.ceWindow := rfl
@[simp] theorem State.modTime_bankRsp (f : TimeBase → TimeBase) : (s.modTime f).bankRsp = s.bankRsp := rfl
@[simp] theorem State.modTime_tinkers (f : TimeBase → TimeBase) : (s.modTime f).tinkers = s.tinkers := rfl
@[simp] theorem State.modTime_hbm (f : TimeBase → TimeBase) : (s.modTime f).hbm = s.hbm := rfl
@[simp] theorem State.modTime_hbmBase (f : TimeBase → TimeBase) : (s.modTime f).hbmBase = s.hbmBase := rfl
@[simp] theorem State.modTime_injected (f : TimeBase → TimeBase) : (s.modTime f).injected = s.injected := rfl
@[simp] theorem State.modTime_hbmEpoch (f : TimeBase → TimeBase) : (s.modTime f).hbmEpoch = s.hbmEpoch := rfl
@[simp] theorem State.modTime_freeCtr (f : TimeBase → TimeBase) : (s.modTime f).freeCtr = s.freeCtr := rfl
@[simp] theorem State.modTime_links (f : TimeBase → TimeBase) : (s.modTime f).links = s.links := rfl
@[simp] theorem State.modTime_xlt (f : TimeBase → TimeBase) : (s.modTime f).xlt = s.xlt := rfl
@[simp] theorem State.modTime_inval (f : TimeBase → TimeBase) : (s.modTime f).inval = s.inval := rfl
@[simp] theorem State.modTime_paths (f : TimeBase → TimeBase) : (s.modTime f).paths = s.paths := rfl
@[simp] theorem State.modTime_hcs (f : TimeBase → TimeBase) : (s.modTime f).hcs = s.hcs := rfl
@[simp] theorem State.modTime_arbs (f : TimeBase → TimeBase) : (s.modTime f).arbs = s.arbs := rfl
@[simp] theorem State.modTime_lfsrs (f : TimeBase → TimeBase) : (s.modTime f).lfsrs = s.lfsrs := rfl
@[simp] theorem State.modTime_grants (f : TimeBase → TimeBase) : (s.modTime f).grants = s.grants := rfl
@[simp] theorem State.modTime_emerged (f : TimeBase → TimeBase) : (s.modTime f).emerged = s.emerged := rfl
@[simp] theorem State.modTime_seeds (f : TimeBase → TimeBase) : (s.modTime f).seeds = s.seeds := rfl
@[simp] theorem State.modTime_twin (f : TimeBase → TimeBase) : (s.modTime f).twin = s.twin := rfl
@[simp] theorem State.modTime_hall (f : TimeBase → TimeBase) : (s.modTime f).hall = s.hall := rfl
@[simp] theorem State.modTime_queues (f : TimeBase → TimeBase) : (s.modTime f).queues = s.queues := rfl
@[simp] theorem State.modTime_rings (f : TimeBase → TimeBase) : (s.modTime f).rings = s.rings := rfl
@[simp] theorem State.modTime_criers (f : TimeBase → TimeBase) : (s.modTime f).criers = s.criers := rfl
@[simp] theorem State.modTime_event (f : TimeBase → TimeBase) : (s.modTime f).event = s.event := rfl
@[simp] theorem State.modTime_stair (f : TimeBase → TimeBase) : (s.modTime f).stair = s.stair := rfl
@[simp] theorem State.modTime_mixers (f : TimeBase → TimeBase) : (s.modTime f).mixers = s.mixers := rfl
@[simp] theorem State.modTime_purser (f : TimeBase → TimeBase) : (s.modTime f).purser = s.purser := rfl
@[simp] theorem State.modTime_clearing (f : TimeBase → TimeBase) : (s.modTime f).clearing = s.clearing := rfl
@[simp] theorem State.modTime_heldRegs (f : TimeBase → TimeBase) : (s.modTime f).heldRegs = s.heldRegs := rfl
@[simp] theorem State.modTime_readRsp (f : TimeBase → TimeBase) : (s.modTime f).readRsp = s.readRsp := rfl

/-! ### State.modPurser -/

@[simp] theorem State.modPurser_pending (f : Purser → Purser) : (s.modPurser f).pending = s.pending := rfl
@[simp] theorem State.modPurser_regs (f : Purser → Purser) : (s.modPurser f).regs = s.regs := rfl
@[simp] theorem State.modPurser_shadow (f : Purser → Purser) : (s.modPurser f).shadow = s.shadow := rfl
@[simp] theorem State.modPurser_portRegs (f : Purser → Purser) : (s.modPurser f).portRegs = s.portRegs := rfl
@[simp] theorem State.modPurser_straps (f : Purser → Purser) : (s.modPurser f).straps = s.straps := rfl
@[simp] theorem State.modPurser_outs (f : Purser → Purser) : (s.modPurser f).outs = s.outs := rfl
@[simp] theorem State.modPurser_fuses (f : Purser → Purser) : (s.modPurser f).fuses = s.fuses := rfl
@[simp] theorem State.modPurser_boot (f : Purser → Purser) : (s.modPurser f).boot = s.boot := rfl
@[simp] theorem State.modPurser_time (f : Purser → Purser) : (s.modPurser f).time = s.time := rfl
@[simp] theorem State.modPurser_elog (f : Purser → Purser) : (s.modPurser f).elog = s.elog := rfl
@[simp] theorem State.modPurser_faultBufs (f : Purser → Purser) : (s.modPurser f).faultBufs = s.faultBufs := rfl
@[simp] theorem State.modPurser_trace (f : Purser → Purser) : (s.modPurser f).trace = s.trace := rfl
@[simp] theorem State.modPurser_stw (f : Purser → Purser) : (s.modPurser f).stw = s.stw := rfl
@[simp] theorem State.modPurser_tap (f : Purser → Purser) : (s.modPurser f).tap = s.tap := rfl
@[simp] theorem State.modPurser_sram (f : Purser → Purser) : (s.modPurser f).sram = s.sram := rfl
@[simp] theorem State.modPurser_spares (f : Purser → Purser) : (s.modPurser f).spares = s.spares := rfl
@[simp] theorem State.modPurser_ceWindow (f : Purser → Purser) : (s.modPurser f).ceWindow = s.ceWindow := rfl
@[simp] theorem State.modPurser_bankRsp (f : Purser → Purser) : (s.modPurser f).bankRsp = s.bankRsp := rfl
@[simp] theorem State.modPurser_tinkers (f : Purser → Purser) : (s.modPurser f).tinkers = s.tinkers := rfl
@[simp] theorem State.modPurser_hbm (f : Purser → Purser) : (s.modPurser f).hbm = s.hbm := rfl
@[simp] theorem State.modPurser_hbmBase (f : Purser → Purser) : (s.modPurser f).hbmBase = s.hbmBase := rfl
@[simp] theorem State.modPurser_injected (f : Purser → Purser) : (s.modPurser f).injected = s.injected := rfl
@[simp] theorem State.modPurser_hbmEpoch (f : Purser → Purser) : (s.modPurser f).hbmEpoch = s.hbmEpoch := rfl
@[simp] theorem State.modPurser_freeCtr (f : Purser → Purser) : (s.modPurser f).freeCtr = s.freeCtr := rfl
@[simp] theorem State.modPurser_links (f : Purser → Purser) : (s.modPurser f).links = s.links := rfl
@[simp] theorem State.modPurser_xlt (f : Purser → Purser) : (s.modPurser f).xlt = s.xlt := rfl
@[simp] theorem State.modPurser_inval (f : Purser → Purser) : (s.modPurser f).inval = s.inval := rfl
@[simp] theorem State.modPurser_paths (f : Purser → Purser) : (s.modPurser f).paths = s.paths := rfl
@[simp] theorem State.modPurser_hcs (f : Purser → Purser) : (s.modPurser f).hcs = s.hcs := rfl
@[simp] theorem State.modPurser_arbs (f : Purser → Purser) : (s.modPurser f).arbs = s.arbs := rfl
@[simp] theorem State.modPurser_lfsrs (f : Purser → Purser) : (s.modPurser f).lfsrs = s.lfsrs := rfl
@[simp] theorem State.modPurser_grants (f : Purser → Purser) : (s.modPurser f).grants = s.grants := rfl
@[simp] theorem State.modPurser_emerged (f : Purser → Purser) : (s.modPurser f).emerged = s.emerged := rfl
@[simp] theorem State.modPurser_seeds (f : Purser → Purser) : (s.modPurser f).seeds = s.seeds := rfl
@[simp] theorem State.modPurser_twin (f : Purser → Purser) : (s.modPurser f).twin = s.twin := rfl
@[simp] theorem State.modPurser_hall (f : Purser → Purser) : (s.modPurser f).hall = s.hall := rfl
@[simp] theorem State.modPurser_queues (f : Purser → Purser) : (s.modPurser f).queues = s.queues := rfl
@[simp] theorem State.modPurser_rings (f : Purser → Purser) : (s.modPurser f).rings = s.rings := rfl
@[simp] theorem State.modPurser_criers (f : Purser → Purser) : (s.modPurser f).criers = s.criers := rfl
@[simp] theorem State.modPurser_event (f : Purser → Purser) : (s.modPurser f).event = s.event := rfl
@[simp] theorem State.modPurser_stair (f : Purser → Purser) : (s.modPurser f).stair = s.stair := rfl
@[simp] theorem State.modPurser_mixers (f : Purser → Purser) : (s.modPurser f).mixers = s.mixers := rfl
@[simp] theorem State.modPurser_purser (f : Purser → Purser) : (s.modPurser f).purser = f s.purser := rfl
@[simp] theorem State.modPurser_clearing (f : Purser → Purser) : (s.modPurser f).clearing = s.clearing := rfl
@[simp] theorem State.modPurser_heldRegs (f : Purser → Purser) : (s.modPurser f).heldRegs = s.heldRegs := rfl
@[simp] theorem State.modPurser_readRsp (f : Purser → Purser) : (s.modPurser f).readRsp = s.readRsp := rfl

/-! ### State.modTap -/

@[simp] theorem State.modTap_pending (f : Tap → Tap) : (s.modTap f).pending = s.pending := rfl
@[simp] theorem State.modTap_regs (f : Tap → Tap) : (s.modTap f).regs = s.regs := rfl
@[simp] theorem State.modTap_shadow (f : Tap → Tap) : (s.modTap f).shadow = s.shadow := rfl
@[simp] theorem State.modTap_portRegs (f : Tap → Tap) : (s.modTap f).portRegs = s.portRegs := rfl
@[simp] theorem State.modTap_straps (f : Tap → Tap) : (s.modTap f).straps = s.straps := rfl
@[simp] theorem State.modTap_outs (f : Tap → Tap) : (s.modTap f).outs = s.outs := rfl
@[simp] theorem State.modTap_fuses (f : Tap → Tap) : (s.modTap f).fuses = s.fuses := rfl
@[simp] theorem State.modTap_boot (f : Tap → Tap) : (s.modTap f).boot = s.boot := rfl
@[simp] theorem State.modTap_time (f : Tap → Tap) : (s.modTap f).time = s.time := rfl
@[simp] theorem State.modTap_elog (f : Tap → Tap) : (s.modTap f).elog = s.elog := rfl
@[simp] theorem State.modTap_faultBufs (f : Tap → Tap) : (s.modTap f).faultBufs = s.faultBufs := rfl
@[simp] theorem State.modTap_trace (f : Tap → Tap) : (s.modTap f).trace = s.trace := rfl
@[simp] theorem State.modTap_stw (f : Tap → Tap) : (s.modTap f).stw = s.stw := rfl
@[simp] theorem State.modTap_tap (f : Tap → Tap) : (s.modTap f).tap = f s.tap := rfl
@[simp] theorem State.modTap_sram (f : Tap → Tap) : (s.modTap f).sram = s.sram := rfl
@[simp] theorem State.modTap_spares (f : Tap → Tap) : (s.modTap f).spares = s.spares := rfl
@[simp] theorem State.modTap_ceWindow (f : Tap → Tap) : (s.modTap f).ceWindow = s.ceWindow := rfl
@[simp] theorem State.modTap_bankRsp (f : Tap → Tap) : (s.modTap f).bankRsp = s.bankRsp := rfl
@[simp] theorem State.modTap_tinkers (f : Tap → Tap) : (s.modTap f).tinkers = s.tinkers := rfl
@[simp] theorem State.modTap_hbm (f : Tap → Tap) : (s.modTap f).hbm = s.hbm := rfl
@[simp] theorem State.modTap_hbmBase (f : Tap → Tap) : (s.modTap f).hbmBase = s.hbmBase := rfl
@[simp] theorem State.modTap_injected (f : Tap → Tap) : (s.modTap f).injected = s.injected := rfl
@[simp] theorem State.modTap_hbmEpoch (f : Tap → Tap) : (s.modTap f).hbmEpoch = s.hbmEpoch := rfl
@[simp] theorem State.modTap_freeCtr (f : Tap → Tap) : (s.modTap f).freeCtr = s.freeCtr := rfl
@[simp] theorem State.modTap_links (f : Tap → Tap) : (s.modTap f).links = s.links := rfl
@[simp] theorem State.modTap_xlt (f : Tap → Tap) : (s.modTap f).xlt = s.xlt := rfl
@[simp] theorem State.modTap_inval (f : Tap → Tap) : (s.modTap f).inval = s.inval := rfl
@[simp] theorem State.modTap_paths (f : Tap → Tap) : (s.modTap f).paths = s.paths := rfl
@[simp] theorem State.modTap_hcs (f : Tap → Tap) : (s.modTap f).hcs = s.hcs := rfl
@[simp] theorem State.modTap_arbs (f : Tap → Tap) : (s.modTap f).arbs = s.arbs := rfl
@[simp] theorem State.modTap_lfsrs (f : Tap → Tap) : (s.modTap f).lfsrs = s.lfsrs := rfl
@[simp] theorem State.modTap_grants (f : Tap → Tap) : (s.modTap f).grants = s.grants := rfl
@[simp] theorem State.modTap_emerged (f : Tap → Tap) : (s.modTap f).emerged = s.emerged := rfl
@[simp] theorem State.modTap_seeds (f : Tap → Tap) : (s.modTap f).seeds = s.seeds := rfl
@[simp] theorem State.modTap_twin (f : Tap → Tap) : (s.modTap f).twin = s.twin := rfl
@[simp] theorem State.modTap_hall (f : Tap → Tap) : (s.modTap f).hall = s.hall := rfl
@[simp] theorem State.modTap_queues (f : Tap → Tap) : (s.modTap f).queues = s.queues := rfl
@[simp] theorem State.modTap_rings (f : Tap → Tap) : (s.modTap f).rings = s.rings := rfl
@[simp] theorem State.modTap_criers (f : Tap → Tap) : (s.modTap f).criers = s.criers := rfl
@[simp] theorem State.modTap_event (f : Tap → Tap) : (s.modTap f).event = s.event := rfl
@[simp] theorem State.modTap_stair (f : Tap → Tap) : (s.modTap f).stair = s.stair := rfl
@[simp] theorem State.modTap_mixers (f : Tap → Tap) : (s.modTap f).mixers = s.mixers := rfl
@[simp] theorem State.modTap_purser (f : Tap → Tap) : (s.modTap f).purser = s.purser := rfl
@[simp] theorem State.modTap_clearing (f : Tap → Tap) : (s.modTap f).clearing = s.clearing := rfl
@[simp] theorem State.modTap_heldRegs (f : Tap → Tap) : (s.modTap f).heldRegs = s.heldRegs := rfl
@[simp] theorem State.modTap_readRsp (f : Tap → Tap) : (s.modTap f).readRsp = s.readRsp := rfl

/-! ### State.setMix -/

@[simp] theorem State.setMix_pending (g : Nat) (m : MixSt) : (s.setMix g m).pending = s.pending := rfl
@[simp] theorem State.setMix_regs (g : Nat) (m : MixSt) : (s.setMix g m).regs = s.regs := rfl
@[simp] theorem State.setMix_shadow (g : Nat) (m : MixSt) : (s.setMix g m).shadow = s.shadow := rfl
@[simp] theorem State.setMix_portRegs (g : Nat) (m : MixSt) : (s.setMix g m).portRegs = s.portRegs := rfl
@[simp] theorem State.setMix_straps (g : Nat) (m : MixSt) : (s.setMix g m).straps = s.straps := rfl
@[simp] theorem State.setMix_outs (g : Nat) (m : MixSt) : (s.setMix g m).outs = s.outs := rfl
@[simp] theorem State.setMix_fuses (g : Nat) (m : MixSt) : (s.setMix g m).fuses = s.fuses := rfl
@[simp] theorem State.setMix_boot (g : Nat) (m : MixSt) : (s.setMix g m).boot = s.boot := rfl
@[simp] theorem State.setMix_time (g : Nat) (m : MixSt) : (s.setMix g m).time = s.time := rfl
@[simp] theorem State.setMix_elog (g : Nat) (m : MixSt) : (s.setMix g m).elog = s.elog := rfl
@[simp] theorem State.setMix_faultBufs (g : Nat) (m : MixSt) : (s.setMix g m).faultBufs = s.faultBufs := rfl
@[simp] theorem State.setMix_trace (g : Nat) (m : MixSt) : (s.setMix g m).trace = s.trace := rfl
@[simp] theorem State.setMix_stw (g : Nat) (m : MixSt) : (s.setMix g m).stw = s.stw := rfl
@[simp] theorem State.setMix_tap (g : Nat) (m : MixSt) : (s.setMix g m).tap = s.tap := rfl
@[simp] theorem State.setMix_sram (g : Nat) (m : MixSt) : (s.setMix g m).sram = s.sram := rfl
@[simp] theorem State.setMix_spares (g : Nat) (m : MixSt) : (s.setMix g m).spares = s.spares := rfl
@[simp] theorem State.setMix_ceWindow (g : Nat) (m : MixSt) : (s.setMix g m).ceWindow = s.ceWindow := rfl
@[simp] theorem State.setMix_bankRsp (g : Nat) (m : MixSt) : (s.setMix g m).bankRsp = s.bankRsp := rfl
@[simp] theorem State.setMix_tinkers (g : Nat) (m : MixSt) : (s.setMix g m).tinkers = s.tinkers := rfl
@[simp] theorem State.setMix_hbm (g : Nat) (m : MixSt) : (s.setMix g m).hbm = s.hbm := rfl
@[simp] theorem State.setMix_hbmBase (g : Nat) (m : MixSt) : (s.setMix g m).hbmBase = s.hbmBase := rfl
@[simp] theorem State.setMix_injected (g : Nat) (m : MixSt) : (s.setMix g m).injected = s.injected := rfl
@[simp] theorem State.setMix_hbmEpoch (g : Nat) (m : MixSt) : (s.setMix g m).hbmEpoch = s.hbmEpoch := rfl
@[simp] theorem State.setMix_freeCtr (g : Nat) (m : MixSt) : (s.setMix g m).freeCtr = s.freeCtr := rfl
@[simp] theorem State.setMix_links (g : Nat) (m : MixSt) : (s.setMix g m).links = s.links := rfl
@[simp] theorem State.setMix_xlt (g : Nat) (m : MixSt) : (s.setMix g m).xlt = s.xlt := rfl
@[simp] theorem State.setMix_inval (g : Nat) (m : MixSt) : (s.setMix g m).inval = s.inval := rfl
@[simp] theorem State.setMix_paths (g : Nat) (m : MixSt) : (s.setMix g m).paths = s.paths := rfl
@[simp] theorem State.setMix_hcs (g : Nat) (m : MixSt) : (s.setMix g m).hcs = s.hcs := rfl
@[simp] theorem State.setMix_arbs (g : Nat) (m : MixSt) : (s.setMix g m).arbs = s.arbs := rfl
@[simp] theorem State.setMix_lfsrs (g : Nat) (m : MixSt) : (s.setMix g m).lfsrs = s.lfsrs := rfl
@[simp] theorem State.setMix_grants (g : Nat) (m : MixSt) : (s.setMix g m).grants = s.grants := rfl
@[simp] theorem State.setMix_emerged (g : Nat) (m : MixSt) : (s.setMix g m).emerged = s.emerged := rfl
@[simp] theorem State.setMix_seeds (g : Nat) (m : MixSt) : (s.setMix g m).seeds = s.seeds := rfl
@[simp] theorem State.setMix_twin (g : Nat) (m : MixSt) : (s.setMix g m).twin = s.twin := rfl
@[simp] theorem State.setMix_hall (g : Nat) (m : MixSt) : (s.setMix g m).hall = s.hall := rfl
@[simp] theorem State.setMix_queues (g : Nat) (m : MixSt) : (s.setMix g m).queues = s.queues := rfl
@[simp] theorem State.setMix_rings (g : Nat) (m : MixSt) : (s.setMix g m).rings = s.rings := rfl
@[simp] theorem State.setMix_criers (g : Nat) (m : MixSt) : (s.setMix g m).criers = s.criers := rfl
@[simp] theorem State.setMix_event (g : Nat) (m : MixSt) : (s.setMix g m).event = s.event := rfl
@[simp] theorem State.setMix_stair (g : Nat) (m : MixSt) : (s.setMix g m).stair = s.stair := rfl
@[simp] theorem State.setMix_mixers (g : Nat) (m : MixSt) : (s.setMix g m).mixers = put s.mixers g m := rfl
@[simp] theorem State.setMix_purser (g : Nat) (m : MixSt) : (s.setMix g m).purser = s.purser := rfl
@[simp] theorem State.setMix_clearing (g : Nat) (m : MixSt) : (s.setMix g m).clearing = s.clearing := rfl
@[simp] theorem State.setMix_heldRegs (g : Nat) (m : MixSt) : (s.setMix g m).heldRegs = s.heldRegs := rfl
@[simp] theorem State.setMix_readRsp (g : Nat) (m : MixSt) : (s.setMix g m).readRsp = s.readRsp := rfl

/-! ### State.setFaultBuf -/

@[simp] theorem State.setFaultBuf_pending (c : Nat) (b : FaultBuf) : (s.setFaultBuf c b).pending = s.pending := rfl
@[simp] theorem State.setFaultBuf_regs (c : Nat) (b : FaultBuf) : (s.setFaultBuf c b).regs = s.regs := rfl
@[simp] theorem State.setFaultBuf_shadow (c : Nat) (b : FaultBuf) : (s.setFaultBuf c b).shadow = s.shadow := rfl
@[simp] theorem State.setFaultBuf_portRegs (c : Nat) (b : FaultBuf) : (s.setFaultBuf c b).portRegs = s.portRegs := rfl
@[simp] theorem State.setFaultBuf_straps (c : Nat) (b : FaultBuf) : (s.setFaultBuf c b).straps = s.straps := rfl
@[simp] theorem State.setFaultBuf_outs (c : Nat) (b : FaultBuf) : (s.setFaultBuf c b).outs = s.outs := rfl
@[simp] theorem State.setFaultBuf_fuses (c : Nat) (b : FaultBuf) : (s.setFaultBuf c b).fuses = s.fuses := rfl
@[simp] theorem State.setFaultBuf_boot (c : Nat) (b : FaultBuf) : (s.setFaultBuf c b).boot = s.boot := rfl
@[simp] theorem State.setFaultBuf_time (c : Nat) (b : FaultBuf) : (s.setFaultBuf c b).time = s.time := rfl
@[simp] theorem State.setFaultBuf_elog (c : Nat) (b : FaultBuf) : (s.setFaultBuf c b).elog = s.elog := rfl
@[simp] theorem State.setFaultBuf_faultBufs (c : Nat) (b : FaultBuf) : (s.setFaultBuf c b).faultBufs = put s.faultBufs c b := rfl
@[simp] theorem State.setFaultBuf_trace (c : Nat) (b : FaultBuf) : (s.setFaultBuf c b).trace = s.trace := rfl
@[simp] theorem State.setFaultBuf_stw (c : Nat) (b : FaultBuf) : (s.setFaultBuf c b).stw = s.stw := rfl
@[simp] theorem State.setFaultBuf_tap (c : Nat) (b : FaultBuf) : (s.setFaultBuf c b).tap = s.tap := rfl
@[simp] theorem State.setFaultBuf_sram (c : Nat) (b : FaultBuf) : (s.setFaultBuf c b).sram = s.sram := rfl
@[simp] theorem State.setFaultBuf_spares (c : Nat) (b : FaultBuf) : (s.setFaultBuf c b).spares = s.spares := rfl
@[simp] theorem State.setFaultBuf_ceWindow (c : Nat) (b : FaultBuf) : (s.setFaultBuf c b).ceWindow = s.ceWindow := rfl
@[simp] theorem State.setFaultBuf_bankRsp (c : Nat) (b : FaultBuf) : (s.setFaultBuf c b).bankRsp = s.bankRsp := rfl
@[simp] theorem State.setFaultBuf_tinkers (c : Nat) (b : FaultBuf) : (s.setFaultBuf c b).tinkers = s.tinkers := rfl
@[simp] theorem State.setFaultBuf_hbm (c : Nat) (b : FaultBuf) : (s.setFaultBuf c b).hbm = s.hbm := rfl
@[simp] theorem State.setFaultBuf_hbmBase (c : Nat) (b : FaultBuf) : (s.setFaultBuf c b).hbmBase = s.hbmBase := rfl
@[simp] theorem State.setFaultBuf_injected (c : Nat) (b : FaultBuf) : (s.setFaultBuf c b).injected = s.injected := rfl
@[simp] theorem State.setFaultBuf_hbmEpoch (c : Nat) (b : FaultBuf) : (s.setFaultBuf c b).hbmEpoch = s.hbmEpoch := rfl
@[simp] theorem State.setFaultBuf_freeCtr (c : Nat) (b : FaultBuf) : (s.setFaultBuf c b).freeCtr = s.freeCtr := rfl
@[simp] theorem State.setFaultBuf_links (c : Nat) (b : FaultBuf) : (s.setFaultBuf c b).links = s.links := rfl
@[simp] theorem State.setFaultBuf_xlt (c : Nat) (b : FaultBuf) : (s.setFaultBuf c b).xlt = s.xlt := rfl
@[simp] theorem State.setFaultBuf_inval (c : Nat) (b : FaultBuf) : (s.setFaultBuf c b).inval = s.inval := rfl
@[simp] theorem State.setFaultBuf_paths (c : Nat) (b : FaultBuf) : (s.setFaultBuf c b).paths = s.paths := rfl
@[simp] theorem State.setFaultBuf_hcs (c : Nat) (b : FaultBuf) : (s.setFaultBuf c b).hcs = s.hcs := rfl
@[simp] theorem State.setFaultBuf_arbs (c : Nat) (b : FaultBuf) : (s.setFaultBuf c b).arbs = s.arbs := rfl
@[simp] theorem State.setFaultBuf_lfsrs (c : Nat) (b : FaultBuf) : (s.setFaultBuf c b).lfsrs = s.lfsrs := rfl
@[simp] theorem State.setFaultBuf_grants (c : Nat) (b : FaultBuf) : (s.setFaultBuf c b).grants = s.grants := rfl
@[simp] theorem State.setFaultBuf_emerged (c : Nat) (b : FaultBuf) : (s.setFaultBuf c b).emerged = s.emerged := rfl
@[simp] theorem State.setFaultBuf_seeds (c : Nat) (b : FaultBuf) : (s.setFaultBuf c b).seeds = s.seeds := rfl
@[simp] theorem State.setFaultBuf_twin (c : Nat) (b : FaultBuf) : (s.setFaultBuf c b).twin = s.twin := rfl
@[simp] theorem State.setFaultBuf_hall (c : Nat) (b : FaultBuf) : (s.setFaultBuf c b).hall = s.hall := rfl
@[simp] theorem State.setFaultBuf_queues (c : Nat) (b : FaultBuf) : (s.setFaultBuf c b).queues = s.queues := rfl
@[simp] theorem State.setFaultBuf_rings (c : Nat) (b : FaultBuf) : (s.setFaultBuf c b).rings = s.rings := rfl
@[simp] theorem State.setFaultBuf_criers (c : Nat) (b : FaultBuf) : (s.setFaultBuf c b).criers = s.criers := rfl
@[simp] theorem State.setFaultBuf_event (c : Nat) (b : FaultBuf) : (s.setFaultBuf c b).event = s.event := rfl
@[simp] theorem State.setFaultBuf_stair (c : Nat) (b : FaultBuf) : (s.setFaultBuf c b).stair = s.stair := rfl
@[simp] theorem State.setFaultBuf_mixers (c : Nat) (b : FaultBuf) : (s.setFaultBuf c b).mixers = s.mixers := rfl
@[simp] theorem State.setFaultBuf_purser (c : Nat) (b : FaultBuf) : (s.setFaultBuf c b).purser = s.purser := rfl
@[simp] theorem State.setFaultBuf_clearing (c : Nat) (b : FaultBuf) : (s.setFaultBuf c b).clearing = s.clearing := rfl
@[simp] theorem State.setFaultBuf_heldRegs (c : Nat) (b : FaultBuf) : (s.setFaultBuf c b).heldRegs = s.heldRegs := rfl
@[simp] theorem State.setFaultBuf_readRsp (c : Nat) (b : FaultBuf) : (s.setFaultBuf c b).readRsp = s.readRsp := rfl

/-! ### State.setStairBuf -/

@[simp] theorem State.setStairBuf_pending (key : Nat) (q : List StairMsg) : (s.setStairBuf key q).pending = s.pending := rfl
@[simp] theorem State.setStairBuf_regs (key : Nat) (q : List StairMsg) : (s.setStairBuf key q).regs = s.regs := rfl
@[simp] theorem State.setStairBuf_shadow (key : Nat) (q : List StairMsg) : (s.setStairBuf key q).shadow = s.shadow := rfl
@[simp] theorem State.setStairBuf_portRegs (key : Nat) (q : List StairMsg) : (s.setStairBuf key q).portRegs = s.portRegs := rfl
@[simp] theorem State.setStairBuf_straps (key : Nat) (q : List StairMsg) : (s.setStairBuf key q).straps = s.straps := rfl
@[simp] theorem State.setStairBuf_outs (key : Nat) (q : List StairMsg) : (s.setStairBuf key q).outs = s.outs := rfl
@[simp] theorem State.setStairBuf_fuses (key : Nat) (q : List StairMsg) : (s.setStairBuf key q).fuses = s.fuses := rfl
@[simp] theorem State.setStairBuf_boot (key : Nat) (q : List StairMsg) : (s.setStairBuf key q).boot = s.boot := rfl
@[simp] theorem State.setStairBuf_time (key : Nat) (q : List StairMsg) : (s.setStairBuf key q).time = s.time := rfl
@[simp] theorem State.setStairBuf_elog (key : Nat) (q : List StairMsg) : (s.setStairBuf key q).elog = s.elog := rfl
@[simp] theorem State.setStairBuf_faultBufs (key : Nat) (q : List StairMsg) : (s.setStairBuf key q).faultBufs = s.faultBufs := rfl
@[simp] theorem State.setStairBuf_trace (key : Nat) (q : List StairMsg) : (s.setStairBuf key q).trace = s.trace := rfl
@[simp] theorem State.setStairBuf_stw (key : Nat) (q : List StairMsg) : (s.setStairBuf key q).stw = s.stw := rfl
@[simp] theorem State.setStairBuf_tap (key : Nat) (q : List StairMsg) : (s.setStairBuf key q).tap = s.tap := rfl
@[simp] theorem State.setStairBuf_sram (key : Nat) (q : List StairMsg) : (s.setStairBuf key q).sram = s.sram := rfl
@[simp] theorem State.setStairBuf_spares (key : Nat) (q : List StairMsg) : (s.setStairBuf key q).spares = s.spares := rfl
@[simp] theorem State.setStairBuf_ceWindow (key : Nat) (q : List StairMsg) : (s.setStairBuf key q).ceWindow = s.ceWindow := rfl
@[simp] theorem State.setStairBuf_bankRsp (key : Nat) (q : List StairMsg) : (s.setStairBuf key q).bankRsp = s.bankRsp := rfl
@[simp] theorem State.setStairBuf_tinkers (key : Nat) (q : List StairMsg) : (s.setStairBuf key q).tinkers = s.tinkers := rfl
@[simp] theorem State.setStairBuf_hbm (key : Nat) (q : List StairMsg) : (s.setStairBuf key q).hbm = s.hbm := rfl
@[simp] theorem State.setStairBuf_hbmBase (key : Nat) (q : List StairMsg) : (s.setStairBuf key q).hbmBase = s.hbmBase := rfl
@[simp] theorem State.setStairBuf_injected (key : Nat) (q : List StairMsg) : (s.setStairBuf key q).injected = s.injected := rfl
@[simp] theorem State.setStairBuf_hbmEpoch (key : Nat) (q : List StairMsg) : (s.setStairBuf key q).hbmEpoch = s.hbmEpoch := rfl
@[simp] theorem State.setStairBuf_freeCtr (key : Nat) (q : List StairMsg) : (s.setStairBuf key q).freeCtr = s.freeCtr := rfl
@[simp] theorem State.setStairBuf_links (key : Nat) (q : List StairMsg) : (s.setStairBuf key q).links = s.links := rfl
@[simp] theorem State.setStairBuf_xlt (key : Nat) (q : List StairMsg) : (s.setStairBuf key q).xlt = s.xlt := rfl
@[simp] theorem State.setStairBuf_inval (key : Nat) (q : List StairMsg) : (s.setStairBuf key q).inval = s.inval := rfl
@[simp] theorem State.setStairBuf_paths (key : Nat) (q : List StairMsg) : (s.setStairBuf key q).paths = s.paths := rfl
@[simp] theorem State.setStairBuf_hcs (key : Nat) (q : List StairMsg) : (s.setStairBuf key q).hcs = s.hcs := rfl
@[simp] theorem State.setStairBuf_arbs (key : Nat) (q : List StairMsg) : (s.setStairBuf key q).arbs = s.arbs := rfl
@[simp] theorem State.setStairBuf_lfsrs (key : Nat) (q : List StairMsg) : (s.setStairBuf key q).lfsrs = s.lfsrs := rfl
@[simp] theorem State.setStairBuf_grants (key : Nat) (q : List StairMsg) : (s.setStairBuf key q).grants = s.grants := rfl
@[simp] theorem State.setStairBuf_emerged (key : Nat) (q : List StairMsg) : (s.setStairBuf key q).emerged = s.emerged := rfl
@[simp] theorem State.setStairBuf_seeds (key : Nat) (q : List StairMsg) : (s.setStairBuf key q).seeds = s.seeds := rfl
@[simp] theorem State.setStairBuf_twin (key : Nat) (q : List StairMsg) : (s.setStairBuf key q).twin = s.twin := rfl
@[simp] theorem State.setStairBuf_hall (key : Nat) (q : List StairMsg) : (s.setStairBuf key q).hall = s.hall := rfl
@[simp] theorem State.setStairBuf_queues (key : Nat) (q : List StairMsg) : (s.setStairBuf key q).queues = s.queues := rfl
@[simp] theorem State.setStairBuf_rings (key : Nat) (q : List StairMsg) : (s.setStairBuf key q).rings = s.rings := rfl
@[simp] theorem State.setStairBuf_criers (key : Nat) (q : List StairMsg) : (s.setStairBuf key q).criers = s.criers := rfl
@[simp] theorem State.setStairBuf_event (key : Nat) (q : List StairMsg) : (s.setStairBuf key q).event = s.event := rfl
@[simp] theorem State.setStairBuf_mixers (key : Nat) (q : List StairMsg) : (s.setStairBuf key q).mixers = s.mixers := rfl
@[simp] theorem State.setStairBuf_purser (key : Nat) (q : List StairMsg) : (s.setStairBuf key q).purser = s.purser := rfl
@[simp] theorem State.setStairBuf_clearing (key : Nat) (q : List StairMsg) : (s.setStairBuf key q).clearing = s.clearing := rfl
@[simp] theorem State.setStairBuf_heldRegs (key : Nat) (q : List StairMsg) : (s.setStairBuf key q).heldRegs = s.heldRegs := rfl
@[simp] theorem State.setStairBuf_readRsp (key : Nat) (q : List StairMsg) : (s.setStairBuf key q).readRsp = s.readRsp := rfl

/-! ### State.withFront -/

@[simp] theorem State.withFront_pending (c : Instr) : (s.withFront c).pending = c :: s.pending := rfl
@[simp] theorem State.withFront_regs (c : Instr) : (s.withFront c).regs = s.regs := rfl
@[simp] theorem State.withFront_shadow (c : Instr) : (s.withFront c).shadow = s.shadow := rfl
@[simp] theorem State.withFront_portRegs (c : Instr) : (s.withFront c).portRegs = s.portRegs := rfl
@[simp] theorem State.withFront_straps (c : Instr) : (s.withFront c).straps = s.straps := rfl
@[simp] theorem State.withFront_outs (c : Instr) : (s.withFront c).outs = s.outs := rfl
@[simp] theorem State.withFront_fuses (c : Instr) : (s.withFront c).fuses = s.fuses := rfl
@[simp] theorem State.withFront_boot (c : Instr) : (s.withFront c).boot = s.boot := rfl
@[simp] theorem State.withFront_time (c : Instr) : (s.withFront c).time = s.time := rfl
@[simp] theorem State.withFront_elog (c : Instr) : (s.withFront c).elog = s.elog := rfl
@[simp] theorem State.withFront_faultBufs (c : Instr) : (s.withFront c).faultBufs = s.faultBufs := rfl
@[simp] theorem State.withFront_trace (c : Instr) : (s.withFront c).trace = s.trace := rfl
@[simp] theorem State.withFront_stw (c : Instr) : (s.withFront c).stw = s.stw := rfl
@[simp] theorem State.withFront_tap (c : Instr) : (s.withFront c).tap = s.tap := rfl
@[simp] theorem State.withFront_sram (c : Instr) : (s.withFront c).sram = s.sram := rfl
@[simp] theorem State.withFront_spares (c : Instr) : (s.withFront c).spares = s.spares := rfl
@[simp] theorem State.withFront_ceWindow (c : Instr) : (s.withFront c).ceWindow = s.ceWindow := rfl
@[simp] theorem State.withFront_bankRsp (c : Instr) : (s.withFront c).bankRsp = s.bankRsp := rfl
@[simp] theorem State.withFront_tinkers (c : Instr) : (s.withFront c).tinkers = s.tinkers := rfl
@[simp] theorem State.withFront_hbm (c : Instr) : (s.withFront c).hbm = s.hbm := rfl
@[simp] theorem State.withFront_hbmBase (c : Instr) : (s.withFront c).hbmBase = s.hbmBase := rfl
@[simp] theorem State.withFront_injected (c : Instr) : (s.withFront c).injected = s.injected := rfl
@[simp] theorem State.withFront_hbmEpoch (c : Instr) : (s.withFront c).hbmEpoch = s.hbmEpoch := rfl
@[simp] theorem State.withFront_freeCtr (c : Instr) : (s.withFront c).freeCtr = s.freeCtr := rfl
@[simp] theorem State.withFront_links (c : Instr) : (s.withFront c).links = s.links := rfl
@[simp] theorem State.withFront_xlt (c : Instr) : (s.withFront c).xlt = s.xlt := rfl
@[simp] theorem State.withFront_inval (c : Instr) : (s.withFront c).inval = s.inval := rfl
@[simp] theorem State.withFront_paths (c : Instr) : (s.withFront c).paths = s.paths := rfl
@[simp] theorem State.withFront_hcs (c : Instr) : (s.withFront c).hcs = s.hcs := rfl
@[simp] theorem State.withFront_arbs (c : Instr) : (s.withFront c).arbs = s.arbs := rfl
@[simp] theorem State.withFront_lfsrs (c : Instr) : (s.withFront c).lfsrs = s.lfsrs := rfl
@[simp] theorem State.withFront_grants (c : Instr) : (s.withFront c).grants = s.grants := rfl
@[simp] theorem State.withFront_emerged (c : Instr) : (s.withFront c).emerged = s.emerged := rfl
@[simp] theorem State.withFront_seeds (c : Instr) : (s.withFront c).seeds = s.seeds := rfl
@[simp] theorem State.withFront_twin (c : Instr) : (s.withFront c).twin = s.twin := rfl
@[simp] theorem State.withFront_hall (c : Instr) : (s.withFront c).hall = s.hall := rfl
@[simp] theorem State.withFront_queues (c : Instr) : (s.withFront c).queues = s.queues := rfl
@[simp] theorem State.withFront_rings (c : Instr) : (s.withFront c).rings = s.rings := rfl
@[simp] theorem State.withFront_criers (c : Instr) : (s.withFront c).criers = s.criers := rfl
@[simp] theorem State.withFront_event (c : Instr) : (s.withFront c).event = s.event := rfl
@[simp] theorem State.withFront_stair (c : Instr) : (s.withFront c).stair = s.stair := rfl
@[simp] theorem State.withFront_mixers (c : Instr) : (s.withFront c).mixers = s.mixers := rfl
@[simp] theorem State.withFront_purser (c : Instr) : (s.withFront c).purser = s.purser := rfl
@[simp] theorem State.withFront_clearing (c : Instr) : (s.withFront c).clearing = s.clearing := rfl
@[simp] theorem State.withFront_heldRegs (c : Instr) : (s.withFront c).heldRegs = s.heldRegs := rfl
@[simp] theorem State.withFront_readRsp (c : Instr) : (s.withFront c).readRsp = s.readRsp := rfl

end Sys2Proof.Machine
end

