-- ==== Sys2Proof/Laws/Finish.lean ====
section
/-! SUPPORT. The end of a step: on a quiet state it changes nothing, and what keeps a state quiet. -/

namespace Sys2Proof.Machine

theorem State.quiet_iff (s : State) : s.quiet = true ↔ s.hall.answers = [] ∧ s.heldRegs = [] ∧
    (s.event.opened = false ∨ ((∀ g < 8, (s.crier g).answer.all (· == 0) = true) ∧
      ∃ g < 8, (s.crier g).answer = none)) := by
  simp [State.quiet, List.isEmpty_iff, and_assoc]

/-- Taking the answers for a class of requesters from an empty list is nothing. -/
theorem State.modHall_nil (s : State) (f : TallyAns → Bool) (h : s.hall.answers = []) :
    s.modHall (fun x => { x with answers := x.answers.filter f }) = s := by
  cases s with | mk => simp_all [State.modHall]; cases ‹Hall›; simp_all

theorem State.engAnswers_nil (s : State) (h : s.hall.answers = []) : s.engAnswers = s := by
  unfold State.engAnswers
  rw [State.modHall_nil s _ h, h]; rfl

theorem State.ringAnswers_nil (s : State) (h : s.hall.answers = []) : s.ringAnswers = s := by
  unfold State.ringAnswers
  rw [State.modHall_nil s _ h, h]; rfl

theorem State.crierAnswers_nil (s : State) (h : s.hall.answers = []) : s.crierAnswers = s := by
  unfold State.crierAnswers
  rw [State.modHall_nil s _ h, h]; rfl

/-- A quiet state is settled. -/
theorem State.settle_quiet (s : State) (h : s.quiet = true) : s.settle = s := by
  obtain ⟨ha, -, hc⟩ := s.quiet_iff.1 h
  unfold State.settle State.stepSettle
  rw [s.engAnswers_nil ha, s.ringAnswers_nil ha, s.crierAnswers_nil ha]
  rcases hc with hc | ⟨h0, g, hg, hn⟩
  · simp [hc]
  · have hf : ((List.range 8).find? fun g => (s.crier g).answer.any (· != 0)) = none := by
      simp only [List.find?_eq_none, List.mem_range]
      intro x hx
      have := h0 x hx
      cases hx : (s.crier x).answer <;> simp_all
    have hall : ((List.range 8).all fun g => (s.crier g).answer == some 0) = false := by
      simp only [List.all_eq_false, List.mem_range]
      exact ⟨g, hg, by simp [hn]⟩
    simp only [hf, hall]
    simp

/-- The end of a step changes nothing in a quiet state. -/
theorem State.finish_quiet (s : State) (h : s.quiet = true) : s.finish = s := by
  unfold State.finish
  rw [s.settle_quiet h]
  simp [(s.quiet_iff.1 h).2.1]

/-- What quietness looks at. -/
theorem State.quiet_congr (s t : State) (hh : t.hall.answers = s.hall.answers) (hr : t.heldRegs = s.heldRegs)
    (he : t.event.opened = s.event.opened) (hc : t.criers = s.criers) : t.quiet = s.quiet := by
  simp [State.quiet, State.crier, hh, hr, he, hc]

end Sys2Proof.Machine
end

