-- ==== Sys2Proof/Laws/Tables.lean ====
section
/-! SUPPORT. Sparse tables: a read after a write, and that every operation keeps the keys rising; folds. -/

namespace Sys2Proof.Machine

variable {α σ : Type}

@[simp] theorem find_put_same (m : List (Nat × α)) (k : Nat) (v : α) : find (put m k v) k = some v := by
  induction m with
  | nil => simp [put, find]
  | cons e m ih =>
    obtain ⟨a, u⟩ := e
    simp only [put]
    split
    · simp [find]
    · split
      · simp [find]
      · rename_i h; simp [find, Ne.symm h, ih]

theorem find_put_ne (m : List (Nat × α)) {k k' : Nat} (v : α) (h : k' ≠ k) : find (put m k v) k' = find m k' := by
  induction m with
  | nil => simp [put, find, Ne.symm h]
  | cons e m ih =>
    obtain ⟨a, u⟩ := e
    simp only [put]
    split
    · simp [find, Ne.symm h]
    · split
      · rename_i h1; subst h1; simp [find, Ne.symm h]
      · simp [find, ih]

theorem find_put (m : List (Nat × α)) (k k' : Nat) (v : α) :
    find (put m k v) k' = if k' = k then some v else find m k' := by
  split
  · subst_vars; simp
  · exact find_put_ne m v ‹_›

theorem find_filter (m : List (Nat × α)) (p : Nat → Bool) (k : Nat) :
    find (m.filter fun e => p e.1) k = if p k then find m k else none := by
  induction m with
  | nil => simp [find]
  | cons e m ih =>
    obtain ⟨a, u⟩ := e
    simp only [List.filter]
    by_cases ha : p a
    · simp only [ha, find, ih]; split
      · subst_vars; simp [ha]
      · rfl
    · simp only [ha, find, ih]
      split
      · rename_i hk; split
        · subst_vars; contradiction
        · rfl
      · rfl

/-- Every key of a table with rising keys lies above the first. -/
theorem rising_cons (e : Nat × α) (m : List (Nat × α)) :
    rising (e :: m) = true ↔ (∀ x ∈ m, e.1 < x.1) ∧ rising m = true := by
  induction m generalizing e with
  | nil => simp [rising]
  | cons f m ih =>
    obtain ⟨k, v⟩ := e; obtain ⟨k', v'⟩ := f
    simp only [rising, Bool.and_eq_true, decide_eq_true_eq, List.mem_cons, forall_eq_or_imp]
    constructor
    · rintro ⟨h1, h2⟩
      exact ⟨⟨h1, fun x hx => Nat.lt_trans h1 (((ih (k', v')).1 h2).1 x hx)⟩, h2⟩
    · rintro ⟨⟨h1, -⟩, h2⟩; exact ⟨h1, h2⟩

theorem mem_put {m : List (Nat × α)} {k : Nat} {v : α} {e : Nat × α} (h : e ∈ put m k v) : e = (k, v) ∨ e ∈ m := by
  induction m with
  | nil => simpa [put] using h
  | cons f m ih =>
    obtain ⟨a, u⟩ := f
    simp only [put] at h
    split at h
    · simpa using h
    · split at h
      · rcases List.mem_cons.1 h with h | h
        · exact Or.inl h
        · exact Or.inr (List.mem_cons_of_mem _ h)
      · simp only [List.mem_cons] at h ⊢
        rcases h with h | h
        · exact Or.inr (Or.inl h)
        · rcases ih h with h | h
          · exact Or.inl h
          · exact Or.inr (Or.inr h)

/-- A write keeps the keys rising. -/
theorem rising_put (m : List (Nat × α)) (k : Nat) (v : α) (h : rising m = true) : rising (put m k v) = true := by
  induction m with
  | nil => simp [put, rising]
  | cons e m ih =>
    obtain ⟨a, u⟩ := e
    have hc := (rising_cons (a, u) m).1 h
    simp only [put]
    split
    · rename_i hk
      refine (rising_cons _ _).2 ⟨?_, h⟩
      intro x hx
      rcases List.mem_cons.1 hx with rfl | hx
      · exact hk
      · exact Nat.lt_trans hk (hc.1 x hx)
    · split
      · rename_i h1; subst h1
        exact (rising_cons _ _).2 ⟨hc.1, hc.2⟩
      · refine (rising_cons _ _).2 ⟨?_, ih hc.2⟩
        intro x hx
        rcases mem_put hx with rfl | hx
        · simp only; omega
        · exact hc.1 x hx

/-- Leaving entries out keeps the keys rising. -/
theorem rising_filter (p : Nat × α → Bool) (m : List (Nat × α)) (h : rising m = true) : rising (m.filter p) = true := by
  induction m with
  | nil => rfl
  | cons e m ih =>
    have hc := (rising_cons e m).1 h
    simp only [List.filter]
    split
    · refine (rising_cons _ _).2 ⟨?_, ih hc.2⟩
      intro x hx
      exact hc.1 x (List.mem_filter.1 hx).1
    · exact ih hc.2

theorem rising_del (m : List (Nat × α)) (k : Nat) (h : rising m = true) : rising (del m k) = true := rising_filter _ m h

theorem rising_delRange (m : List (Nat × α)) (lo hi : Nat) (h : rising m = true) : rising (delRange m lo hi) = true :=
  rising_filter _ m h

@[simp] theorem foldS_nil (f : α → σ → σ) (s : σ) : foldS f [] s = s := rfl
@[simp] theorem foldS_cons (f : α → σ → σ) (x : α) (xs : List α) (s : σ) : foldS f (x :: xs) s = foldS f xs (f x s) := rfl

/-- What every step of a fold keeps, the fold keeps. -/
theorem foldS_keeps (f : α → σ → σ) (P : σ → Prop) (h : ∀ x s, P s → P (f x s)) (xs : List α) (s : σ) (hs : P s) :
    P (foldS f xs s) := by
  induction xs generalizing s with
  | nil => exact hs
  | cons x xs ih => exact ih _ (h x s hs)

/-- A view that no step of a fold changes, the fold does not change. -/
theorem foldS_same {β : Type} (f : α → σ → σ) (v : σ → β) (h : ∀ x s, v (f x s) = v s) (xs : List α) (s : σ) :
    v (foldS f xs s) = v s := foldS_keeps f (fun t => v t = v s) (fun x t ht => (h x t).trans ht) xs s rfl

end Sys2Proof.Machine
end

