-- ==== Sys2Proof/Laws/Regs.lean ====
section
/-! SUPPORT. Registers: a read after a write of the same register and of another, fields, and that the reset word of a
register depends on the straps and fuses alone. -/

namespace Sys2Proof.Machine

variable (s t : State)

/-- Two states with the same live registers, straps and fuses show the same words. -/
theorem State.rd_congr (hr : t.regs = s.regs) (hs : t.straps = s.straps) (hf : t.fuses = s.fuses) (p : Page) (off : Nat) :
    t.rd p off = s.rd p off := by
  unfold State.rd State.resetReg
  rw [hr, hs, hf]

theorem State.resetReg_congr (hs : t.straps = s.straps) (hf : t.fuses = s.fuses) (p : Page) (off : Nat) :
    t.resetReg p off = s.resetReg p off := by
  unfold State.resetReg
  rw [hs, hf]

@[simp] theorem State.rd_wr_same (p : Page) (off : Nat) (w : Word) : (s.wr p off w).rd p off = w := by
  simp [State.rd]

theorem State.rd_wr_ne (p q : Page) (off off' : Nat) (w : Word) (h : q.base + off' ≠ p.base + off) :
    (s.wr p off w).rd q off' = s.rd q off' := by
  unfold State.rd
  rw [State.resetReg_congr (s.wr p off w) s (by simp) (by simp)]
  simp [find_put_ne _ _ h]

/-- Two registers of one page. -/
theorem State.rd_wr_off (p : Page) (off off' : Nat) (w : Word) (h : off' ≠ off) :
    (s.wr p off w).rd p off' = s.rd p off' := s.rd_wr_ne p p off off' w (by omega)

/-- Each bit of a word with a field replaced. -/
theorem getLsbD_wput (x : Word) (lo w v j : Nat) (h : lo + w ≤ 32) :
    (wput x lo w v).getLsbD j = if lo ≤ j ∧ j < lo + w then v.testBit (j - lo) else x.getLsbD j := by
  unfold wput wmask
  simp only [BitVec.getLsbD_or, BitVec.getLsbD_and, BitVec.getLsbD_not, BitVec.getLsbD_ofNat, Nat.testBit_mul_two_pow,
    Nat.testBit_two_pow_sub_one, Nat.testBit_mod_two_pow]
  by_cases h1 : lo ≤ j
  · by_cases h2 : j < lo + w
    · have h3 : j < 32 := by omega
      have h4 : j - lo < w := by omega
      simp [h1, h2, h3, h4]
    · have h4 : ¬ j - lo < w := by omega
      by_cases h3 : j < 32
      · simp [h1, h2, h3, h4]
      · simp [h1, h2, h3]
        exact BitVec.getLsbD_of_ge x j (by omega)
  · by_cases h3 : j < 32
    · simp [h1, h3]
    · omega

theorem testBit_wbits (x : Word) (lo w i : Nat) : (wbits x lo w).testBit i = (decide (i < w) && x.getLsbD (lo + i)) := by
  unfold wbits bits
  simp [Nat.testBit_mod_two_pow, Nat.testBit_shiftRight, BitVec.getLsbD]

/-- A word with a field replaced, read back: the field. -/
theorem wbits_wput (x : Word) (lo w v : Nat) (h : lo + w ≤ 32) : wbits (wput x lo w v) lo w = v % 2 ^ w := by
  apply Nat.eq_of_testBit_eq
  intro i
  rw [testBit_wbits, getLsbD_wput _ _ _ _ _ h, Nat.testBit_mod_two_pow]
  by_cases hi : i < w
  · have : lo + i < lo + w := by omega
    simp [hi]
  · simp [hi]

/-- A word with a field replaced, read at bits outside the field. -/
theorem wbits_wput_ne (x : Word) (lo w v lo' w' : Nat) (h : lo + w ≤ 32) (hd : lo' + w' ≤ lo ∨ lo + w ≤ lo') :
    wbits (wput x lo w v) lo' w' = wbits x lo' w' := by
  apply Nat.eq_of_testBit_eq
  intro i
  rw [testBit_wbits, testBit_wbits, getLsbD_wput _ _ _ _ _ h]
  by_cases hi : i < w'
  · have : ¬ (lo ≤ lo' + i ∧ lo' + i < lo + w) := by omega
    simp [hi, this]
  · simp [hi]

/-- Every field of the register map lies in its word. -/
theorem State.get_set_same (p : Page) (f : Fld) (v : Nat) (h : f.lo + f.w ≤ 32) : (s.set p f v).get p f = v % 2 ^ f.w := by
  unfold State.get State.set
  rw [State.rd_wr_same, wbits_wput _ _ _ _ h]

/-- Another field of the same register. -/
theorem State.get_set_fld (p : Page) (f f' : Fld) (v : Nat) (h : f.lo + f.w ≤ 32)
    (hd : f'.lo + f'.w ≤ f.lo ∨ f.lo + f.w ≤ f'.lo) : (s.set p f v).get p f' = s.get p f' := by
  unfold State.get State.set
  by_cases ho : f'.off = f.off
  · rw [ho, State.rd_wr_same, wbits_wput_ne _ _ _ _ _ _ h hd]
  · rw [State.rd_wr_off _ _ _ _ _ ho]

/-- Another register of the same page. -/
theorem State.get_set_off (p : Page) (f f' : Fld) (v : Nat) (h : f'.off ≠ f.off) : (s.set p f v).get p f' = s.get p f' := by
  unfold State.get State.set
  rw [State.rd_wr_off _ _ _ _ _ h]

/-- A register at another DPA. -/
theorem State.get_set_ne (p q : Page) (f f' : Fld) (v : Nat) (h : q.base + f'.off ≠ p.base + f.off) :
    (s.set p f v).get q f' = s.get q f' := by
  unfold State.get State.set
  rw [State.rd_wr_ne _ _ _ _ _ _ h]

theorem State.rd_set_off (p : Page) (f : Fld) (off v : Nat) (h : off ≠ f.off) : (s.set p f v).rd p off = s.rd p off :=
  s.rd_wr_off _ _ _ _ h

theorem State.rd_set_ne (p q : Page) (f : Fld) (off v : Nat) (h : q.base + off ≠ p.base + f.off) :
    (s.set p f v).rd q off = s.rd q off := s.rd_wr_ne _ _ _ _ _ h

theorem State.set_eq (p : Page) (f : Fld) (v : Nat) : s.set p f v = { s with regs := (s.set p f v).regs } := rfl

end Sys2Proof.Machine
end

