-- ==== Sys2Proof/Laws/Notes.lean ====
section
/-! SUPPORT. What counting, flagging, logging and tracing can do: registers, the trace and the error log, nothing else. -/

namespace Sys2Proof.Machine

/-- A state differs from another only in registers, in the trace and in the error log. -/
def Noted (s t : State) : Prop := t = { s with regs := t.regs, trace := t.trace, elog := t.elog }

theorem Noted.refl (s : State) : Noted s s := rfl

theorem Noted.trans {s t u : State} (h : Noted s t) (k : Noted t u) : Noted s u := by
  unfold Noted at *
  rw [h] at k
  exact k

/-- A view that looks at neither of the three is the same. -/
theorem Noted.same {β : Type} {s t : State} (h : Noted s t) (f : State → β)
    (hf : ∀ r x e, f { s with regs := r, trace := x, elog := e } = f s) : f t = f s := by
  have := congrArg f h
  rw [hf] at this
  exact this

theorem noted_regs (s : State) (r : List (Nat × Word)) : Noted s { s with regs := r } := rfl
theorem noted_trace (s : State) (x : Trace) : Noted s { s with trace := x } := rfl
theorem noted_elog (s : State) (e : ELog) : Noted s { s with elog := e } := rfl
theorem noted_wr (s : State) (p : Page) (off : Nat) (w : Word) : Noted s (s.wr p off w) := noted_regs s _
theorem noted_set (s : State) (p : Page) (f : Fld) (v : Nat) : Noted s (s.set p f v) := noted_regs s _
theorem noted_bump (s : State) (p : Page) (f : Fld) (n : Nat) : Noted s (s.bump p f n) := noted_set s _ _ _

theorem noted_countW (s : State) (p : Page) (f : Fld) (n : Nat) : Noted s (s.countW p f n) := by
  unfold State.countW
  exact (noted_wr s _ _ _).trans (noted_wr _ _ _ _)

theorem noted_traceEv (s : State) (src inst ctx payload : Nat) : Noted s (s.traceEv src inst ctx payload) := by
  unfold State.traceEv
  split
  · exact (noted_trace s _).trans (noted_set _ _ _ _)
  · exact Noted.refl s

theorem noted_errBit (s : State) (p : Page) (b : Nat) : Noted s (s.errBit p b) := by
  unfold State.errBit
  dsimp only
  refine Noted.trans (t := if s.rd p 0x020 = 0 then s.wr p 0x028 (BitVec.ofNat 32 (b + 2 ^ 31)) else s) ?_
    ((noted_bump _ _ _ _).trans (noted_wr _ _ _ _))
  split
  · exact noted_wr _ _ _ _
  · exact Noted.refl s

theorem noted_logLost (s : State) : Noted s s.logLost := by
  unfold State.logLost
  dsimp only
  have h := (noted_bump s pgSTW F.STW_ELOG_LOST 1).trans (noted_errBit _ pgSTW Err.STW_ELOG_LOST)
  split
  · exact h.trans (noted_errBit _ _ _)
  · exact h

theorem noted_logRec (s : State) (p : Page) (i : Nat) (d : Detail) (inj fatal : Bool) : Noted s (s.logRec p i d inj fatal) := by
  unfold State.logRec
  dsimp only
  generalize ht : s.traceEv _ _ _ _ = t
  have h : Noted s t := ht ▸ noted_traceEv s _ _ _ _
  split
  · exact h.trans (noted_elog t _)
  · exact (h.trans (noted_elog t _)).trans (noted_logLost _)

theorem noted_logEnabled (s : State) (p : Page) (b : Nat) (d : Detail) (always inj : Bool) :
    Noted s (s.logEnabled p b d always inj) := by
  unfold State.logEnabled
  split
  · exact noted_logRec s _ _ _ _ _
  · exact Noted.refl s

theorem noted_raise (s : State) (p : Page) (b : Nat) (d : Detail) (always inj : Bool) : Noted s (s.raise p b d always inj) := by
  unfold State.raise
  dsimp only
  have h := noted_errBit s p b
  have k := h.trans (noted_logEnabled _ p b d always inj)
  split
  · exact h
  · split
    · exact k.trans (noted_logEnabled _ _ _ _ _ _)
    · exact k

theorem noted_count (s : State) (p : Page) (f : Fld) (n : Nat) : Noted s (s.count p f n) := by
  unfold State.count
  dsimp only
  split
  · exact (noted_bump s p f n).trans (noted_raise _ _ _ _ _ _)
  · exact noted_bump s p f n

end Sys2Proof.Machine
end

