-- ==== Sys2Proof/Laws/Memory.lean ====
section
/-! SUPPORT. The two memories: a read after a write of a stored byte, and that every operation on a memory keeps its canonical
form. -/

namespace Sys2Proof.Machine

/-! ### Bytes of a number -/

@[simp] theorem length_leBytes (n v : Nat) : (leBytes n v).length = n := by
  induction n generalizing v with
  | zero => rfl
  | succ n ih => simp [leBytes, ih]

theorem leNat_leBytes (n v : Nat) : leNat (leBytes n v) = v % 256 ^ n := by
  induction n generalizing v with
  | zero => simp [leBytes, leNat, Nat.mod_one]
  | succ n ih =>
    simp only [leBytes, leNat, ih, BitVec.toNat_ofNat]
    rw [show (256 : Nat) ^ (n + 1) = 256 * 256 ^ n from Nat.pow_succ', Nat.mod_mul]

/-! ### Cells -/

theorem find_del (m : List Host.Cell) (k k' : Nat) : find (del m k) k' = if k' = k then none else find m k' := by
  unfold del
  rw [find_filter m (fun a => decide (a ≠ k)) k']
  by_cases h : k' = k <;> simp [h]

/-- What a cell reads as, unlisted cells by their default. -/
theorem cellPut_read (m : List Host.Cell) (k k' : Nat) (v d : Byte) (dflt : Nat → Byte) (hd : d = dflt k) :
    (find (cellPut m k v d) k').getD (dflt k') = if k' = k then v else (find m k').getD (dflt k') := by
  subst hd
  unfold cellPut
  split
  · rename_i hv
    rw [find_del]
    by_cases h : k' = k
    · subst h; simp [hv]
    · simp [h]
  · rw [find_put]
    by_cases h : k' = k <;> simp [h]

theorem rising_cellPut {m : List Host.Cell} (k : Nat) (v d : Byte) (h : rising m = true) : rising (cellPut m k v d) = true := by
  unfold cellPut
  split
  · exact rising_del m k h
  · exact rising_put m k v h

/-! ### The banks -/

theorem sramTrim_cellPut {m : List Host.Cell} (k : Nat) (v : Byte) (h : sramTrim m = true) :
    sramTrim (cellPut m k v (sramDflt k)) = true := by
  simp only [sramTrim, List.all_eq_true, bne_iff_ne] at h ⊢
  intro e he
  unfold cellPut at he
  split at he
  · exact h e (List.mem_filter.1 he).1
  · rcases mem_put he with rfl | he
    · assumption
    · exact h e he

theorem sramPut9_wf {m : List Host.Cell} (gk i : Nat) (vs : List Byte) (hr : rising m = true) (ht : sramTrim m = true) :
    rising (sramPut9 m gk i vs) = true ∧ sramTrim (sramPut9 m gk i vs) = true := by
  induction vs generalizing m i with
  | nil => exact ⟨hr, ht⟩
  | cons v vs ih => exact ih (i + 1) (rising_cellPut _ _ _ hr) (sramTrim_cellPut _ _ ht)

/-- Every cell after a granule's bytes are written from byte i on. -/
theorem sramPut9_read (m : List Host.Cell) (gk i : Nat) (vs : List Byte) (k : Nat) :
    (find (sramPut9 m gk i vs) k).getD (sramDflt k) =
      if gk * 9 + i ≤ k ∧ k < gk * 9 + i + vs.length then vs.getD (k - (gk * 9 + i)) 0 else (find m k).getD (sramDflt k) := by
  induction vs generalizing m i with
  | nil =>
    have : ¬ (gk * 9 + i ≤ k ∧ k < gk * 9 + i + ([] : List Byte).length) := by simp
    rw [if_neg this]; rfl
  | cons v vs ih =>
    simp only [sramPut9, ih, cellPut_read m _ k v _ sramDflt rfl, List.length_cons]
    by_cases h0 : k = gk * 9 + i
    · subst h0
      rw [if_neg (by omega), if_pos rfl, if_pos (by omega)]; simp
    · by_cases h1 : gk * 9 + i ≤ k ∧ k < gk * 9 + i + (vs.length + 1)
      · rw [if_pos (by omega), if_pos h1]
        have : k - (gk * 9 + i) = (k - (gk * 9 + (i + 1))) + 1 := by omega
        rw [this]; rfl
      · rw [if_neg (by omega), if_neg h0, if_neg h1]

/-- A stored byte of the banks after a granule is stored. -/
theorem State.sramCell_granStore (s : State) (gk data check k : Nat) :
    (s.granStore gk data check).sramCell k =
      if gk * 9 ≤ k ∧ k < gk * 9 + 9 then (leBytes 8 data ++ [BitVec.ofNat 8 check]).getD (k - gk * 9) 0 else s.sramCell k := by
  unfold State.sramCell State.granStore
  simp only [sramPut9_read, Nat.add_zero, List.length_append, length_leBytes, List.length_singleton]

/-- A granule elsewhere is as before. -/
theorem State.granData_granStore_ne (s : State) {gk gk' : Nat} (data check : Nat) (h : gk' ≠ gk) :
    (s.granStore gk data check).granData gk' = s.granData gk' ∧ (s.granStore gk data check).granCheck gk' = s.granCheck gk' := by
  have hc : ∀ i < 9, (s.granStore gk data check).sramCell (gk' * 9 + i) = s.sramCell (gk' * 9 + i) := by
    intro i hi
    rw [State.sramCell_granStore, if_neg (by omega)]
  refine ⟨?_, ?_⟩
  · unfold State.granData
    refine congrArg leNat (List.map_congr_left fun i hi => hc i ?_)
    have := List.mem_range.1 hi
    omega
  · unfold State.granCheck
    rw [hc 8 (by omega)]

/-- The granule stored. -/
theorem State.granData_granStore_same (s : State) (gk data check : Nat) :
    (s.granStore gk data check).granData gk = data % 2 ^ 64 ∧ (s.granStore gk data check).granCheck gk = check % 2 ^ 8 := by
  have hc : ∀ i < 9, (s.granStore gk data check).sramCell (gk * 9 + i) = (leBytes 8 data ++ [BitVec.ofNat 8 check]).getD i 0 := by
    intro i hi
    rw [State.sramCell_granStore, if_pos (by omega), Nat.add_sub_cancel_left]
  refine ⟨?_, ?_⟩
  · unfold State.granData
    have : (List.range 8).map (fun i => (s.granStore gk data check).sramCell (gk * 9 + i)) = leBytes 8 data := by
      rw [List.map_congr_left (g := fun i => (leBytes 8 data ++ [BitVec.ofNat 8 check]).getD i 0)
        fun i hi => hc i (by have := List.mem_range.1 hi; omega)]
      rfl
    rw [this]
    exact leNat_leBytes _ _
  · unfold State.granCheck
    rw [hc 8 (by omega)]
    simp [leBytes]

/-! ### The stacks -/

theorem rising_hbmPut {base : List (Nat × StackBase)} {m : List Host.Cell} (k : Nat) (v : Byte) (h : rising m = true) :
    rising (hbmPut base m k v) = true := by
  unfold hbmPut
  split
  · exact rising_put m k v h
  · exact rising_cellPut k v _ h

theorem hbmTrim_hbmPut {base : List (Nat × StackBase)} {m : List Host.Cell} (k : Nat) (v : Byte) (h : hbmTrim base m = true) :
    hbmTrim base (hbmPut base m k v) = true := by
  simp only [hbmTrim, List.all_eq_true] at h ⊢
  intro e he
  unfold hbmPut at he
  split at he
  · rename_i hb
    rcases mem_put he with rfl | he
    · simp only [hb]
    · exact h e he
  · rename_i hb
    unfold cellPut at he
    split at he
    · exact h e (List.mem_filter.1 he).1
    · rcases mem_put he with rfl | he
      · simp only [hb, bne_iff_ne]; assumption
      · exact h e he

theorem hbmPut9_wf {base : List (Nat × StackBase)} {m : List Host.Cell} (gk i : Nat) (vs : List Byte) (hr : rising m = true)
    (ht : hbmTrim base m = true) : rising (hbmPut9 base gk i vs m) = true ∧ hbmTrim base (hbmPut9 base gk i vs m) = true := by
  induction vs generalizing m i with
  | nil => exact ⟨hr, ht⟩
  | cons v vs ih => exact ih (i + 1) (rising_hbmPut _ _ hr) (hbmTrim_hbmPut _ _ ht)

/-- The cells of a stack leave the list, and it reads by a new rule: the others keep their form. -/
theorem hbmTrim_drop {base : List (Nat × StackBase)} {m : List Host.Cell} (g : Nat) (b : StackBase) (h : hbmTrim base m = true) :
    hbmTrim (put base g b) (delRange m (hbmKey g 0 0 * 9) (hbmKey (g + 1) 0 0 * 9)) = true := by
  simp only [hbmTrim, List.all_eq_true] at h ⊢
  intro e he
  obtain ⟨hm, hne⟩ := List.mem_filter.1 he
  have hg : e.1 / 72 / 2 ^ 30 ≠ g := by
    intro hg
    have hne := of_decide_eq_true hne
    simp only [hbmKey] at hne
    omega
  have := h e hm
  unfold hbmDflt at this ⊢
  rw [find_put_ne _ _ hg]
  exact this

/-! ### The canonical form -/

theorem Memory.wf_iff (s : State) : Memory.wf s = true ↔
    (rising s.sram = true ∧ sramTrim s.sram = true) ∧ rising s.hbm = true ∧ hbmTrim s.hbmBase s.hbm = true := by
  simp [Memory.wf, and_assoc]

/-- The canonical form looks at the cell lists alone. -/
theorem Memory.wf_congr {s t : State} (h1 : t.sram = s.sram) (h2 : t.hbm = s.hbm) (h3 : t.hbmBase = s.hbmBase) :
    Memory.wf t = Memory.wf s := by
  simp [Memory.wf, h1, h2, h3]

theorem Memory.wf_noted {s t : State} (h : Noted s t) : Memory.wf t = Memory.wf s :=
  h.same Memory.wf fun _ _ _ => rfl

theorem Memory.wf_reset : Memory.wf State.reset = true := by decide

variable {s : State}

theorem Memory.wf_granStore (gk data check : Nat) (h : Memory.wf s = true) : Memory.wf (s.granStore gk data check) = true := by
  obtain ⟨⟨hr, ht⟩, hh⟩ := (Memory.wf_iff s).1 h
  exact (Memory.wf_iff _).2 ⟨sramPut9_wf gk 0 _ hr ht, hh⟩

theorem Memory.wf_hbmGranStore (gk data check : Nat) (h : Memory.wf s = true) : Memory.wf (s.hbmGranStore gk data check) = true := by
  obtain ⟨hs, hr, ht⟩ := (Memory.wf_iff s).1 h
  exact (Memory.wf_iff _).2 ⟨hs, hbmPut9_wf gk 0 _ hr ht⟩

theorem Memory.wf_count (p : Page) (f : Fld) (n : Nat) : Memory.wf (s.count p f n) = Memory.wf s := wf_noted (noted_count s p f n)
theorem Memory.wf_countW (p : Page) (f : Fld) (n : Nat) : Memory.wf (s.countW p f n) = Memory.wf s := wf_noted (noted_countW s p f n)
theorem Memory.wf_raise (p : Page) (b : Nat) (d : Detail) (a i : Bool) : Memory.wf (s.raise p b d a i) = Memory.wf s :=
  wf_noted (noted_raise s p b d a i)
theorem Memory.wf_set (p : Page) (f : Fld) (v : Nat) : Memory.wf (s.set p f v) = Memory.wf s := rfl
theorem Memory.wf_wr (p : Page) (off : Nat) (w : Word) : Memory.wf (s.wr p off w) = Memory.wf s := rfl

theorem Memory.wf_injected (t : State) (i : List Nat) : Memory.wf { t with injected := i } = Memory.wf t := rfl
theorem Memory.wf_ceWindow (t : State) (c : List (Nat × CeWin)) : Memory.wf { t with ceWindow := c } = Memory.wf t := rfl
theorem Memory.wf_hcs (g : Nat) (x : Hc) : Memory.wf (s.setHc g x) = Memory.wf s := rfl

theorem Memory.wf_granWrite (b l g data : Nat) (poison : Bool) (h : Memory.wf s = true) :
    Memory.wf (s.granWrite b l g data poison) = true := by
  unfold State.granWrite
  dsimp only
  split
  · rw [Memory.wf_count]; exact Memory.wf_granStore _ _ _ h
  · exact (Memory.wf_injected _ _).trans (Memory.wf_granStore _ _ _ h)

theorem Memory.wf_granNote (b l g : Nat) (r : GranRd) : Memory.wf (s.granNote b l g r) = Memory.wf s := by
  unfold State.granNote
  dsimp only
  split
  · rfl
  · refine (Memory.wf_ceWindow _ _).trans ?_
    rw [Memory.wf_raise, Memory.wf_count]
  · rw [Memory.wf_count]
  · rw [Memory.wf_raise, Memory.wf_set, Memory.wf_wr, Memory.wf_count]

theorem Memory.wf_granScrub (b l g : Nat) (r : GranRd) (h : Memory.wf s = true) : Memory.wf (s.granScrub b l g r) = true := by
  unfold State.granScrub
  split
  · exact Memory.wf_granWrite _ _ _ _ _ h
  · exact Memory.wf_granWrite _ _ _ _ _ h
  · exact h

theorem Memory.wf_lineNote (b l : Nat) (scrub : Nat → Bool) (g : Nat) (rs : List GranRd) (h : Memory.wf s = true) :
    Memory.wf (State.lineNote b l scrub g rs s) = true := by
  induction rs generalizing g s with
  | nil => exact h
  | cons r rs ih =>
    refine ih (g + 1) ?_
    have hn := (Memory.wf_granNote b l g r).trans h
    split
    · exact Memory.wf_granScrub _ _ _ _ hn
    · exact hn

/-- A bank's read keeps the canonical form. -/
theorem Memory.wf_bankRead (b l : Nat) (h : Memory.wf s = true) : Memory.wf (s.bankRead b l).2 = true :=
  Memory.wf_lineNote _ _ _ _ _ h

theorem Memory.wf_spendInject (b l g : Nat) (pois : Bool) (h : Memory.wf s = true) :
    Memory.wf (s.spendInject b l g pois) = true := by
  unfold State.spendInject
  dsimp only
  split
  · rw [Memory.wf_set]
    refine (Memory.wf_injected _ _).trans ?_
    split
    · split
      · exact h
      · exact Memory.wf_granWrite _ _ _ _ _ h
    · exact Memory.wf_granStore _ _ _ h
  · exact h

theorem Memory.wf_poisonWritten (b : Nat) (inj : Bool) : Memory.wf (s.poisonWritten b inj) = Memory.wf s := Memory.wf_raise _ _ _ _ _

theorem Memory.wf_granMerge (b l g en new : Nat) (pois : Bool) (h : Memory.wf s = true) :
    Memory.wf (s.granMerge b l g en new pois).2 = true := by
  unfold State.granMerge
  dsimp only
  split
  · exact h
  · split
    · refine Memory.wf_spendInject _ _ _ _ ?_
      split
      · rw [Memory.wf_poisonWritten]; exact Memory.wf_granWrite _ _ _ _ _ h
      · exact Memory.wf_granWrite _ _ _ _ _ h
    · have hw := Memory.wf_granWrite b l g (mergeBytes en (s.granPeek b l g).data new) ((s.granPeek b l g).cls.bad || pois)
        ((Memory.wf_granNote b l g (s.granPeek b l g)).trans h)
      refine Memory.wf_spendInject _ _ _ _ ?_
      split
      · rw [Memory.wf_poisonWritten]; exact hw
      · exact hw

theorem Memory.wf_bankWriteFrom (b l en : Nat) (data : List Byte) (pois n g : Nat) (o : WrOut) (h : Memory.wf s = true) :
    Memory.wf (State.bankWriteFrom b l en data pois n g o s).2 = true := by
  induction n generalizing g o s with
  | zero => exact h
  | succ n ih => exact ih _ _ (Memory.wf_granMerge _ _ _ _ _ _ h)

/-- A bank's write keeps the canonical form. -/
theorem Memory.wf_bankWrite (b l en : Nat) (data : List Byte) (pois : Nat) (h : Memory.wf s = true) :
    Memory.wf (s.bankWrite b l en data pois).2 = true := Memory.wf_bankWriteFrom _ _ _ _ _ _ _ _ h

theorem Memory.wf_atomFrom (b l : Nat) (a : AtomReq) (scrub : Bool) (dpa g : Nat) (rs : List GranRd) (o : WrOut)
    (h : Memory.wf s = true) : Memory.wf (State.atomFrom b l a scrub dpa g rs o s).2 = true := by
  induction rs generalizing g o s with
  | nil => exact h
  | cons r rs ih =>
    have hn := (Memory.wf_granNote b l g r).trans h
    simp only [State.atomFrom]
    split
    · refine ih _ _ ?_
      split
      · exact Memory.wf_granScrub _ _ _ _ hn
      · exact hn
    · split
      · refine ih _ _ (Memory.wf_spendInject _ _ _ _ ?_)
        rw [Memory.wf_poisonWritten]; exact Memory.wf_granWrite _ _ _ _ _ hn
      · exact ih _ _ (Memory.wf_spendInject _ _ _ _ (Memory.wf_granWrite _ _ _ _ _ hn))

/-- A bank's atomic keeps the canonical form. -/
theorem Memory.wf_bankAtomic (b l : Nat) (a : AtomReq) (h : Memory.wf s = true) : Memory.wf (s.bankAtomic b l a).2 = true := by
  unfold State.bankAtomic
  dsimp only
  split
  · rw [Memory.wf_raise]; exact h
  · split
    · exact h
    · rw [Memory.wf_count]; exact Memory.wf_atomFrom _ _ _ _ _ _ _ _ h

theorem Memory.wf_hbmGranWrite (g line gran data : Nat) (poison : Bool) (h : Memory.wf s = true) :
    Memory.wf (s.hbmGranWrite g line gran data poison) = true := by
  unfold State.hbmGranWrite
  dsimp only
  split
  · exact Memory.wf_hbmGranStore _ _ _ h
  · exact (Memory.wf_injected _ _).trans (Memory.wf_hbmGranStore _ _ _ h)

theorem Memory.wf_hcBurst (g line : Nat) : Memory.wf (s.hcBurst g line) = Memory.wf s := by
  unfold State.hcBurst
  dsimp only
  split
  · rw [Memory.wf_countW]; exact Memory.wf_hcs _ _
  · exact Memory.wf_hcs _ _

theorem Memory.wf_hcInject (g line : Nat) (h : Memory.wf s = true) : Memory.wf (s.hcInject g line) = true := by
  unfold State.hcInject
  dsimp only
  split
  · rw [Memory.wf_set]
    split
    · exact (Memory.wf_injected _ _).trans (Memory.wf_hbmGranWrite _ _ _ _ _ h)
    · exact (Memory.wf_injected _ _).trans (Memory.wf_hbmGranStore _ _ _ h)
  · exact h

/-- A whole line stored in a stack keeps the canonical form. -/
theorem Memory.wf_hcStore (g line : Nat) (data : List Byte) (pois : Nat) (inject : Bool) (h : Memory.wf s = true) :
    Memory.wf (s.hcStore g line data pois inject) = true := by
  unfold State.hcStore
  dsimp only
  have hf := foldS_keeps (fun j s => s.hbmGranWrite g line j (leAt data (8 * j) 8) (pois.testBit j)) (fun s => Memory.wf s = true)
    (fun _ _ h => Memory.wf_hbmGranWrite _ _ _ _ _ h) (List.range 8) s h
  generalize foldS _ _ s = u at hf ⊢
  have hw : Memory.wf ((u.hcBurst g line).countW (hcPage g) F.HC_WR_LINES) = true := by
    rw [Memory.wf_countW, Memory.wf_hcBurst]; exact hf
  generalize (u.hcBurst g line).countW _ _ = v at hw ⊢
  split
  · exact Memory.wf_hcInject _ _ ((Memory.wf_hcs _ _).trans hw)
  · exact (Memory.wf_hcs _ _).trans hw

/-- Zeroing the banks (P2 and a warm reset) gives the canonical form. -/
theorem Memory.wf_zeroSram (h : Memory.wf s = true) : Memory.wf s.zeroSram = true := by
  unfold State.zeroSram
  dsimp only
  refine foldS_keeps _ (fun s => Memory.wf s = true) ?_ _ _ ?_
  · intro e t ht
    split
    · exact foldS_keeps _ (fun s => Memory.wf s = true) (fun _ _ h => Memory.wf_granStore _ _ _ h) _ _ ht
    · exact ht
  · obtain ⟨-, hh⟩ := (Memory.wf_iff s).1 h
    exact (Memory.wf_iff _).2 ⟨⟨rfl, rfl⟩, hh⟩

/-- A stack that loses its contents keeps the canonical form. -/
theorem Memory.wf_hbmLose (g : Nat) (h : Memory.wf s = true) : Memory.wf (s.hbmLose g) = true := by
  obtain ⟨hs, hr, ht⟩ := (Memory.wf_iff s).1 h
  exact (Memory.wf_iff _).2 ⟨hs, rising_delRange _ _ _ hr, hbmTrim_drop g _ ht⟩

/-- The cells of a cleared stack. -/
theorem Memory.wf_hbmClear (g : Nat) (i : List Nat) (h : Memory.wf s = true) :
    Memory.wf { s with hbm := delRange s.hbm (hbmKey g 0 0 * 9) (hbmKey (g + 1) 0 0 * 9), hbmBase := put s.hbmBase g .zeros, injected := i } = true := by
  obtain ⟨hs, hr, ht⟩ := (Memory.wf_iff s).1 h
  exact (Memory.wf_iff _).2 ⟨hs, rising_delRange _ _ _ hr, hbmTrim_drop g _ ht⟩

end Sys2Proof.Machine
end

