-- ==== Sys2Proof/WellFormed.lean ====
section
/-! DEFINITION. Which terms of `Instr` are commands of the block: pages and arbiters that exist, messages under the row
that their opcode names, whole data slots, places inside the banks. A meaning is total on the others too. -/

namespace Sys2Proof

open Machine

/-- A requester of a draw: an index that the arbiter has (R180, R793), one of eight classes, one of four urgencies (R190). -/
def Req.wellFormed (id : Nat) (r : Req) : Bool := reqFits id r

/-- A march finding names a bank and one of its 3,096 slots (R159). -/
def slotWellFormed (f : Nat × Nat) : Bool := decide (f.1 < 512 ∧ f.2 < 3096)

/-- A tinker finding names a line of a region or an unused spare slot, and granules (R158, R171). -/
def LineTest.wellFormed (f : LineTest) : Bool := decide (f.line < 3096 ∧ f.saveBad < 256)

/-- The data of a message is whole slots of 16 bytes, at most the 15 of a flit after its header's (R230). -/
def dataWellFormed (data : List Byte) : Bool := decide (data.length % 16 = 0 ∧ data.length ≤ 224)

/-- A message row holds a message of its opcode. -/
def msgWellFormed (h : BitVec 128) (data : List Byte) (op : Nat) : Bool := hOpc h == op && dataWellFormed data

/-- The command names only what exists. -/
def Instr.wellFormed : Instr → Bool
  | .p2End fails _ => fails.all slotWellFormed
  | .cntSnapshotRead _ dpa => match region dpa.toNat with
    | .page p off => wideHalf p.kind off == some true
    | _ => false
  | .pageCommit _ p | .commitTakesEffect p | .pageDiscard _ p => pageValid p && hasCommit p.kind
  | .pageHalt p | .haltComplete p | .haltRelease p => pageValid p && capBit p.kind 1
  | .softReset p | .softResetDone p _ => pageValid p && capBit p.kind 2
  | .errInject p _ => pageValid p && capBit p.kind 5
  | .arbiterDraw id reqs | .arbWithdrawal id reqs => arbValid id.toNat && reqs.all (Req.wellFormed id.toNat)
  | .emergencyBeat id _ => arbValid id.toNat
  | .credInit _ h => hOpc h == opCRED_INIT
  | .nopMsg _ h => hOpc h == opNOP
  | .vtlRd _ h d => msgWellFormed h d opRD
  | .vtlWr _ h d => msgWellFormed h d opWR
  | .vtlRegRd _ h d => msgWellFormed h d opREG_RD
  | .vtlRegWr _ h d => msgWellFormed h d opREG_WR
  | .srdRsp _ h d => msgWellFormed h d opSRD_RSP
  | .vtlEvt _ h d => msgWellFormed h d opEVT
  | .tallyAdd _ h d => msgWellFormed h d opTALLY && !(decide (1 ≤ tallyTop h ∧ tallyTop h ≤ 7) && tallyTop h != 5)
  | .tallySub _ h d => msgWellFormed h d opTALLY && tallyTop h == 1
  | .tallyWaitGe _ h d => msgWellFormed h d opTALLY && tallyTop h == 2
  | .tallyWaitTake _ h d => msgWellFormed h d opTALLY && tallyTop h == 3
  | .tallyRead _ h d => msgWellFormed h d opTALLY && tallyTop h == 4
  | .tallyArrive _ h d => msgWellFormed h d opTALLY && tallyTop h == 6
  | .clearOrphan _ h d => msgWellFormed h d opTALLY && tallyTop h == 7
  | .atomAdd _ h d => msgWellFormed h d opATOM && atomOp h != 1 && atomOp h != 2
  | .atomSwap _ h d => msgWellFormed h d opATOM && atomOp h == 1
  | .atomCswap _ h d => msgWellFormed h d opATOM && atomOp h == 2
  | .readModifyWrite _ _ en _ _ => partialGranule en.toNat
  | .tinkerRegionStart _ faults => faults.all LineTest.wellFormed
  | .mApply h d => msgWellFormed h d opM_APPLY
  | .mFwd h d => msgWellFormed h d opM_FWD
  | .mCopy h d => msgWellFormed h d opM_COPY
  | .mAck h => hOpc h == opM_ACK
  | .mRefuse h => hOpc h == opM_REFUSE
  | .mBeat h => hOpc h == opM_BEAT
  | .mJoin h => hOpc h == opM_JOIN
  | .mLeave h => hOpc h == opM_LEAVE
  | .tapBypass code => code.toNat == tapBYPASS || !tapCode code.toNat
  | .pwrOkFall | .resetRelease _ | .warmReset | .warmDrainDone _ | .fatalWarmTimer | .p0End _ _ _ |
    .p1End _ _ _ _ _ _ | .p3End | .p4End | .bootReady | .tick | .turnPeriodUpdate _ _ | .refWindowEnd _ _ _ _ _ |
    .refLost _ | .oscFault | .timeRollover | .timeNow | .atNextSecond | .timeApplyCancel | .timeNsRead _ |
    .trcDataRead _ | .refForce _ | .clearMax | .registerWrite _ _ _ | .stairMessageForward _ _ _ _ _ _ |
    .arbReseed _ | .urgChange _ _ | .urgAdopt _ | .urgCrit _ | .regWindowEnd _ | .classSaturated _ _ |
    .saturatedClear _ _ | .purserComputation _ | .paceIntervalStart | .calUpdate _ | .sensorSample _ _ |
    .lendStart _ | .flitReceive _ _ | .nakResend _ | .replayTimer _ | .linkDown _ | .linkUp _ _ _ _ | .stallWarn _ _ |
    .vcAbandon _ _ | .rspTimeout _ _ | .moduleReset _ | .modEnable _ _ | .moduleResetDone _ | .xltWalkDone _ _ |
    .invalRange _ | .invalContext _ | .invalAll _ | .xltInvalDone | .bankRead _ _ | .bankWrite _ _ _ _ _ |
    .eccInject _ _ | .tallySet _ _ | .waitTimeout _ | .tallyRealign _ | .tallyDeadlock _ | .linkWrite _ _ _ _ |
    .lockWrite _ _ _ | .clearSat _ _ | .tnkTarget _ _ _ | .ceTrigger _ | .spareEntry _ _ | .stackBurst _ _ _ |
    .stackReadDone _ _ _ | .patrolRead _ _ | .refreshDue _ _ _ _ | .rfmDue _ _ _ _ | .hbmTempRead _ _ |
    .rowClose _ _ _ _ | .powerDown _ _ | .caParity _ _ | .wrParity _ _ | .chanRetrainDone _ _ _ | .stackFailed _ |
    .stackClear _ | .stackClearDone _ | .hcRetrain _ | .descriptorActivate _ | .descriptorReadDone _ | .tileTake _ _ |
    .tokenHandoff _ | .elementConvert _ _ | .tilePost _ | .donePost _ | .descriptorEnd _ | .queueResume _ _ _ |
    .queueAbort _ _ _ | .queueFlush _ _ _ | .mixerBlockDone _ _ _ _ | .combinerWindowExpiry _ _ | .doorbell _ _ _ |
    .ringFetch _ | .commandDispatch _ | .cmdStream _ | .cmdTallyOp _ | .cmdWait _ | .cmdBarrier _ | .cmdEventStep _ |
    .cmdFence _ | .cmdNote _ | .cmdJump _ | .commandComplete _ _ | .ringRestart _ _ | .ringClear _ _ |
    .ringSlotEn _ _ _ | .keyApply _ _ | .chkStart _ | .checkDone _ | .mixReturn _ _ | .stepDue | .stepOpen |
    .crierEvaluate _ | .crierDrain _ | .stepArrive _ | .eventDelivery _ | .stepRun _ _ _ | .copyLive _ _ |
    .copyLiveDone | .swapCancel _ _ | .evmCtrl _ | .beatTimeout | .twinRetrain | .twinRejoin | .takeOver |
    .resilverCopy | .resilverDone | .regionEnable _ _ | .stwPing _ | .stwRegRead _ _ | .stwRegWrite _ _ |
    .stwMemRead _ _ | .stwMemWrite _ _ | .stwMemAtom _ _ | .stwReplay _ | .stwFetch _ | .stewardOpDone _ |
    .ctxAssign _ | .ctxRetire _ | .contextClearDone _ | .elogWrite | .elogTail _ | .dbgUnlock _ | .tapIdcode |
    .tapSample _ _ | .tapExtest _ _ | .tapClamp | .tapHighz | .dbgAccess _ _ | .traceRead | .tapIjtag _ _ |
    .tapReset | .faultRecordWrite _ | .fqEnable _ _ | .fqTail _ _ _ | .tevCmdSwap _ _ | .linkRetrainDone _ _ _ |
    .stackTrained _ _ _ _ | .mixerCompareDone _ _ | .dbgReadDone | .stwFrmLow | .parityError _ |
    .switchFault _ => true

end Sys2Proof
end

