-- ==== Sys2Proof/Tests/Slice0.lean ====
section
/-! SUPPORT. Small tests, and for every statement states that meet what it assumes. -/

open Sys2Proof Sys2Proof.Machine

namespace Sys2Proof.Tests

set_option maxRecDepth 8000
set_option Elab.async false

/-! ### Small states that the tests start from -/

/-- A die after READY whose steward port answers. -/
def up : State :=
  { State.reset.set pgBOOT F.BOOT_BOOT_STATUS_PHASE 6 with outs := { stwCk := true }, boot := { done := true }, time := { running := true } }

/-- `up` in another phase. -/
def inP (n : Nat) : State := { up.set pgBOOT F.BOOT_BOOT_STATUS_PHASE n with boot := {} }

/-- A module is UP with a PORT_AUTH of every context, and context 0 is assigned. -/
def withMod (m : Nat) (s : State) : State :=
  ((s.set (modPage m) F.MOD_MOD_STATUS_STATE 3).set (modPage m) F.MOD_PORT_AUTH_MASK 0xFFFF).set pgCTX (F.CTX_CTX_STATE_STATE.at 0) 2
def fab : State := withMod 0 up

/-- Context 0 has a translation of the first 64 KiB of its space, in gallery g, to the first 64 KiB of SRAM. -/
def mapped (g : Nat) (rd wr : Bool) (s : State) : State := s.setXl g ((s.xl g).use ⟨0, 0, 16, 0, rd, wr⟩)
/-- Context 0 has 64 tallies from tally 0 on. -/
def tallied (s : State) : State := s.set pgTHL (F.THL_TALLY_ALLOC_COUNT.at 0) 1

/-- A DPA of a page's register. -/
def adr (p : Page) (off : Nat) : BitVec 48 := BitVec.ofNat 48 (p.base + off)

/-- The tick count is n. -/
def atTick (n : Nat) (s : State) : State := (s.wr pgTBS 0x148 (wordOf n)).wr pgTBS 0x14C (wordOf (n / 2 ^ 32))

/-- The bank and the line of a DPA. -/
def lineB (s : State) (dpa : Nat) : Nat := (s.locate dpa).1
def lineL (s : State) (dpa : Nat) : Nat := (s.locate dpa).2
/-- An 8-byte word of SRAM holds v. -/
def poke (dpa v : Nat) (s : State) : State := s.granWrite (lineB s dpa) (lineL s dpa) (dpa % 64 / 8) v false
/-- A tree with a table of each level at 0x10000 and a 2 MiB leaf. -/
def tree (s : State) : State := poke 0x12000 (0x20000F) (poke 0x11000 (0x12001) (poke 0x10000 0x11001 s))
/-- A header: opcode, tag, context, length less one, address, XF. -/
def hd (op tag ctx len addr xf : Nat) : BitVec 128 := mkHdr op tag 0 0 ctx 0 len addr 0 xf

/-- A flit of one message slot with a good CRC. -/
def rawFlit (slot : Nat) (t : Trailer) : BitVec 2048 :=
  BitVec.ofNat 2048 (leNat (flitBytes (leBytes 16 slot ++ (List.replicate 14 nopSlot).flatten) t))
/-- The state that an outcome answers. -/
def ans (o : Host.Outcome State Fault Refusal) : State := match o with | .next t => t | _ => State.reset

/-- Stack g is UP with 16 GiB of zeros. -/
def stk (g : Nat) (s : State) : State :=
  { (s.set (hcPage g) F.HC_HC_STATUS_STATE 2).set pgMMAP (F.MMAP_HBM_CAP_GIB.at g) 16 with hbmBase := [(g, .zeros)] }
/-- The descriptor of a FILL of one RAW8 element. -/
def fillWord (addr v : Nat) : Nat := 2 + 0x10 * 2 ^ 16 + addr * 2 ^ 96 + v * 2 ^ 240
def waitWord (tally n : Nat) : Nat := (tally + 2 * 2 ^ 13 + n * 2 ^ 16) * 2 ^ (8 * 0x26)
def tileWord (tally n : Nat) : Nat := (tally + 2 ^ 13 + n * 2 ^ 16) * 2 ^ (8 * 0x2C)
def doneWord (tally n : Nat) : Nat := (tally + 2 ^ 13 + n * 2 ^ 16) * 2 ^ (8 * 0x30)
def desc0 : Desc := { num := 0, tva := 0, sc := 0, ring := 0, cmd := 0, stage := .running }
/-- Queue q holds one descriptor. -/
def queued (q : Nat) (d : Desc) (s : State) : State := { s with queues := [(q, { descs := [d] })] }

/-- A ring command: its opcode and its fields, each as byte and value. -/
def cmd (op : Nat) (fs : List (Nat × Nat)) : RingCmd := ⟨leBytes 64 (op + (fs.map fun f => f.2 * 2 ^ (8 * f.1)).sum), 7, false, false⟩
/-- Slot 0 of gallery 0 serves ring 1, whose table of 16 entries starts at TVA 0. -/
def slotted (s : State) : State :=
  ((s.set (fmnPage 0) (F.FMN_RING_SLOT_RING.at 0) 1).set (fmnPage 0) (F.FMN_RING_SLOT_EN.at 0) 1).set (fmnPage 0) (F.FMN_RING_SLOT_LOG2SIZE.at 0) 4
/-- Ring 1 has fetched one command and nothing else. -/
def ringed (x : RingCmd) (s : State) : State := { slotted s with rings := [(1, { fetched := [x], next := 8 })] }
/-- Ring 1 has one command outstanding. -/
def outed (o : OutCmd) (s : State) : State := { slotted s with rings := [(1, { out := [o] })] }
def out0 : OutCmd := { id := 0, op := 7, tag := 9, count := 3, list := false }
/-- Tally 3 of context 0 holds v. -/
def tally3 (v : Nat) (s : State) : State := { tallied s with hall := { tallies := [(3, { val := v })] } }

/-- Event mode of context 0 is on and runs. -/
def evUp (s : State) : State :=
  (((tallied s).set pgEVM F.EVM_EVM_CTRL_EN 1).set ⟨.TEV, 0⟩ F.TEV_STEP_CTRL_RUN 1).set ⟨.TEV, 0⟩ F.TEV_STEP_BARRIER_TALLY 3
/-- A step is open and every crier is in a phase. -/
def evOpen (ph : Nat) (s : State) : State :=
  { evUp s with event := { opened := true }, criers := (List.range 8).map fun g => (g, { phase := ph }) }
/-- The peer's link is up in a state of the twin function. -/
def twinned (st : Nat) : State :=
  { ((withMod 15 up).set (modPage 15) F.MOD_MOD_STATUS_TWIN 1).set pgTWN F.TWN_TWN_STATUS_STATE st with straps := { twinEn := true } }
/-- An M_APPLY, M_FWD or M_COPY of the peer and its data: opcode, kind, context, address, XF. -/
def mh (op ctx addr xf : Nat) : BitVec 128 := mkHdr op 7 0 0 ctx 0 0 addr 0 xf
def mslot (kind : Nat) : List Byte := leBytes 16 (kind + 2 ^ 22)

/-- A request frame with its CRC. -/
def frame (cmd seq : Nat) (body : List Byte) : List Byte :=
  let b := BitVec.ofNat 8 cmd :: BitVec.ofNat 8 seq :: body
  b ++ leBytes 2 (crc16 b)
/-- A log record. -/
def rec0 : LogRec := ⟨77, 3, 1, 4, false, false, false, 9, 2, 0x123456⟩
/-- The TAP is unlocked. -/
def unl (s : State) : State := s.set pgDBG F.DBG_DBG_STATUS_UNLOCKED 1
/-- Context 5 is assigned and has a translation in gallery 0. -/
def mapped5 (wr : Bool) : State := (up.set pgCTX (F.CTX_CTX_STATE_STATE.at 5) 2).setXl 0 ((up.xl 0).use ⟨5, 0, 16, 0, true, wr⟩)
/-- The pace limiter meters every gallery, with lines left in each bucket. -/
def metering (s : State) : State :=
  { s with purser := { computed := true }, arbs := (List.range 8).map fun g => (g, { bucket := 1 }) }

/-! ### Values for the `getD` of a test -/

def atom0 : AtomReq := ⟨.add, .raw8, .rne, false, false, 0, 0, 0, [], []⟩
def merged0 : Merged := ⟨0, ⟨0, []⟩, 0, 0, false⟩
def comb0 : Comb := ⟨0, 0, 0, 0, [], 0, [], false, []⟩

/-! ### Checks that evaluate, and what they say -/

def okE {a b : Type} (x : Except a b) : Bool := match x with | .ok _ => true | _ => false
theorem ok_of {a b : Type} {x : Except a b} (h : okE x = true) : ∃ u, x = .ok u := by
  cases x with
  | ok u => exact ⟨u, rfl⟩
  | error _ => cases h

def eqE {a b : Type} [DecidableEq a] [DecidableEq b] : Except a b → Except a b → Bool
  | .ok u, .ok v => u == v
  | .error u, .error v => u == v
  | _, _ => false
theorem eq_ofE {a b : Type} [DecidableEq a] [DecidableEq b] {x y : Except a b} (h : eqE x y = true) : x = y := by
  cases x <;> cases y <;> simp_all [eqE]

def eqO {a b : Type} [DecidableEq a] [DecidableEq b] : Option (Except a b) → Option (Except a b) → Bool
  | some u, some v => eqE u v
  | none, none => true
  | _, _ => false
theorem eq_ofO {a b : Type} [DecidableEq a] [DecidableEq b] {x y : Option (Except a b)} (h : eqO x y = true) : x = y := by
  cases x <;> cases y <;> simp_all [eqO]
  exact eq_ofE h

theorem next_of {o : Host.Outcome State Fault Refusal} (h : (match o with | .next _ => true | _ => false) = true) : o = .next (ans o) := by
  cases o <;> first | rfl | cases h

theorem pathFree_of {s : State} {g k : Nat}
    (h : ((s.path g).entries = [] ∧ (s.path g).combs = [] ∧ s.admits g 32 (fun _ => 0) k 0 = true ∧
      s.admits g 32 (fun _ => 0) k 3 = true ∧ s.running pgMMAP = true)) : s.pathFree g k := by
  refine ⟨h.1, h.2.1, fun u => ?_, h.2.2.2.2⟩
  by_cases hu : u = 3
  · exact hu ▸ h.2.2.2.1
  · have h0 := h.2.2.1
    simpa [State.admits, hu] using h0

theorem at_home {s : State} {r g0 k0 : Nat} {P : Nat → Nat → Prop} (h : s.ringHome r = some (g0, k0)) (p : P g0 k0) :
    ∀ g k, s.ringHome r = some (g, k) → P g k := by
  intro g k e
  rw [h] at e
  cases e
  exact p

theorem accepts_of {s : State} {m : Nat} {h : BitVec 128} {d : List Byte}
    (c : (s.modUp m = true ∧ s.modHeld m = false ∧ (s.link m).rx = [] ∧ okE (s.rxAdmit m (s.mkMsg h d)) = true ∧ s.reqCheck m h = none)) :
    s.accepts m h d := ⟨c.1, c.2.1, c.2.2.1, ok_of c.2.2.2.1, c.2.2.2.2⟩

theorem reachesLine_of {s : State} {m : Nat} {h : BitVec 128} {d : List Byte} {n : Need} {b l : Nat} (leaf : Leaf) (ha : s.accepts m h d)
    (hp : s.pathFree (m / 2) (hSc h)) (ht : eqE (s.target (leaf.dpa (hAddr h))) (.ok (.sram b l)) = true)
    (c : hAddr h % 64 + hLen h ≤ 64 ∧ s.metered m = false ∧ (s.xl (m / 2)).find (hCtx h) (hAddr h) = some leaf ∧
      leaf.denies n = none ∧ s.limOpen (b / 64) = true ∧ s.mirRegion (leaf.dpa (hAddr h)) = none ∧
      s.routeFree ⟨m / 2, hSc h, hCtx h, s.urgOf m⟩ (b / 64) = true) : s.reachesLine m h d n b l :=
  ⟨ha, c.1, hp, c.2.1, leaf, c.2.2.1, c.2.2.2.1, eq_ofE ht, c.2.2.2.2⟩

theorem routeRoom_of {s : State} {a : Acc} {h n : Nat} (c : a.remote h = false) : s.routeRoom a h n := by
  intro e
  rw [c] at e
  cases e

theorem twinTakes_of {s : State} {op : Nat} {h : BitVec 128} {d : List Byte}
    (c : hOpc h = op ∧ s.isTwin 15 = true ∧ s.modUp 15 = true ∧ (s.link 15).rx = [] ∧ okE (s.rxAdmit 15 (s.mkMsg h d)) = true) :
    s.twinTakes op h d := ⟨c.1, c.2.1, c.2.2.1, c.2.2.2.1, ok_of c.2.2.2.2⟩

theorem wordHome_of {s : State} {g c tva dpa b l : Nat} (hx : eqO (s.peekX g c tva .wr none) (some (.ok dpa)) = true)
    (ht : eqE (s.target dpa) (.ok (.sram b l)) = true)
    (h : dpa % 4 = 0 ∧ s.mirRegion dpa = none ∧ b < 512 ∧ l < 3072 ∧ s.running pgMMAP = true ∧ s.limOpen (b / 64) = true ∧
      s.flag (bnkPage b) F.BNK_ECC_INJECT_ARM = false ∧ ∀ j < 8, (s.granPeek b l j).cls = .good) : s.wordHome g c tva dpa b l :=
  ⟨eq_ofO hx, h.1, eq_ofE ht, h.2⟩

theorem portLine_of {s : State} {a n b l : Nat} (ht : eqE (s.target a) (.ok (.sram b l)) = true)
    (h : a % 64 + n ≤ 64 ∧ region a = .sram ∧ s.running pgMMAP = true ∧ s.mirRegion a = none) : s.portLine a n b l :=
  ⟨h.1, eq_ofE ht, h.2⟩

theorem recordHome_of {s : State} {a b l : Nat} (ht : eqE (s.target a) (.ok (.sram b l)) = true)
    (h : s.mirRegion a = none ∧ b < 512 ∧ l < 3072 ∧ s.running pgMMAP = true ∧ s.flag (bnkPage b) F.BNK_ECC_INJECT_ARM = false ∧
      ∀ j < 8, (s.granPeek b l j).cls = .good) : s.recordHome a b l := ⟨eq_ofE ht, h⟩

/-! ### The worked examples of the spec -/

/-- spec/03: DPA 0x02A4_1F40 in affinity mode is line 1,601 of global bank 229; in spread mode with the reset masks line
1,352 of bank 338. -/
theorem test_sram_placement : (up.set pgMMAP F.MMAP_SRAM_MAP_MODE 0).locate 0x02A41F40 = (229, 1601) ∧
    (up.set pgMMAP F.MMAP_SRAM_MAP_MODE 1).locate 0x02A41F40 = (338, 1352) := by decide +kernel

/-- spec/03: the table walk of context 4 for TVA 0x0012_3456_789A: four tables in gallery 0, the leaf in stack 2. -/
def walked : State :=
  poke 0x1031B0 0x01200040000F (poke 0x102D10 0x103101 (poke 0x101240 0x102001 (poke 0x100000 0x101001
    ((up.set pgCTX (F.CTX_CTX_STATE_STATE.at 4) 2).set pgMMAP (F.MMAP_XLT_ROOT_LO_ROOT.at 4) 0x100))))
theorem test_table_walk : eqO ((stk 2 walked).translateNow 0 4 0x00123456789A 0 .rd (.ring 16)).1 (some (.ok 0x01200040789A)) = true := by decide +kernel

/-- spec/04: 64 bytes read at DPA 0x02A4_1F70 end in the line of DPA 0x02A4_1F80, line 1,601 of bank 230. -/
theorem test_next_line : up.locate 0x02A41F80 = (230, 1601) := by decide +kernel

/-- spec/04: 1.0 + 2^-9 in BF16 under STOCH, with the uniform 0x2A17_9C03 below f, with one that is not, and under RNE. -/
theorem test_stochastic_add : Fmt.addLane .bf16 .stoch false 0x2A179C03 0x3F80 0x3B00 = 0x3F81 ∧
    Fmt.addLane .bf16 .stoch false 0x40000000 0x3F80 0x3B00 = 0x3F80 ∧ Fmt.addLane .bf16 .rne false 0 0x3F80 0x3B00 = 0x3F80 := by
  decide +kernel

/-- spec/05: tickets 16, 32, 32 and r = 0xA3C5: requester 2 wins. -/
theorem test_lottery : lottery [(0, 16), (1, 32), (2, 32)] 0xA3C5 = some 2 := by decide +kernel

/-- spec/05: demands 2,000 and 1,125 against an allowance of 3,000 become 1,875 and 1,125. -/
theorem test_pace_split : paceSplit 3000 [2000, 1125] = [1875, 1125] := by decide +kernel

/-- spec/05: the regulation window of gallery 4: SC3 rises to 18, SC1 and SC6 fall to 14. -/
def regulated : State :=
  let s := (((up.set (arbPage 4) (F.ARB_CLASS_SHARE_MIN.at 1) 4).set (arbPage 4) (F.ARB_CLASS_SHARE_MIN.at 3) 16).set (arbPage 4)
    (F.ARB_CLASS_SHARE_MIN.at 6) 8).set (arbPage 4) F.ARB_ADAPT_CFG_STEP 2
  let s := (List.range 8).foldl (fun s k => (((s.set (arbPage 4) (F.ARB_TICKETS_LOCAL_BASE.at k) 16).set (arbPage 4) (F.ARB_TICKETS_LOCAL_LIVE.at k) 16).set
    (arbPage 4) (F.ARB_TICKETS_LOCAL_TMIN.at k) 4).set (arbPage 4) (F.ARB_TICKETS_LOCAL_TMAX.at k) 40) s
  s.setArb 4 { s.arb 4 with win := [(1, 60000), (3, 18000), (6, 22000)], lost := 2 ^ 3 }
theorem test_adapt_window : let s := regulated.adaptGroup 4 0
    s.get (arbPage 4) (F.ARB_TICKETS_LOCAL_LIVE.at 3) = 18 ∧ s.get (arbPage 4) (F.ARB_TICKETS_LOCAL_LIVE.at 1) = 14 ∧
    s.get (arbPage 4) (F.ARB_TICKETS_LOCAL_LIVE.at 6) = 14 := by decide +kernel

/-- spec/06: context 4 reads 64 bytes at TVA 0x0012_3456_7880, TAG 0x1A5, SC 3, VC 3. -/
theorem test_read_header : (mkHdr opRD 0x1A5 3 3 4 0 0x3F 0x001234567880 0 0).toNat = 0x1234 * 2 ^ 64 + 0x5678803F0437A501 := by
  decide +kernel

/-- spec/07: DPA 0x0120_0040_789A is in stack 2: channel 21 with HASH, pseudo-channel 0, bank 0, row 4; the alias names it
0x0200_0203_D09A. -/
theorem test_stack_address : eqE ((stk 2 up).target 0x01200040789A) (.ok (.hbm 2 (0x40789A / 64))) = true ∧
    ((stk 2 up).set (hcPage 2) F.HC_HC_MAP_HASH 1).hbmAddr 2 (0x40789A / 64) = ⟨21, 0, 0, 4⟩ ∧
    aliasLocate 0x203D09A = (2, 0x40789A) := by decide +kernel

/-- spec/11: WAIT_TAKE 1 of module M4 on virtual tally 12 of context 2: the header's bytes, and physical tally 332. -/
theorem test_tally_header : let h : BitVec 128 := BitVec.ofNat 128 0x0001000C030002121206
    tallyTop h = 3 ∧ hCtx h = 2 ∧ hTag h = 0x012 ∧ hSc h = 1 ∧ (tallyReqOf 4 h).virt = 12 ∧ (tallyReqOf 4 h).n = 1 ∧
    ((up.set pgTHL (F.THL_TALLY_ALLOC_BASE.at 2) 5).set pgTHL (F.THL_TALLY_ALLOC_COUNT.at 2) 2).physOf 2 12 = some 332 := by decide +kernel

/-- spec/11: a realignment of P = 1,000,002 and C = 999,998 leaves 4 and 0. -/
def linked : State := { tallied up with hall := { tallies := [(40, { val := 1000002 }), (41, { val := 999998 })] } }
theorem test_realign : ((linked.realignLink 0 40 41).tally 40).val = 4 ∧ ((linked.realignLink 0 40 41).tally 41).val = 0 := by
  decide +kernel

/-- spec/11: with the link enabled, C − P = −4 does not let the producer go, and −3 does. -/
def linked7 (c : Nat) : State :=
  { tallied up with hall := { tallies := [(40, { val := 4 }), (41, { val := c })] } }.wr (ttvPage 0) 0x140 (wordOf (40 + 2 ^ 13 + 41 * 2 ^ 16))
theorem test_linked_wait : (linked7 0).geHolds 41 0xFFFFFD = false ∧ (linked7 1).geHolds 41 0xFFFFFD = true := by decide +kernel

/-- spec/12: the word 0xA8C3_1F40 gives about −0.41036, and 0.02 times it rounds to BF16 0xBC06. -/
theorem test_normal_table : (Fmt.bf16.encodeFloat .rne false 0 (match Fmt.fp32.decode (normalTbl 0xA8C31F40) with
    | .fin n m e => .fin n (m * 0xA3D70A) (e - 29) | v => v)).val = 0xBC06 := by decide +kernel

/-- spec/13: the steps of a neuron with THR 1,000, LEAK 3, REF 2. -/
theorem test_neuron : let p : Pop := { popOf 0 with thr := 1000, vreset := 0, bias := 0, leak := 3, ref := 2 }
    evalRec p 620 = (543, false) ∧ evalRec p 1043 = (2 ^ 22 + 2 * 2 ^ 16, true) ∧ evalRec p (2 * 2 ^ 16 + 300) = (2 ^ 16, false) ∧
    evalRec p (2 ^ 16 + 200) = (0, false) ∧ evalRec p 900 = (788, false) := by decide +kernel

/-- spec/13: the key of channel 5, row 37, column 10 of population 8, and the two taps of its kernel. -/
theorem test_event_key : evKey 8 5 37 10 = 0x20144A0A ∧
    taps { popOf 0 with h := 128, w := 16, c := 32, fence := 4 } ⟨true, 3, 1, 4, 32, 16, 0⟩ (evKey 8 5 37 10) = [(0, 1, 19, 5), (2, 1, 18, 5)] := by
  decide +kernel

/-- spec/18: the first bytes of the STOP fault record of context 6, its 30th since assignment. -/
def faulted : State :=
  (((up.set pgCTX (F.CTX_CTX_STATE_STATE.at 6) 2).set (tfqPage 6) F.TFQ_FQ_CTRL_EN 1).set (tfqPage 6) F.TFQ_FQ_SEQ 29)
theorem test_fault_record : (((faulted.faultRec 6 2 false 1 3 4 20).faultBuf 6).buf.map fun r => ((r.bytes.drop 8).take 9)) =
    [[0x02, 0x06, 0x31, 0x04, 0x1D, 0, 0, 0, 0x14]] := by decide +kernel

/-- spec/19: PAGE_ID of gallery page 0x08 of gallery 2, and the DPAs of QUEUE_CFG_5 and QUEUE_CMD_45. -/
theorem test_register_addresses : State.reset.rd (engPage 5) 0 = 0x01050016#32 ∧ (engPage 5).base + 0x128 = 0x20208128 ∧
    (⟨.TQC, 3⟩ : Page).base + 0x100 + 4 * 45 = 0x210331B4 := by decide +kernel

/-- spec/19: 0x0B31 written to QUEUE_CFG_5 of a halted engine acts at once on EN, CTX and STAGE_BLOCKS; SERIAL is in the shadow (and was 1). -/
theorem test_queue_binding : let t := ans (exec (.registerWrite .steward 0x20208128 0x0B31) (up.set (engPage 5) F.PAGE_STATE_RUN 2))
    t.rd (engPage 5) 0x128 = 0x0B31#32 ∧ wbits (t.rdSh (engPage 5) 0x128) 11 1 = 1 := by decide +kernel

/-- spec/16: 50 samples at or above TTHROT take a sensor from WARN to THROTTLE. -/
def warm (n : Nat) : State :=
  let s := up.set pgPRS (F.PRS_SENSOR_STATE.at 2) 1
  { s with purser := { s.purser with sensors := [(2, { throt := n })] } }
theorem test_sensor_dwell : (((warm 49).sensorStep 2 420).get pgPRS (F.PRS_SENSOR_STATE.at 2)) = 2 ∧
    (((warm 48).sensorStep 2 420).get pgPRS (F.PRS_SENSOR_STATE.at 2)) = 1 ∧
    (((warm 49).sensorStep 2 419).get pgPRS (F.PRS_SENSOR_STATE.at 2)) = 1 := by decide +kernel

/-- spec/16: SE6 of gallery 3 lends 1,275 mW of 5,100 mW to galleries 5 and 6; the lines and flits of gallery 3. -/
def budgeted : State :=
  let s := (((up.set pgPRS F.PRS_PKG_BUDGET_EIGHTHS 640).set pgPRS F.PRS_SHARES_ENG_SHARE 16).set pgPRS F.PRS_SHARES_MOD_SHARE 16).set pgPRS F.PRS_E_LINE_PJ 90
  let s := ((s.set pgPRS F.PRS_GAL_WEIGHT_WEIGHT 0x88888888).set pgPRS F.PRS_CAL_CAL 64).set pgPRS (F.PRS_SENSOR_VALID.at 16) 1
  (s.setArb 5 { s.arb 5 with limHeld := true }).setArb 6 { s.arb 6 with limHeld := true }
theorem test_lending : budgeted.divide 40800 [6] = ([5100, 5100, 5100, 3825, 5100, 5737, 5737, 5100], 1275) ∧
    budgeted.lPower 3825 750 = some 42500 ∧ budgeted.lPower 5100 750 = some 56666 := by decide +kernel

/-- spec/15: the steward port reads the STATE word of tally 332 with SEQ 0x31. -/
def tally332 : State := { up with hall := { tallies := [(332, { val := 0x1234 })] } }
theorem test_port_read : (frame 0x02 0x31 (leBytes 6 0x100014C0)).take 8 = [0x02, 0x31, 0xC0, 0x14, 0x00, 0x10, 0x00, 0x00] ∧
    (ans (exec (.stwRegRead (frame 0x02 0x31 (leBytes 6 0x100014C0)) false) tally332)).stw.out.take 10 =
      [0x82, 0x31, 0, 0, 0, 0, 0x34, 0x12, 0, 0] := by decide +kernel

/-- spec/11: module M2 takes the only permit of a lock; its holder record is orphaned when the module resets. -/
def locked : State := { withMod 2 (tallied up) with hall := { tallies := [(9, { val := 1, lock := true })] } }
def takeHdr : BitVec 128 := mkHdr opTALLY 3 0 0 0 0 0 (3 + 9 * 2 ^ 8 + 2 ^ 24) 0 0
theorem test_lock_is_taken_and_orphaned : let t := ans (exec (.tallyWaitTake 2 takeHdr []) locked)
    (t.tally 9).val = 0 ∧ t.hall.holders = [⟨9, .module 2 0, 0, 1, false⟩] ∧
    ((t.orphanAll fun _ => true).tally 9) = { t.tally 9 with val := 1, orph := true } := by decide +kernel

/-! ### Ill-formed terms that `Instr.wellFormed` refuses -/

theorem test_refused_slots : (Instr.p2End [(512, 0)] 0).wellFormed = false ∧ (Instr.p2End [(0, 3096)] 0).wellFormed = false ∧
    (Instr.p2End [(511, 3095)] 0).wellFormed = true := by decide +kernel
theorem test_refused_counter : (Instr.cntSnapshotRead .steward (adr pgTBS 0x100)).wellFormed = false ∧
    (Instr.cntSnapshotRead .steward 0).wellFormed = false := by decide +kernel
theorem test_refused_pages : (Instr.pageCommit .steward ⟨.ARB, 8⟩).wellFormed = false ∧ (Instr.commitTakesEffect ⟨.TQC, 3⟩).wellFormed = false ∧
    (Instr.pageDiscard .steward ⟨.TQC, 3⟩).wellFormed = false ∧ (Instr.pageHalt pgBOOT).wellFormed = false ∧
    (Instr.haltComplete (arbPage 8)).wellFormed = false ∧ (Instr.haltRelease pgBOOT).wellFormed = false ∧
    (Instr.softReset pgBOOT).wellFormed = false ∧ (Instr.softResetDone (arbPage 0) 0).wellFormed = false ∧
    (Instr.errInject ⟨.TQC, 3⟩ 0).wellFormed = false := by decide +kernel
theorem test_refused_draws : (Instr.arbiterDraw 0x1000 [⟨0, 8, 0⟩]).wellFormed = false ∧ (Instr.arbWithdrawal 0x1000 [⟨0, 0, 4⟩]).wellFormed = false ∧
    (Instr.arbiterDraw 0xF000 []).wellFormed = false ∧ (Instr.emergencyBeat 0xF000 true).wellFormed = false := by decide +kernel
theorem test_refused_opcodes : (Instr.credInit 0 (hd opRD 0 0 0 0 0)).wellFormed = false ∧ (Instr.nopMsg 0 (hd opRD 0 0 0 0 0)).wellFormed = false ∧
    (Instr.vtlRd 0 (hd opWR 0 0 0 0 0) []).wellFormed = false ∧ (Instr.vtlWr 0 (hd opRD 0 0 0 0 0) []).wellFormed = false ∧
    (Instr.vtlRegRd 0 (hd opRD 0 0 0 0 0) []).wellFormed = false ∧ (Instr.vtlRegWr 0 (hd opRD 0 0 0 0 0) []).wellFormed = false ∧
    (Instr.srdRsp 0 (hd opRD 0 0 0 0 0) []).wellFormed = false ∧ (Instr.vtlEvt 0 (hd opRD 0 0 0 0 0) []).wellFormed = false ∧
    (Instr.mApply (hd opM_FWD 0 0 0 0 0) []).wellFormed = false ∧ (Instr.mFwd (hd opM_APPLY 0 0 0 0 0) []).wellFormed = false ∧
    (Instr.mCopy (hd opM_APPLY 0 0 0 0 0) []).wellFormed = false ∧ (Instr.mAck (hd opM_JOIN 0 0 0 0 0)).wellFormed = false ∧
    (Instr.mRefuse (hd opM_JOIN 0 0 0 0 0)).wellFormed = false ∧ (Instr.mBeat (hd opM_JOIN 0 0 0 0 0)).wellFormed = false ∧
    (Instr.mJoin (hd opM_BEAT 0 0 0 0 0)).wellFormed = false ∧ (Instr.mLeave (hd opM_BEAT 0 0 0 0 0)).wellFormed = false := by decide +kernel
theorem test_refused_data : (Instr.vtlWr 0 (hd opWR 0 0 0 0 0) [1]).wellFormed = false ∧
    (Instr.vtlWr 0 (hd opWR 0 0 0 0 0) (List.replicate 240 0)).wellFormed = false ∧
    (Instr.vtlWr 0 (hd opWR 0 0 0 0 0) (List.replicate 16 0)).wellFormed = true := by decide +kernel
/-- A TALLY header by its TOP at bit 40. -/
def tallyHdr (top : Nat) : BitVec 128 := mkHdr opTALLY 0 0 0 0 0 0 top 0 0
theorem test_refused_tally_rows : (Instr.tallyAdd 0 (tallyHdr 1) []).wellFormed = false ∧ (Instr.tallyAdd 0 (tallyHdr 0) []).wellFormed = true ∧
    (Instr.tallySub 0 (tallyHdr 0) []).wellFormed = false ∧ (Instr.tallyWaitGe 0 (tallyHdr 0) []).wellFormed = false ∧
    (Instr.tallyWaitTake 0 (tallyHdr 0) []).wellFormed = false ∧ (Instr.tallyRead 0 (tallyHdr 0) []).wellFormed = false ∧
    (Instr.tallyArrive 0 (tallyHdr 0) []).wellFormed = false ∧ (Instr.clearOrphan 0 (tallyHdr 0) []).wellFormed = false := by decide +kernel
theorem test_refused_atomics : (Instr.atomAdd 0 (hd opATOM 0 0 0 0 0x10) []).wellFormed = false ∧
    (Instr.atomSwap 0 (hd opATOM 0 0 0 0 0) []).wellFormed = false ∧ (Instr.atomCswap 0 (hd opATOM 0 0 0 0 0) []).wellFormed = false := by
  decide +kernel
theorem test_refused_whole_granules : (Instr.readModifyWrite 0 0 0xFF 0 0).wellFormed = false ∧
    (Instr.readModifyWrite 0 0 0x0F 0 0).wellFormed = true := by decide +kernel
theorem test_refused_line_test : (Instr.tinkerRegionStart 0 [⟨3096, true, true, 0⟩]).wellFormed = false ∧
    (Instr.tinkerRegionStart 0 [⟨0, true, true, 256⟩]).wellFormed = false := by decide +kernel
theorem test_refused_bypass : (Instr.tapBypass 0x01).wellFormed = false ∧ (Instr.tapBypass 0xFF).wellFormed = true := by
  decide +kernel

/-! ### No row has bits -/

theorem test_no_word_is_a_command : decodeTableWord 16 0x1234 = none ∧ (up.withFetchWord 16 0x1234 == up) = true := by decide +kernel

/-! ### What the statements assume is met -/


/-- States and operands that meet what `Obligations.EmptyQueueIdles` assumes, clause by clause. -/
theorem empty_queue_idles_meets :
    (∃ (s : State), s.pending = []) :=
  ⟨up,
    by decide +kernel⟩

/-- States and operands that meet what `Obligations.FusesAndQueueAreNotACommandsToWrite` assumes, clause by clause. -/
theorem fuses_and_queue_are_not_a_commands_to_write_meets :
    (∃ s t, step s = .next t) :=
  ⟨{ poke 0x88 77 fab with pending := [.tick, .bootReady] },
    _,
    next_of (by decide +kernel)⟩

/-- States and operands that meet what `Obligations.EveryStepKeepsMemoryCanonical` assumes, clause by clause. -/
theorem every_step_keeps_memory_canonical_meets :
    (∃ s t, Memory.wf s = true ∧ step s = .next t) :=
  ⟨{ poke 0x88 77 fab with pending := [.tick, .bootReady] },
    _,
    by decide +kernel,
    next_of (by decide +kernel)⟩

/-- States and operands that meet what `Obligations.ResetReleaseSamplesTheStraps` assumes, clause by clause. -/
theorem reset_release_samples_the_straps_meets :
    (∃ (s : State), s.quiet = true ∧ s.boot.held = true) ∧
    (∃ (s : State), s.quiet = true ∧ s.boot.held = false) :=
  ⟨⟨{ State.reset with boot := { held := true } },
    by decide +kernel⟩,
   ⟨State.reset,
    by decide +kernel⟩⟩

/-- States and operands that meet what `Obligations.WarmResetDrainsThenStartsP0` assumes, clause by clause. -/
theorem warm_reset_drains_then_starts_p0_meets :
    (∃ (s : State), s.quiet = true ∧ s.boot.held = false ∧ s.boot.fuseErr = false ∧ (s.boot.kind = .cold → s.boot.done = true ∨ s.isFatal = true)) ∧
    (∃ (s : State), s.boot.held = false ∧ s.boot.fuseErr = false ∧ s.boot.kind = .cold ∧ s.boot.done = false ∧ s.isFatal = false) ∧
    (∃ (s : State), s.quiet = true ∧ s.boot.held = true) ∧
    (∃ (s : State), s.quiet = true ∧ s.isFatal = true ∧ s.flag pgSTW F.STW_STW_CTRL_FATAL_WARM = true ∧ s.boot.fatalAt + 1000 ≤ s.ticks ∧ s.boot.draining = false ∧ s.boot.fuseErr = false ∧ s.boot.held = false) ∧
    (∃ (s : State), s.boot.draining = true) :=
  ⟨⟨fab,
    by decide +kernel⟩,
   ⟨inP 3,
    by decide +kernel⟩,
   ⟨{ State.reset with boot := { held := true } },
    by decide +kernel⟩,
   ⟨((inP 7).set pgSTW F.STW_STW_CTRL_FATAL_WARM 1).wr pgTBS 0x148 2000,
    by decide +kernel⟩,
   ⟨{ fab with boot := { draining := true, kind := .fatalWarm } },
    by decide +kernel⟩⟩

/-- States and operands that meet what `Obligations.BootPhasesFollowInOrder` assumes, clause by clause. -/
theorem boot_phases_follow_in_order_meets :
    (∃ (s : State) (us : Nat), s.quiet = true ∧ s.inPhase 0 = true ∧ us < 2 ^ 32) ∧
    (∃ (s : State) (us : Nat) (a : Bool) (b : Bool), s.quiet = true ∧ s.inPhase 1 = true ∧ us < 2 ^ 32 ∧ s.boot.fuseErr = false ∧ (s.boot.kind = .cold → (a || b) = true)) ∧
    (∃ (s : State), s.quiet = true ∧ s.inPhase 1 = true ∧ s.boot.kind = .cold) ∧
    (∃ (s : State), s.quiet = true ∧ s.inPhase 2 = true ∧ s.flag pgBOOT F.BOOT_BOOT_STATUS_STOPPED = false) ∧
    (∃ (s : State) (stair : BitVec 32), s.quiet = true ∧ s.inPhase 2 = true ∧ s.flag pgBOOT F.BOOT_BOOT_STATUS_STOPPED = false ∧ stair ≠ 0) ∧
    (∃ (s : State), s.quiet = true ∧ s.inPhase 3 = true ∧ s.straps.twinEn = false ∧ (∀ m < 16, s.flag (modPage m) F.MOD_MOD_CTRL_ENABLE = true → s.modUp m = true)) ∧
    (∃ (s : State), s.quiet = true ∧ s.inPhase 4 = true ∧ (∀ g < 8, (s.hc g).trained = true) ∧ (∀ g < 8, s.hcState g = 2)) :=
  ⟨⟨State.reset,
    7,
    by decide +kernel⟩,
   ⟨{ inP 1 with time := {}, outs := {} },
    7,
    true,
    false,
    by decide +kernel⟩,
   ⟨{ inP 1 with time := {}, outs := {} },
    by decide +kernel⟩,
   ⟨inP 2,
    by decide +kernel⟩,
   ⟨inP 2,
    1,
    by decide +kernel⟩,
   ⟨(List.range 16).foldl (fun s m => withMod m s) (inP 3),
    by decide +kernel⟩,
   ⟨(List.range 8).foldl (fun s g => (s.set (hcPage g) F.HC_HC_STATUS_STATE 2).setHc g { trained := true }) (inP 4),
    by decide +kernel⟩⟩

/-- States and operands that meet what `Obligations.ReadyEndsConfiguration` assumes, clause by clause. -/
theorem ready_ends_configuration_meets :
    (∃ (s : State), s.quiet = true ∧ s.writes .steward pgBOOT 0x104 1 = true ∧ s.inPhase 5 = true ∧ s.phaseTime < 2 ^ 32 ∧ s.bootUs 5 + s.phaseTime < 2 ^ 32) ∧
    (∃ (s : State), s.quiet = true ∧ s.writes .steward pgBOOT 0x104 1 = true ∧ s.inPhase 5 = false) :=
  ⟨⟨inP 5,
    by decide +kernel⟩,
   ⟨up,
    by decide +kernel⟩⟩

/-- States and operands that meet what `Obligations.TimeReadsReturnOneInstant` assumes, clause by clause. -/
theorem time_reads_return_one_instant_meets :
    (∃ (s : State) (port : Port), s.quiet = true ∧ s.reads port pgTBS 0x120 = true) :=
  ⟨{ up with time := { up.time with sec := 5, ns := 77 } },
    .steward,
    by decide +kernel⟩

/-- States and operands that meet what `Obligations.CounterAndTraceReadsMoveTheirOwnSnapshot` assumes, clause by clause. -/
theorem counter_and_trace_reads_move_their_own_snapshot_meets :
    (∃ (s : State) (port : Port) (dpa : BitVec 48) (p : Page) (off : Nat), s.quiet = true ∧ region dpa.toNat = .page p off ∧ dpa.toNat % 4 = 0 ∧ wideHalf p.kind off = some true ∧ 0x100 ≤ off ∧ p.kind ≠ .TEV ∧ s.reads port p off = true) ∧
    (∃ (s : State) (port : Port), s.quiet = true ∧ s.reads port pgDBG 0x14C = true) :=
  ⟨⟨up.wr (gswPage 0) 0x114 9,
    .steward,
    BitVec.ofNat 48 ((gswPage 0).base + 0x110),
    gswPage 0,
    0x110,
    by decide +kernel⟩,
   ⟨up,
    .steward,
    by decide +kernel⟩⟩

/-- States and operands that meet what `Obligations.TimeApplySetsTheCounter` assumes, clause by clause. -/
theorem time_apply_sets_the_counter_meets :
    (∃ (s : State), s.quiet = true ∧ s.writes .steward pgTBS 0x13C 1 = true ∧ s.flag pgTBS F.TBS_TIME_STATUS_PENDING = false ∧ s.setNs < nsWrap) ∧
    (∃ (s : State), s.quiet = true ∧ s.writes .steward pgTBS 0x13C 2 = true ∧ s.flag pgTBS F.TBS_TIME_STATUS_PENDING = false ∧ s.setNs < nsWrap) ∧
    (∃ (s : State), s.quiet = true ∧ s.flag pgTBS F.TBS_TIME_STATUS_PENDING = false ∧ nsWrap ≤ s.setNs ∧ s.writes .steward pgTBS 0x13C 1 = true) ∧
    (∃ (s : State), s.quiet = true ∧ s.flag pgTBS F.TBS_TIME_STATUS_PENDING = false ∧ nsWrap ≤ s.setNs ∧ s.writes .steward pgTBS 0x13C 2 = true) ∧
    (∃ (s : State), s.quiet = true ∧ s.flag pgTBS F.TBS_TIME_STATUS_PENDING = true ∧ s.writes .steward pgTBS 0x13C 1 = true) ∧
    (∃ (s : State), s.quiet = true ∧ s.flag pgTBS F.TBS_TIME_STATUS_PENDING = true ∧ s.writes .steward pgTBS 0x13C 2 = true) ∧
    (∃ (s : State), s.quiet = true ∧ s.flag pgTBS F.TBS_TIME_STATUS_PENDING = true ∧ s.writes .steward pgTBS 0x13C 3 = true) ∧
    (∃ (s : State), s.quiet = true ∧ s.time.running = true ∧ s.time.ns ≤ nsWrap ∧ s.setNs < nsWrap ∧ nsWrap - s.time.ns + s.time.early ≤ s.tickNs.1) :=
  ⟨⟨up.wr pgTBS 0x130 12,
    by decide +kernel⟩,
   ⟨up.wr pgTBS 0x130 12,
    by decide +kernel⟩,
   ⟨up.wr pgTBS 0x130 0x3FFFFFFF,
    by decide +kernel⟩,
   ⟨up.wr pgTBS 0x130 0x3FFFFFFF,
    by decide +kernel⟩,
   ⟨(up.wr pgTBS 0x130 12).set pgTBS F.TBS_TIME_STATUS_PENDING 1,
    by decide +kernel⟩,
   ⟨(up.wr pgTBS 0x130 12).set pgTBS F.TBS_TIME_STATUS_PENDING 1,
    by decide +kernel⟩,
   ⟨(up.wr pgTBS 0x130 12).set pgTBS F.TBS_TIME_STATUS_PENDING 1,
    by decide +kernel⟩,
   ⟨(({ up with time := { up.time with sec := 5, ns := 999999500 } }).wr pgTBS 0x130 12).set pgTBS F.TBS_TIME_STATUS_PENDING 1,
    by decide +kernel⟩⟩

/-- States and operands that meet what `Obligations.TickMovesTheTimeCounter` assumes, clause by clause. -/
theorem tick_moves_the_time_counter_meets :
    (∃ (s : State), s.quiet = true ∧ s.time.running = true) ∧
    (∃ (s : State), s.quiet = true ∧ s.time.running = false) :=
  ⟨⟨{ up with time := { up.time with sec := 5, ns := 999999500 } },
    by decide +kernel⟩,
   ⟨State.reset,
    by decide +kernel⟩⟩

/-- States and operands that meet what `Obligations.TurnTelemetryShowsTheWindow` assumes, clause by clause. -/
theorem turn_telemetry_shows_the_window_meets :
    (∃ (s : State), s.quiet = true ∧ s.phase ≠ 0) ∧
    (∃ (s : State), s.quiet = true ∧ s.writes .steward pgTBS 0x1A8 1 = true) :=
  ⟨⟨up,
    by decide +kernel⟩,
   ⟨up,
    by decide +kernel⟩⟩

/-- States and operands that meet what `Obligations.ReferenceWindowGradesBothGood` assumes, clause by clause. -/
theorem reference_window_grades_both_good_meets :
    (∃ (s : State) (dAB : BitVec 16) (dAO : BitVec 16) (dBO : BitVec 16), s.quiet = true ∧ s.time.running = true ∧ s.tbMode = 0 ∧ s.time.oscFailed = false ∧ s.grade false ≤ 1 ∧ s.grade true ≤ 1 ∧ s.flag pgTBS F.TBS_REF_CTRL_REVERT = false ∧ dAB.toInt.natAbs ≤ s.get pgTBS F.TBS_REF_CTRL_WARN_PPM ∧ dAO.toInt.natAbs ≤ s.get pgTBS F.TBS_REF_CTRL_WARN_PPM ∧ dBO.toInt.natAbs ≤ s.get pgTBS F.TBS_REF_CTRL_WARN_PPM ∧ s.get pgTBS F.TBS_REF_CTRL_WARN_PPM ≤ s.get pgTBS F.TBS_REF_CTRL_OUT_PPM) :=
  ⟨up,
    0,
    0,
    0,
    by decide +kernel⟩

/-- States and operands that meet what `Obligations.LostReferenceSwitchesOrHoldsOver` assumes, clause by clause. -/
theorem lost_reference_switches_or_holds_over_meets :
    (∃ (s : State), s.quiet = true ∧ s.time.running = true ∧ s.tbMode = 0 ∧ s.time.oscFailed = false ∧ s.grade (!s.selRef) ≤ 1 ∧ s.get pgTBS F.TBS_REF_SWITCH_COUNT < 0xFFFE) ∧
    (∃ (s : State), s.quiet = true ∧ s.time.running = true ∧ s.tbMode = 0 ∧ s.time.oscFailed = false ∧ 2 ≤ s.grade (!s.selRef)) ∧
    (∃ (s : State), s.quiet = true ∧ s.time.running = true ∧ s.tbMode = 0 ∧ s.time.oscFailed = false ∧ s.grade s.selRef ≤ 1) ∧
    (∃ (s : State), s.quiet = true ∧ s.time.running = true ∧ s.tbMode = 1 ∧ s.time.oscFailed = false) ∧
    (∃ (s : State), s.quiet = true ∧ s.time.running = true ∧ s.tbMode = 0 ∧ s.time.oscFailed = true ∧ (s.refSt (!s.selRef)).present = true) ∧
    (∃ (s : State), s.quiet = true ∧ s.time.running = true ∧ s.tbMode = 0 ∧ s.time.oscFailed = true ∧ (s.refSt (!s.selRef)).present = false ∧ s.isFatal = false) ∧
    (∃ (s : State), s.quiet = true ∧ s.time.running = true ∧ s.tbMode = 0 ∧ s.time.oscFailed = true ∧ s.grade s.selRef ≤ 2) ∧
    (∃ (s : State), s.quiet = true ∧ 2 ≤ s.tbMode) ∧
    (∃ (s : State), s.quiet = true ∧ s.tbMode ≠ 1) ∧
    (∃ (s : State), s.quiet = true ∧ s.time.running = true ∧ s.tbMode = 1 ∧ s.isFatal = false ∧ (s.refSt false).present = false ∧ (s.refSt true).present = false) ∧
    (∃ (s : State), s.quiet = true ∧ s.time.running = true ∧ s.tbMode = 1 ∧ (s.refSt s.selRef).present = true) :=
  ⟨⟨up,
    by decide +kernel⟩,
   ⟨up.setGrade true 3,
    by decide +kernel⟩,
   ⟨up,
    by decide +kernel⟩,
   ⟨up.set pgTBS F.TBS_REF_STATUS_TB_MODE 1,
    by decide +kernel⟩,
   ⟨{ up with time := { up.time with oscFailed := true } },
    by decide +kernel⟩,
   ⟨{ up with time := { up.time with oscFailed := true, refB := { present := false } } },
    by decide +kernel⟩,
   ⟨{ up with time := { up.time with oscFailed := true } },
    by decide +kernel⟩,
   ⟨up.set pgTBS F.TBS_REF_STATUS_TB_MODE 2,
    by decide +kernel⟩,
   ⟨up,
    by decide +kernel⟩,
   ⟨({ up with time := { up.time with refA := { present := false }, refB := { present := false } } }).set pgTBS F.TBS_REF_STATUS_TB_MODE 1,
    by decide +kernel⟩,
   ⟨up.set pgTBS F.TBS_REF_STATUS_TB_MODE 1,
    by decide +kernel⟩⟩

/-- States and operands that meet what `Obligations.ForceSelectsOnlyAUsableReference` assumes, clause by clause. -/
theorem force_selects_only_a_usable_reference_meets :
    (∃ (s : State) (b : Bool), s.quiet = true ∧ s.writes .steward pgTBS 0x100 (wput (s.rd pgTBS 0x100) F.TBS_REF_CTRL_FORCE.lo 2 (if b then 2 else 1)) = true ∧ 1 ≤ s.get pgTBS F.TBS_REF_CTRL_WARN_PPM ∧ s.get pgTBS F.TBS_REF_CTRL_WARN_PPM < s.get pgTBS F.TBS_REF_CTRL_OUT_PPM ∧ 2 ≤ s.grade b) ∧
    (∃ (s : State) (b : Bool), s.quiet = true ∧ s.writes .steward pgTBS 0x100 (wput (s.rd pgTBS 0x100) F.TBS_REF_CTRL_FORCE.lo 2 (if b then 2 else 1)) = true ∧ 1 ≤ s.get pgTBS F.TBS_REF_CTRL_WARN_PPM ∧ s.get pgTBS F.TBS_REF_CTRL_WARN_PPM < s.get pgTBS F.TBS_REF_CTRL_OUT_PPM ∧ s.grade b ≤ 1 ∧ s.tbMode = 0) ∧
    (∃ (s : State), s.quiet = true ∧ s.writes .steward pgTBS 0x100 (wput (s.rd pgTBS 0x100) F.TBS_REF_CTRL_FORCE.lo 2 0) = true ∧ 1 ≤ s.get pgTBS F.TBS_REF_CTRL_WARN_PPM ∧ s.get pgTBS F.TBS_REF_CTRL_WARN_PPM < s.get pgTBS F.TBS_REF_CTRL_OUT_PPM) :=
  ⟨⟨up.setGrade true 2,
    true,
    by decide +kernel⟩,
   ⟨up,
    true,
    by decide +kernel⟩,
   ⟨up,
    by decide +kernel⟩⟩

/-- States and operands that meet what `Obligations.CommonRegisterWrites` assumes, clause by clause. -/
theorem common_register_writes_meets :
    (∃ (s : State) (a : BitVec 48) (w : Word) (p : Page) (off : Nat), s.quiet = true ∧ region a.toNat = .page p off ∧ a.toNat % 4 = 0 ∧ p.kind.tenant = false ∧ (s.mirroredReg p off = false ∨ s.twinState = twOFF) ∧ s.writes .steward p off w = true ∧ (off = 0x024 ∨ off = 0x044)) ∧
    (∃ (s : State) (a : BitVec 48) (w : Word) (p : Page) (off : Nat), s.quiet = true ∧ region a.toNat = .page p off ∧ a.toNat % 4 = 0 ∧ p.kind.tenant = false ∧ (s.mirroredReg p off = false ∨ s.twinState = twOFF) ∧ s.writes .steward p off w = true ∧ off = 0x020) ∧
    (∃ (s : State) (a : BitVec 48) (w : Word) (p : Page) (off : Nat) (d : RegDef), s.quiet = true ∧ region a.toNat = .page p off ∧ a.toNat % 4 = 0 ∧ (p.kind = .BNK ∨ p.kind = .GSW ∨ p.kind = .ERP) ∧ 0x100 ≤ off ∧ findReg p.kind off = some d ∧ d.wide = false ∧ s.writes .steward p off w = true) ∧
    (∃ (s : State) (a : BitVec 48) (w : Word) (g : Fin 8), s.quiet = true ∧ a.toNat = (arbPage g).base + 0x104 ∧ s.writes .steward (arbPage g) 0x104 w = true ∧ s.commitPending (arbPage g) = false) ∧
    (∃ (s : State) (a : BitVec 48) (p : Page) (off : Nat), s.quiet = true ∧ region a.toNat = .page p off ∧ a.toNat % 4 ≠ 0 ∧ s.stwServes = true) ∧
    (∃ (s : State) (a : BitVec 48) (w : Word), s.quiet = true ∧ a.toNat = pgTBS.base + 0x130 ∧ s.writes .steward pgTBS 0x130 w = true ∧ s.flag pgTBS F.TBS_TIME_STATUS_PENDING = true) ∧
    (∃ (s : State) (a : BitVec 48) (w : Word), s.quiet = true ∧ a.toNat = pgBOOT.base + 0x200 ∧ s.writes .steward pgBOOT 0x200 w = true) ∧
    (∃ (s : State) (a : BitVec 48), s.quiet = true ∧ region a.toNat = .reserved ∧ s.stwServes = true) ∧
    (∃ (s : State) (m : Fin 16) (a : BitVec 48) (p : Page) (off : Nat), s.quiet = true ∧ region a.toNat = .page p off ∧ p.kind.tenant = true ∧ s.fabricServes m = true ∧ s.authorised m p.inst = false) ∧
    (∃ (s : State), s.quiet = true) :=
  ⟨⟨up,
    adr pgTBS 0x044,
    0x12345678,
    pgTBS,
    0x044,
    by decide +kernel⟩,
   ⟨up.raise pgTBS 20,
    adr pgTBS 0x020,
    0x100000,
    pgTBS,
    0x020,
    by decide +kernel⟩,
   ⟨up,
    adr (bnkPage 3) 0x118,
    0x12345678,
    bnkPage 3,
    0x118,
    ((findReg .BNK 0x118).getD ⟨0, 0, 0, false, []⟩),
    by decide +kernel⟩,
   ⟨up,
    adr (arbPage 7) 0x104,
    0xFFFF,
    7,
    by decide +kernel⟩,
   ⟨up,
    adr pgTBS 0x022,
    pgTBS,
    0x022,
    by decide +kernel⟩,
   ⟨up.set pgTBS F.TBS_TIME_STATUS_PENDING 1,
    adr pgTBS 0x130,
    9,
    by decide +kernel⟩,
   ⟨up,
    adr pgBOOT 0x200,
    9,
    by decide +kernel⟩,
   ⟨up,
    0x2FFFFFFFF0,
    by decide +kernel⟩,
   ⟨fab.set (modPage 0) F.MOD_PORT_AUTH_MASK 1,
    0,
    adr ⟨.TDB, 1⟩ 0x100,
    ⟨.TDB, 1⟩,
    0x100,
    by decide +kernel⟩,
   ⟨up,
    by decide +kernel⟩⟩

/-- States and operands that meet what `Obligations.CommitTakesShadowsTogether` assumes, clause by clause. -/
theorem commit_takes_shadows_together_meets :
    (∃ (s : State) (port : Port) (p : Page), s.quiet = true ∧ p.kind.tenant = false ∧ (s.mirroredReg p 0x010 = false ∨ s.twinState = twOFF) ∧ s.writes port p 0x010 1 = true ∧ s.commitPending p = false ∧ s.commitLegal p = true) ∧
    (∃ (s : State) (port : Port) (p : Page), s.quiet = true ∧ p.kind.tenant = false ∧ (s.mirroredReg p 0x010 = false ∨ s.twinState = twOFF) ∧ s.writes port p 0x010 1 = true ∧ s.commitPending p = false ∧ s.commitLegal p = false) ∧
    (∃ (s : State) (port : Port) (p : Page), s.quiet = true ∧ p.kind.tenant = false ∧ (s.mirroredReg p 0x010 = false ∨ s.twinState = twOFF) ∧ s.writes port p 0x010 1 = true ∧ s.commitPending p = true) ∧
    (∃ (s : State) (p : Page), s.quiet = true ∧ pageValid p = true ∧ p.kind ≠ .PRS ∧ p.kind ≠ .TEV ∧ s.commitPending p = true ∧ (p.kind = .ENG → s.engIdle p.inst = true ∨ s.halted p = true)) ∧
    (∃ (s : State) (p : Page), s.quiet = true ∧ (p.kind = .PRS ∨ p.kind = .TEV ∨ p.kind = .ENG ∧ s.engIdle p.inst = false ∧ s.halted p = false)) ∧
    (∃ (s : State) (port : Port) (p : Page), s.quiet = true ∧ p.kind.tenant = false ∧ (s.mirroredReg p 0x010 = false ∨ s.twinState = twOFF) ∧ s.writes port p 0x010 2 = true) :=
  ⟨⟨up,
    .steward,
    arbPage 1,
    by decide +kernel⟩,
   ⟨up.wrSh (arbPage 1) 0x104 0,
    .steward,
    arbPage 1,
    by decide +kernel⟩,
   ⟨up.pendingIs (arbPage 1) 1,
    .steward,
    arbPage 1,
    by decide +kernel⟩,
   ⟨(up.wrSh (arbPage 1) 0x104 77).pendingIs (arbPage 1) 1,
    arbPage 1,
    by decide +kernel⟩,
   ⟨up.pendingIs pgPRS 1,
    pgPRS,
    by decide +kernel⟩,
   ⟨(up.wrSh (arbPage 1) 0x104 77).pendingIs (arbPage 1) 1,
    .steward,
    arbPage 1,
    by decide +kernel⟩⟩

/-- States and operands that meet what `Obligations.HaltStopsAndReleasesABlock` assumes, clause by clause. -/
theorem halt_stops_and_releases_a_block_meets :
    (∃ (s : State) (p : Page), s.quiet = true ∧ capBit p.kind 1 = true ∧ (s.mirroredReg p 0x008 = false ∨ s.twinState = twOFF) ∧ s.writes .steward p 0x008 (s.ctrlWord p + 1) = true ∧ s.flag p F.PAGE_CTRL_HALT = false ∧ s.running p = true) ∧
    (∃ (s : State) (p : Page), s.quiet = true ∧ pageValid p = true ∧ p.kind ≠ .HC ∧ s.run p = HALTING ∧ s.haltReady p = true) ∧
    (∃ (s : State) (g : Fin 8), s.quiet = true ∧ s.run (hcPage g) = HALTING ∧ s.hcState g = 2 ∧ (s.hc g).queue = [] ∧ (s.hc g).retraining = []) ∧
    (∃ (s : State) (p : Page), s.quiet = true ∧ capBit p.kind 1 = true ∧ (s.mirroredReg p 0x008 = false ∨ s.twinState = twOFF) ∧ s.writes .steward p 0x008 (s.ctrlWord p) = true ∧ (s.run p = HALTING ∨ s.run p = HALTED)) :=
  ⟨⟨up,
    engPage 2,
    by decide +kernel⟩,
   ⟨up.set (engPage 2) F.PAGE_STATE_RUN 1,
    engPage 2,
    by decide +kernel⟩,
   ⟨(up.set (hcPage 2) F.PAGE_STATE_RUN 1).set (hcPage 2) F.HC_HC_STATUS_STATE 2,
    2,
    by decide +kernel⟩,
   ⟨(up.set (hcPage 2) F.PAGE_STATE_RUN 2).set (hcPage 2) F.HC_HC_STATUS_STATE 5,
    hcPage 2,
    by decide +kernel⟩⟩

/-- States and operands that meet what `Obligations.SoftResetRunsThroughResetting` assumes, clause by clause. -/
theorem soft_reset_runs_through_resetting_meets :
    (∃ (s : State) (g : Fin 8), s.quiet = true ∧ s.writes .steward (mixPage g) 0x008 (s.ctrlWord (mixPage g) + wordOf (s.get (mixPage g) F.PAGE_CTRL_HALT) + 2) = true) ∧
    (∃ (s : State) (p : Page), s.quiet = true ∧ s.writes .steward p 0x008 (s.ctrlWord p + wordOf (s.get p F.PAGE_CTRL_HALT) + 2) = true ∧ (p.kind = .ENG ∧ (∀ i < 8, s.queue (8 * p.inst + i) = {}) ∧ s.hall.waiters = [] ∧ s.hall.held = [] ∧ s.hall.holders = [] ∨ p.kind = .FMN ∧ s.hall.waiters = [] ∧ s.hall.held = [] ∧ s.hall.holders = [] ∨ p.kind = .HC ∧ 5 ≤ s.phase ∧ (s.hc p.inst).queue = [] ∧ (s.hc p.inst).waiting = [])) ∧
    (∃ (s : State) (g : Fin 8), s.quiet = true ∧ s.phase < 5 ∧ s.writes .steward (hcPage g) 0x008 (s.ctrlWord (hcPage g) + wordOf (s.get (hcPage g) F.PAGE_CTRL_HALT) + 2) = true) ∧
    (∃ (s : State) (g : Fin 8), s.quiet = true ∧ s.run (mixPage g) = RESETTING) ∧
    (∃ (s : State) (p : Page), s.quiet = true ∧ pageValid p = true ∧ s.run p = RESETTING ∧ (p.kind = .FMN ∨ p.kind = .ENG ∧ s.softResetReady p = true)) ∧
    (∃ (s : State) (g : Fin 8), s.quiet = true ∧ s.run (hcPage g) = RESETTING ∧ s.hcState g = 3) ∧
    (∃ (s : State) (g : Fin 8), s.quiet = true ∧ s.run (hcPage g) = RESETTING ∧ s.hcState g = 3 ∧ (s.hc g).queue = [] ∧ (s.hc g).waiting = []) ∧
    (∃ (s : State) (g : Fin 8), s.quiet = true ∧ s.run (hcPage g) = RESETTING ∧ s.hcState g = 1) :=
  ⟨⟨up,
    3,
    by decide +kernel⟩,
   ⟨up,
    engPage 3,
    by decide +kernel⟩,
   ⟨inP 3,
    3,
    by decide +kernel⟩,
   ⟨up.set (mixPage 3) F.PAGE_STATE_RUN 3,
    3,
    by decide +kernel⟩,
   ⟨up.set (engPage 3) F.PAGE_STATE_RUN 3,
    engPage 3,
    by decide +kernel⟩,
   ⟨(up.set (hcPage 3) F.PAGE_STATE_RUN 3).set (hcPage 3) F.HC_HC_STATUS_STATE 3,
    3,
    by decide +kernel⟩,
   ⟨(up.set (hcPage 3) F.PAGE_STATE_RUN 3).set (hcPage 3) F.HC_HC_STATUS_STATE 3,
    3,
    by decide +kernel⟩,
   ⟨(up.set (hcPage 3) F.PAGE_STATE_RUN 3).set (hcPage 3) F.HC_HC_STATUS_STATE 1,
    3,
    by decide +kernel⟩⟩

/-- States and operands that meet what `Obligations.InjectionReportsWithoutTheEvent` assumes, clause by clause. -/
theorem injection_reports_without_the_event_meets :
    (∃ (s : State) (p : Page) (w : Word), s.quiet = true ∧ capBit p.kind 5 = true ∧ (∀ b < 32, w.getLsbD b = true → fatalOnly p.kind b = false) ∧ (s.mirroredReg p 0x030 = false ∨ s.twinState = twOFF) ∧ s.writes .steward p 0x030 w = true) ∧
    (∃ (s : State) (p : Page) (b : Nat), s.quiet = true ∧ b < 32 ∧ capBit p.kind 5 = true ∧ errEvent p.kind b = true ∧ fatalOnly p.kind b = false ∧ (s.mirroredReg p 0x030 = false ∨ s.twinState = twOFF) ∧ s.writes .steward p 0x030 (BitVec.ofNat 32 (2 ^ b)) = true) ∧
    (∃ (s : State) (p : Page) (w : Word), s.quiet = true ∧ capBit p.kind 5 = true ∧ (∀ b < 32, w.getLsbD b = true → errEvent p.kind b = false) ∧ (s.mirroredReg p 0x030 = false ∨ s.twinState = twOFF) ∧ s.writes .steward p 0x030 w = true) ∧
    (∃ (s : State) (p : Page) (b : Nat), s.quiet = true ∧ b < 32 ∧ capBit p.kind 5 = true ∧ errEvent p.kind b = true ∧ fatalOnly p.kind b = true ∧ (s.mirroredReg p 0x030 = false ∨ s.twinState = twOFF) ∧ s.isFatal = false ∧ s.writes .steward p 0x030 (BitVec.ofNat 32 (2 ^ b)) = true) :=
  ⟨⟨up.wr pgTBS 0x024 0x20000,
    pgTBS,
    0x30100,
    by decide +kernel⟩,
   ⟨up.wr pgTBS 0x024 0x20000,
    pgTBS,
    17,
    by decide +kernel⟩,
   ⟨up,
    pgTBS,
    0xFF00,
    by decide +kernel⟩,
   ⟨up,
    gswPage 3,
    Err.GSW_STAIR_HDR_PARITY,
    by decide +kernel⟩⟩

/-- States and operands that meet what `Obligations.CheckCodeCorrectsOneFlipAndMarksTwo` assumes, clause by clause. -/
theorem check_code_corrects_one_flip_and_marks_two_meets :
    (∃ (loc : _) (data : _), loc < 2 ^ 24 ∧ data < 2 ^ 64) :=
  ⟨0xABCDE1,
    0x123456789ABCDEF0,
    by decide +kernel⟩

/-- States and operands that meet what `Obligations.BankWriteAndReadOfALine` assumes, clause by clause. -/
theorem bank_write_and_read_of_a_line_meets :
    (∃ (s : State) (b : Fin 512), s.quiet = true ∧ s.flag (bnkPage b) F.BNK_ECC_INJECT_ARM = false) ∧
    (∃ (s : State) (b : Fin 512) (en : BitVec 64), s.quiet = true ∧ s.flag (bnkPage b) F.BNK_ECC_INJECT_ARM = false ∧ partialGranule en.toNat = true) ∧
    (∃ (s : State), s.quiet = true) ∧
    (∃ (s : State) (g : Fin 8) (w : Word), s.quiet = true ∧ s.writes .steward ⟨.BNK, g⟩ 0x118 w = true) :=
  ⟨⟨up,
    511,
    by decide +kernel⟩,
   ⟨up,
    511,
    0xFF0F000000000103,
    by decide +kernel⟩,
   ⟨((up.granWrite 3 5 1 7 true).granWrite 3 5 0 9 false),
    by decide +kernel⟩,
   ⟨up,
    3,
    0xFFFFFFFF,
    by decide +kernel⟩⟩

/-- States and operands that meet what `Obligations.TinkerTargetsAndSpares` assumes, clause by clause. -/
theorem tinker_targets_and_spares_meets :
    (∃ (s : State) (g : Fin 8) (b : BitVec 6) (r : BitVec 6), s.quiet = true ∧ s.writes .steward (tnkPage g) 0x108 (wordOf (b.toNat + r.toNat * 64)) = true ∧ (s.tinker g).targets.length < 4 ∧ r.toNat ≤ 48) ∧
    (∃ (s : State) (g : Fin 8) (b : BitVec 6) (r : BitVec 6), s.quiet = true ∧ s.writes .steward (tnkPage g) 0x108 (wordOf (b.toNat + r.toNat * 64)) = true ∧ (4 ≤ (s.tinker g).targets.length ∨ 48 < r.toNat)) ∧
    (∃ (s : State) (b : Fin 512) (w : CeWin), s.quiet = true ∧ find s.ceWindow b = some w ∧ w.queued = false ∧ (s.tinker (b / 64)).trigger ≠ 0 ∧ (s.tinker (b / 64)).trigger ≤ w.n ∧ (s.tinker (b / 64)).targets.length < 4 ∧ (b.val % 64, w.line / 64) ∉ (s.tinker (b / 64)).targets) ∧
    (∃ (s : State) (g : Fin 8) (b : Nat) (r : Nat) (rest : List (Nat × Nat)), s.quiet = true ∧ s.phase = 6 ∧ s.running (tnkPage g) = true ∧ s.running pgMMAP = true ∧ s.flag (tnkPage g) F.TNK_TNK_CTRL_EN = true ∧ (s.tinker g).nextAt ≤ s.ticks ∧ (s.tinker g).targets = (b, r) :: rest ∧ b < 64 ∧ r < 48 ∧ (∀ i < 64, ∀ j < 8, (s.granPeek (64 * g + b) (64 * r + i) j).cls = .good)) ∧
    (∃ (s : State) (g : Fin 8) (w : Word), s.quiet = true ∧ s.writes .steward (tnkPage g) 0x124 w = true ∧ s.halted (tnkPage g) = true ∧ s.get (tnkPage g) F.TNK_SPARE_INDEX_SLOT < 24 ∧ wbits w 0 12 < 3072 ∧ w.getLsbD 12 = true ∧ w.getLsbD 14 = false ∧ (s.spare (64 * g + s.get (tnkPage g) F.TNK_SPARE_INDEX_BANK) (s.get (tnkPage g) F.TNK_SPARE_INDEX_SLOT)).factory = false ∧ (w ^^^ s.spareWord g) &&& 0x5FFF#32 ≠ 0 ∧ (∀ j < 24, (s.spare (64 * g + s.get (tnkPage g) F.TNK_SPARE_INDEX_BANK) j).maps (wbits w 0 12) = false)) :=
  ⟨⟨up,
    3,
    63,
    48,
    by decide +kernel⟩,
   ⟨up,
    3,
    63,
    49,
    by decide +kernel⟩,
   ⟨{ up with ceWindow := [(130, ⟨16, 70, false⟩)] },
    130,
    ⟨16, 70, false⟩,
    by decide +kernel⟩,
   ⟨up.setTinker 1 { targets := [(3, 4)] },
    1,
    3,
    4,
    [],
    by decide +kernel⟩,
   ⟨(((up.set (tnkPage 1) F.PAGE_STATE_RUN 2).set (tnkPage 1) F.TNK_SPARE_INDEX_SLOT 23).set (tnkPage 1) F.TNK_SPARE_INDEX_BANK 7),
    1,
    0x1005,
    by decide +kernel⟩⟩

/-- States and operands that meet what `Obligations.DrawWinnerIsARequester` assumes, clause by clause. -/
theorem draw_winner_is_a_requester_meets :
    (∃ (s : State) (id : BitVec 16) (reqs : List Req) (ws : List Req), s.quiet = true ∧ arbValid id.toNat = true ∧ drawsAtOnce id.toNat = false ∧ ws = (if id.toNat / 4096 = 2 ∨ id.toNat / 4096 = 0xC then s.heldReqs id.toNat else reqs ++ s.heldReqs id.toNat) ∧ ((find s.grants id.toNat).any fun w => (s.heldReqs id.toNat).any fun r => r.index == w.winner) = false ∧ (∃ r ∈ ws, reqFits id.toNat r = true)) ∧
    (∃ (s : State) (id : BitVec 16) (reqs : List Req) (ws : List Req), s.quiet = true ∧ arbValid id.toNat = true ∧ drawsAtOnce id.toNat = false ∧ ws = (if id.toNat / 4096 = 2 ∨ id.toNat / 4096 = 0xC then s.heldReqs id.toNat else reqs ++ s.heldReqs id.toNat) ∧ ((find s.grants id.toNat).any fun w => (s.heldReqs id.toNat).any fun r => r.index == w.winner) = false ∧ (∀ r ∈ ws, reqFits id.toNat r = false)) ∧
    (∃ (s : State) (id : BitVec 16), s.quiet = true ∧ arbValid id.toNat = true ∧ drawsAtOnce id.toNat = false ∧ ((find s.grants id.toNat).any fun w => (s.heldReqs id.toNat).any fun r => r.index == w.winner) = true) ∧
    (∃ (s : State) (id : BitVec 16), s.quiet = true ∧ arbValid id.toNat = true ∧ (find s.grants id.toNat ≠ none ∨ drawsAtOnce id.toNat = true) ∧ s.get (arbPage (arbGallery id.toNat)) F.ARB_DEAD_TURNS < 2 ^ 32 - 1) ∧
    (∃ (s : State) (id : BitVec 16) (reqs : List Req), s.quiet = true ∧ arbValid id.toNat = true ∧ drawsAtOnce id.toNat = false ∧ id.toNat / 4096 ≠ 2 ∧ id.toNat / 4096 ≠ 7 ∧ id.toNat / 4096 ≠ 0xC ∧ find s.grants id.toNat ≠ none ∧ (∃ r ∈ reqs, reqFits id.toNat r = true)) ∧
    (∃ (s : State) (id : BitVec 16), s.quiet = true ∧ arbValid id.toNat = true ∧ (s.emerged.contains id.toNat = false ∨ id.toNat / 4096 = 6 ∨ s.arbWaits id.toNat = false) ∧ s.get (arbPage (arbGallery id.toNat)) F.ARB_EMERG_CUTS < 2 ^ 32 - 1) ∧
    (∃ (s : State) (id : BitVec 16), s.quiet = true ∧ arbValid id.toNat = true ∧ (s.emerged.contains id.toNat = false ∨ id.toNat / 4096 = 6 ∨ s.arbWaits id.toNat = false)) ∧
    (∃ (s : State) (id : BitVec 16), s.quiet = true ∧ s.emerged.contains id.toNat = true ∧ id.toNat / 4096 ≠ 6 ∧ s.arbWaits id.toNat = true) ∧
    (∃ (s : State) (g : Fin 8), s.quiet = true ∧ s.writes .steward (arbPage g) 0x100 (s.rdSh (arbPage g) 0x100 &&& 1 ||| 2) = true) ∧
    (∃ (s : State) (m : Fin 16), s.quiet = true ∧ s.modUp m = true ∧ (s.link m).retraining = false ∧ (s.link m).resend = [] ∧ (s.link m).replay = [] ∧ (s.link m).tx = [] ∧ (s.link m).returns = [] ∧ (s.link m).pace = none) :=
  ⟨⟨up,
    0x1000,
    [⟨3, 3, 1⟩, ⟨5, 5, 2⟩],
    [⟨3, 3, 1⟩, ⟨5, 5, 2⟩],
    by decide +kernel⟩,
   ⟨{ up with grants := [(0x1000, ⟨4⟩)] },
    0x1000,
    [⟨3, 4, 1⟩],
    [⟨3, 4, 1⟩],
    by decide +kernel⟩,
   ⟨{ slotted up with grants := [(0xC000, ⟨0⟩)], rings := [(1, { next := 3 })] },
    0xC000,
    by decide +kernel⟩,
   ⟨up,
    0x5000,
    by decide +kernel⟩,
   ⟨{ up with grants := [(0x1000, ⟨4⟩)] },
    0x1000,
    [⟨3, 3, 1⟩],
    by decide +kernel⟩,
   ⟨up,
    0x1000,
    by decide +kernel⟩,
   ⟨up,
    0x1000,
    by decide +kernel⟩,
   ⟨{ up with grants := [(0x1000, ⟨4⟩)], emerged := [0x1000] },
    0x1000,
    by decide +kernel⟩,
   ⟨{ up with lfsrs := [(0x1000, 5), (0x1111, 7)], seeds := [(0, ⟨3, true⟩)] },
    0,
    by decide +kernel⟩,
   ⟨withMod 3 up,
    3,
    by decide +kernel⟩⟩

/-- States and operands that meet what `Obligations.UrgencyIsAdoptedAndReported` assumes, clause by clause. -/
theorem urgency_is_adopted_and_reported_meets :
    (∃ (s : State), s.quiet = true) ∧
    (∃ (s : State) (m : Fin 16), s.quiet = true ∧ (s.link m).urgIn ≠ (s.link m).urg) ∧
    (∃ (s : State) (m : Fin 16), s.quiet = true ∧ (s.link m).urg = 3 ∧ s.get (arbPage (m / 2)) F.ARB_URG_CTRL_CRIT_WARN ≠ 0 ∧ (s.link m).urgSince + s.get (arbPage (m / 2)) F.ARB_URG_CTRL_CRIT_WARN ≤ s.ticks ∧ (s.link m).urgNoted = false) ∧
    (∃ (s : State) (m : Fin 16), s.quiet = true ∧ (s.link m).urg = 3 ∧ s.get (arbPage (m / 2)) F.ARB_URG_CTRL_CRIT_WARN ≠ 0 ∧ (s.link m).urgSince + s.get (arbPage (m / 2)) F.ARB_URG_CTRL_CRIT_WARN ≤ s.ticks ∧ (s.link m).urgNoted = true) :=
  ⟨⟨up,
    by decide +kernel⟩,
   ⟨{ up with links := [(3, { urgIn := 2 })] },
    3,
    by decide +kernel⟩,
   ⟨(atTick 100000 ({ up with links := [(3, { urg := 3 })] })),
    3,
    by decide +kernel⟩,
   ⟨(atTick 100000 ({ up with links := [(3, { urg := 3, urgNoted := true })] })),
    3,
    by decide +kernel⟩⟩

/-- States and operands that meet what `Obligations.RegulationWindowCopiesItsCounts` assumes, clause by clause. -/
theorem regulation_window_copies_its_counts_meets :
    (∃ (s : State) (g : Fin 8), s.quiet = true ∧ s.time.running = true ∧ (s.arb g).winAt + s.get (arbPage g) F.ARB_REG_WINDOW_US ≤ s.ticks) ∧
    (∃ (s : State) (g : Fin 8) (k : Fin 8), s.quiet = true ∧ (s.get (arbPage g) F.ARB_CLASS_STATE_SATURATED).testBit k = false ∧ max 1 (s.arb g).satAfter ≤ (find (s.arb g).heldRun k).getD 0) ∧
    (∃ (s : State) (g : Fin 8) (k : Fin 8), s.quiet = true ∧ (s.get (arbPage g) F.ARB_CLASS_STATE_SATURATED).testBit k = true ∧ max 1 (s.arb g).satClear ≤ (find (s.arb g).freeRun k).getD 0) :=
  ⟨⟨(atTick 5000 ({ up with arbs := [(2, { win := [(3, 7), (12, 9)] })] })),
    2,
    by decide +kernel⟩,
   ⟨{ up with arbs := [(2, { heldRun := [(3, 70000)] })] },
    2,
    3,
    by decide +kernel⟩,
   ⟨({ up with arbs := [(2, { freeRun := [(3, 70000)] })] }).set (arbPage 2) F.ARB_CLASS_STATE_SATURATED 8,
    2,
    3,
    by decide +kernel⟩⟩

/-- States and operands that meet what `Obligations.StairMessageReachesItsNode` assumes, clause by clause. -/
theorem stair_message_reaches_its_node_meets :
    (∃ (s : State) (g : Fin 8) (k : Fin 3) (lane : Fin 2) (rsp : Bool) (cls : Fin 8) (m : StairMsg), s.quiet = true ∧ s.stairBuf (stairKey g k lane rsp) = [m] ∧ m.cls = cls ∧ m.held = false ∧ s.stairReqs g k = [⟨stairIndex lane rsp cls, cls, m.urg⟩] ∧ find s.grants (0x2000 + 3 * g + k) = none ∧ stairAhead (stairNext g k) lane m = []) ∧
    (∃ (s : State) (g : Fin 8) (k : Fin 3) (lane : Fin 2) (rsp : Bool) (cls : Fin 8) (m : StairMsg) (j : _) (v : _), s.quiet = true ∧ s.stairBuf (stairKey g k lane rsp) = [m] ∧ m.cls = cls ∧ m.held = false ∧ s.stairReqs g k = [⟨stairIndex lane rsp cls, cls, m.urg⟩] ∧ find s.grants (0x2000 + 3 * g + k) = none ∧ stairAhead (stairNext g k) lane m = [(j, v)] ∧ s.stairAdmits (stairNext g k) (s.stairBuf (stairKey (stairNext g k) j 1 rsp)) m.cls m.urg = true) ∧
    (∃ (s : State) (g : Fin 8) (k : Fin 3) (lane : Fin 2) (rsp : Bool) (cls : Fin 8) (m : StairMsg), s.quiet = true ∧ s.stairBuf (stairKey g k lane rsp) = [m] ∧ m.cls = cls ∧ m.held = false ∧ s.stairReqs g k = [⟨stairIndex lane rsp cls, cls, m.urg⟩] ∧ find s.grants (0x2000 + 3 * g + k) = none ∧ stairAhead (stairNext g k) lane m = [] ∧ s.isFatal = false) ∧
    (∃ (s : State) (g : Fin 8) (k : Fin 3) (lane : Fin 2) (rsp : Bool) (cls : Fin 8) (m : StairMsg) (w : Nat), s.quiet = true ∧ s.stairFirst g k lane rsp cls = some m ∧ s.stairFull (stairNext g k) rsp m (stairAhead (stairNext g k) lane m) = none ∧ find s.grants (0x2000 + 3 * g + k) = some ⟨w⟩ ∧ w ≠ stairIndex lane rsp cls ∧ ((s.stairReqs g k).any fun r => r.index == w) = true) :=
  ⟨⟨{ up with stair := [(stairKey 3 1 1 true, [{ mask := 0xFF, cls := 2, ctx := 0, n := 64 }])] },
    3,
    1,
    1,
    true,
    2,
    { mask := 0xFF, cls := 2, ctx := 0, n := 64 },
    by decide +kernel⟩,
   ⟨{ up with stair := [(stairKey 3 1 0 true, [{ mask := 8, cls := 2, ctx := 0, n := 64 }])] },
    3,
    1,
    0,
    true,
    2,
    { mask := 8, cls := 2, ctx := 0, n := 64 },
    ((stairAhead (stairNext 3 1) 0 ({ mask := 8, cls := 2, ctx := 0, n := 64 })).headD (0, 0)).1,
    ((stairAhead (stairNext 3 1) 0 ({ mask := 8, cls := 2, ctx := 0, n := 64 })).headD (0, 0)).2,
    by decide +kernel⟩,
   ⟨{ up with stair := [(stairKey 3 1 1 true, [{ mask := 0xFF, cls := 2, ctx := 0, n := 64 }])] },
    3,
    1,
    1,
    true,
    2,
    { mask := 0xFF, cls := 2, ctx := 0, n := 64 },
    by decide +kernel⟩,
   ⟨{ up with grants := [(0x200A, ⟨stairIndex 1 false 2⟩)], stair := [(stairKey 3 1 1 true, [{ mask := 0xFF, cls := 2, ctx := 0, n := 64 }]), (stairKey 3 1 1 false, [{ mask := 0xFF, cls := 2, ctx := 0, n := 64 }])] },
    3,
    1,
    1,
    true,
    2,
    { mask := 0xFF, cls := 2, ctx := 0, n := 64 },
    stairIndex 1 false 2,
    by decide +kernel⟩⟩

/-- States and operands that meet what `Obligations.PurserComputesAndAppliesTheDivision` assumes, clause by clause. -/
theorem purser_computes_and_applies_the_division_meets :
    (∃ (s : State), s.quiet = true ∧ s.ticks % 4 = 2 ∧ 2 ≤ s.phase ∧ s.purser.computedAt ≠ some s.ticks) ∧
    (∃ (s : State) (nx : PrsNext), s.quiet = true ∧ s.ticks % 4 = 0 ∧ s.purser.startedAt ≠ some s.ticks ∧ s.purser.next = some nx) ∧
    (∃ (s : State) (est : Nat), s.quiet = true ∧ s.ticks % 100 = 0 ∧ s.avsOk = true ∧ est ≠ 0 ∧ s.purser.calAt ≠ some s.ticks ∧ 32 ≤ s.get pgPRS F.PRS_CAL_CAL ∧ s.get pgPRS F.PRS_CAL_CAL ≤ 128) ∧
    (∃ (s : State) (e : Fin 16), s.quiet = true ∧ s.lends e = true ∧ s.purser.lending.contains e.val = false) :=
  ⟨⟨(atTick 2 up),
    by decide +kernel⟩,
   ⟨{ (atTick 4 up) with purser := { next := some ⟨List.replicate 8 5, List.replicate 8 6, List.replicate 8 7, 3, 4, 5, true, 7⟩ } },
    ⟨List.replicate 8 5, List.replicate 8 6, List.replicate 8 7, 3, 4, 5, true, 7⟩,
    by decide +kernel⟩,
   ⟨(atTick 200 up).set pgPRS F.PRS_VCORE_STATUS_AVS_OK 1,
    55,
    by decide +kernel⟩,
   ⟨(atTick 5000 { up with queues := [(24, { descs := [{ num := 0, tva := 0, sc := 0, ring := 0, cmd := 0, stage := .running, waiting := true }] })], hall := { waiters := [{ req := ⟨.queue 24, 0, 0, 0, 1, 0, 0, 0, 0⟩, phys := 0, gen := false, at' := 0, deadline := none }] } }).set pgTHL F.THL_LEND_AFTER_TICKS 5,
    3,
    by decide +kernel⟩⟩

/-- States and operands that meet what `Obligations.SensorSampleShowsTemperatures` assumes, clause by clause. -/
theorem sensor_sample_shows_temperatures_meets :
    (∃ (s : State), s.quiet = true ∧ s.phase ≠ 0 ∧ s.ticks % 10 = 0 ∧ s.purser.sampledAt ≠ some s.ticks) :=
  ⟨(atTick 20 up),
    by decide +kernel⟩

/-- States and operands that meet what `Obligations.ReadAndWriteOfALineAnswer` assumes, clause by clause. -/
theorem read_and_write_of_a_line_answer_meets :
    (∃ (s : State) (m : Fin 16) (h : BitVec 128) (data : List Byte) (b : Nat) (l : Nat), s.reachesLine m h data .rd b l ∧ s.quiet = true ∧ hOpc h = opRD) ∧
    (∃ (s : State) (m : Fin 16) (h : BitVec 128) (data : List Byte) (b : Nat) (l : Nat) (w : WrOut × State), s.reachesLine m h data .wr b l ∧ s.quiet = true ∧ hOpc h = opWR ∧ s.flag (erpPage (m / 2)) F.ERP_CMB_CTRL_EN = false ∧ w = s.bankWrite b l (enables (hAddr h % 64) (hLen h)) (atOffset (hAddr h % 64) ((s.mkMsg h data).data.take (hLen h))) (wrPoison (hPoison h) (hAddr h % 64) (hLen h) 0)) :=
  ⟨⟨mapped 0 true true (poke 0x88 0x1234567890 fab),
    0,
    hd opRD 3 0 15 0x88 0,
    [],
    lineB fab 0x88,
    lineL fab 0x88,
    reachesLine_of ⟨0, 0, 16, 0, true, true⟩ (accepts_of (by decide +kernel)) (pathFree_of (by decide +kernel)) (by decide +kernel) (by decide +kernel),
    by decide +kernel⟩,
   ⟨(mapped 0 true true fab).set (erpPage 0) F.ERP_CMB_CTRL_EN 0,
    0,
    hd opWR 3 0 19 0x89 0,
    List.replicate 20 0x5A,
    lineB fab 0x88,
    lineL fab 0x88,
    ((mapped 0 true true fab).set (erpPage 0) F.ERP_CMB_CTRL_EN 0).bankWrite (lineB fab 0x88) (lineL fab 0x88) (enables (hAddr (hd opWR 3 0 19 0x89 0) % 64) (hLen (hd opWR 3 0 19 0x89 0))) (atOffset (hAddr (hd opWR 3 0 19 0x89 0) % 64) ((((mapped 0 true true fab).set (erpPage 0) F.ERP_CMB_CTRL_EN 0).mkMsg (hd opWR 3 0 19 0x89 0) (List.replicate 20 0x5A)).data.take (hLen (hd opWR 3 0 19 0x89 0)))) (wrPoison (hPoison (hd opWR 3 0 19 0x89 0)) (hAddr (hd opWR 3 0 19 0x89 0) % 64) (hLen (hd opWR 3 0 19 0x89 0)) 0),
    reachesLine_of ⟨0, 0, 16, 0, true, true⟩ (accepts_of (by decide +kernel)) (pathFree_of (by decide +kernel)) (by decide +kernel) (by decide +kernel),
    by decide +kernel⟩⟩

/-- States and operands that meet what `Obligations.AtomicRequestsAnswer` assumes, clause by clause. -/
theorem atomic_requests_answer_meets :
    (∃ (s : State) (m : Fin 16) (h : BitVec 128) (data : List Byte) (b : Nat) (l : Nat) (a : AtomReq) (r : Option (LineRd × WrOut) × State), s.reachesLine m h data .both b l ∧ s.quiet = true ∧ hOpc h = opATOM ∧ mkAtom (hXf h) (s.keyOf (hCtx h)) (hAddr h % 64) (hLen h) (s.mkMsg h data).data = some a ∧ r = s.bankAtomic b l a) :=
  ⟨mapped 0 true true (poke 0x88 0x1234567890 fab),
    0,
    hd opATOM 3 0 3 0x88 0x400,
    List.replicate 20 0x5A,
    lineB fab 0x88,
    lineL fab 0x88,
    (mkAtom (hXf (hd opATOM 3 0 3 0x88 0x400)) ((mapped 0 true true (poke 0x88 0x1234567890 fab)).keyOf (hCtx (hd opATOM 3 0 3 0x88 0x400))) (hAddr (hd opATOM 3 0 3 0x88 0x400) % 64) (hLen (hd opATOM 3 0 3 0x88 0x400)) ((mapped 0 true true (poke 0x88 0x1234567890 fab)).mkMsg (hd opATOM 3 0 3 0x88 0x400) (List.replicate 20 0x5A)).data).getD atom0,
    (mapped 0 true true (poke 0x88 0x1234567890 fab)).bankAtomic (lineB fab 0x88) (lineL fab 0x88) ((mkAtom (hXf (hd opATOM 3 0 3 0x88 0x400)) ((mapped 0 true true (poke 0x88 0x1234567890 fab)).keyOf (hCtx (hd opATOM 3 0 3 0x88 0x400))) (hAddr (hd opATOM 3 0 3 0x88 0x400) % 64) (hLen (hd opATOM 3 0 3 0x88 0x400)) ((mapped 0 true true (poke 0x88 0x1234567890 fab)).mkMsg (hd opATOM 3 0 3 0x88 0x400) (List.replicate 20 0x5A)).data).getD atom0),
    reachesLine_of ⟨0, 0, 16, 0, true, true⟩ (accepts_of (by decide +kernel)) (pathFree_of (by decide +kernel)) (by decide +kernel) (by decide +kernel),
    by decide +kernel⟩

/-- States and operands that meet what `Obligations.CombinerMergesAndWritesOut` assumes, clause by clause. -/
theorem combiner_merges_and_writes_out_meets :
    (∃ (s : State) (m : Fin 16) (h : BitVec 128) (data : List Byte) (b : Nat) (l : Nat), s.reachesLine m h data .wr b l ∧ s.quiet = true ∧ hOpc h = opWR ∧ s.flag (erpPage (m / 2)) F.ERP_CMB_CTRL_EN = true ∧ (s.get (erpPage (m / 2)) F.ERP_CMB_CTRL_MERGE_CTX).testBit (hCtx h) = true ∧ hPoison h = 0) ∧
    (∃ (s : State) (g : Fin 8) (i : Fin 16) (c : Comb) (w : Merged) (b : Nat) (l : Nat) (x : WrOut × State), s.target c.dpa = .ok (.sram b l) ∧ s.quiet = true ∧ (s.path g).combs[i.val]? = some c ∧ (s.path g).entries = [] ∧ c.writes = [w] ∧ w.mute = false ∧ c.data.length = 64 ∧ c.en < 2 ^ 64 ∧ c.bad < 256 ∧ hOpc w.msg.hdr = opWR ∧ s.running pgMMAP = true ∧ s.mirRegion c.dpa = none ∧ x = s.bankWrite b l c.en c.data c.bad) :=
  ⟨⟨(mapped 0 true true fab).set (erpPage 0) F.ERP_CMB_CTRL_MERGE_CTX 0xFFFF,
    0,
    hd opWR 3 0 19 0x89 0,
    List.replicate 20 0x5A,
    lineB fab 0x88,
    lineL fab 0x88,
    reachesLine_of ⟨0, 0, 16, 0, true, true⟩ (accepts_of (by decide +kernel)) (pathFree_of (by decide +kernel)) (by decide +kernel) (by decide +kernel),
    by decide +kernel⟩,
   ⟨ans (exec (.vtlWr 0 (hd opWR 3 0 19 0x89 0) (List.replicate 20 0x5A)) ((mapped 0 true true fab).set (erpPage 0) F.ERP_CMB_CTRL_MERGE_CTX 0xFFFF)),
    0,
    0,
    ((ans (exec (.vtlWr 0 (hd opWR 3 0 19 0x89 0) (List.replicate 20 0x5A)) ((mapped 0 true true fab).set (erpPage 0) F.ERP_CMB_CTRL_MERGE_CTX 0xFFFF))).path 0).combs.headD comb0,
    (((ans (exec (.vtlWr 0 (hd opWR 3 0 19 0x89 0) (List.replicate 20 0x5A)) ((mapped 0 true true fab).set (erpPage 0) F.ERP_CMB_CTRL_MERGE_CTX 0xFFFF))).path 0).combs.headD comb0).writes.headD merged0,
    lineB (ans (exec (.vtlWr 0 (hd opWR 3 0 19 0x89 0) (List.replicate 20 0x5A)) ((mapped 0 true true fab).set (erpPage 0) F.ERP_CMB_CTRL_MERGE_CTX 0xFFFF))) (((ans (exec (.vtlWr 0 (hd opWR 3 0 19 0x89 0) (List.replicate 20 0x5A)) ((mapped 0 true true fab).set (erpPage 0) F.ERP_CMB_CTRL_MERGE_CTX 0xFFFF))).path 0).combs.headD comb0).dpa,
    lineL (ans (exec (.vtlWr 0 (hd opWR 3 0 19 0x89 0) (List.replicate 20 0x5A)) ((mapped 0 true true fab).set (erpPage 0) F.ERP_CMB_CTRL_MERGE_CTX 0xFFFF))) (((ans (exec (.vtlWr 0 (hd opWR 3 0 19 0x89 0) (List.replicate 20 0x5A)) ((mapped 0 true true fab).set (erpPage 0) F.ERP_CMB_CTRL_MERGE_CTX 0xFFFF))).path 0).combs.headD comb0).dpa,
    (ans (exec (.vtlWr 0 (hd opWR 3 0 19 0x89 0) (List.replicate 20 0x5A)) ((mapped 0 true true fab).set (erpPage 0) F.ERP_CMB_CTRL_MERGE_CTX 0xFFFF))).bankWrite (lineB (ans (exec (.vtlWr 0 (hd opWR 3 0 19 0x89 0) (List.replicate 20 0x5A)) ((mapped 0 true true fab).set (erpPage 0) F.ERP_CMB_CTRL_MERGE_CTX 0xFFFF))) (((ans (exec (.vtlWr 0 (hd opWR 3 0 19 0x89 0) (List.replicate 20 0x5A)) ((mapped 0 true true fab).set (erpPage 0) F.ERP_CMB_CTRL_MERGE_CTX 0xFFFF))).path 0).combs.headD comb0).dpa) (lineL (ans (exec (.vtlWr 0 (hd opWR 3 0 19 0x89 0) (List.replicate 20 0x5A)) ((mapped 0 true true fab).set (erpPage 0) F.ERP_CMB_CTRL_MERGE_CTX 0xFFFF))) (((ans (exec (.vtlWr 0 (hd opWR 3 0 19 0x89 0) (List.replicate 20 0x5A)) ((mapped 0 true true fab).set (erpPage 0) F.ERP_CMB_CTRL_MERGE_CTX 0xFFFF))).path 0).combs.headD comb0).dpa) (((ans (exec (.vtlWr 0 (hd opWR 3 0 19 0x89 0) (List.replicate 20 0x5A)) ((mapped 0 true true fab).set (erpPage 0) F.ERP_CMB_CTRL_MERGE_CTX 0xFFFF))).path 0).combs.headD comb0).en (((ans (exec (.vtlWr 0 (hd opWR 3 0 19 0x89 0) (List.replicate 20 0x5A)) ((mapped 0 true true fab).set (erpPage 0) F.ERP_CMB_CTRL_MERGE_CTX 0xFFFF))).path 0).combs.headD comb0).data (((ans (exec (.vtlWr 0 (hd opWR 3 0 19 0x89 0) (List.replicate 20 0x5A)) ((mapped 0 true true fab).set (erpPage 0) F.ERP_CMB_CTRL_MERGE_CTX 0xFFFF))).path 0).combs.headD comb0).bad,
    eq_ofE (by decide +kernel),
    by decide +kernel⟩⟩

/-- States and operands that meet what `Obligations.RegisterRequestsOfAModule` assumes, clause by clause. -/
theorem register_requests_of_a_module_meets :
    (∃ (s : State) (m : Fin 16) (h : BitVec 128) (data : List Byte) (p : Page), s.accepts m h data ∧ s.quiet = true ∧ hOpc h = opREG_RD ∧ tenantPage (hCtx h) (hAddr h / 0x1000 % 16) = some p ∧ hLen h = 4 ∧ hAddr h % 4 = 0 ∧ s.regHeld (.module m) p (hAddr h % 0x1000) none = false) ∧
    (∃ (s : State) (m : Fin 16) (h : BitVec 128) (data : List Byte) (p : Page), s.accepts m h data ∧ s.quiet = true ∧ hOpc h = opREG_WR ∧ tenantPage (hCtx h) (hAddr h / 0x1000 % 16) = some p ∧ hLen h = 4 ∧ hAddr h % 0x1000 = 0x020 ∧ s.regHeld (.module m) p 0x020 (some (BitVec.ofNat 32 (hXf h))) = false) ∧
    (∃ (s : State) (m : Fin 16) (h : BitVec 128) (data : List Byte) (c : Fin 16), s.accepts m h data ∧ s.quiet = true ∧ hOpc h = opREG_WR ∧ hCtx h = c.val ∧ hAddr h / 0x1000 % 16 = 1 ∧ hLen h = 4 ∧ hAddr h % 0x1000 = 0x100 ∧ s.flag (tfqPage c) F.TFQ_FQ_CTRL_EN = false ∧ s.regHeld (.module m) (tfqPage c) 0x100 (some (BitVec.ofNat 32 (hXf h))) = false) ∧
    (∃ (s : State) (m : Fin 16) (h : BitVec 128) (data : List Byte) (p : Page), s.accepts m h data ∧ s.quiet = true ∧ hOpc h = opREG_WR ∧ tenantPage (hCtx h) (hAddr h / 0x1000 % 16) = some p ∧ (hLen h ≠ 4 ∨ hAddr h % 4 ≠ 0)) ∧
    (∃ (s : State) (m : Fin 16) (h : BitVec 128) (data : List Byte) (p : Page), (∃ u, s.rxAdmit m (s.mkMsg h data) = .ok u) ∧ s.quiet = true ∧ hOpc h = opREG_RD ∧ s.modUp m = true ∧ s.modHeld m = false ∧ (s.link m).rx = [] ∧ s.reqCheck m h = some (5, dtNotAuth) ∧ tenantPage (hCtx h) (hAddr h / 0x1000 % 16) = some p) ∧
    (∃ (s : State), s.quiet = true) :=
  ⟨⟨fab,
    0,
    hd opREG_RD 3 0 3 0x0000 0,
    [],
    ⟨.TDB, 0⟩,
    accepts_of (by decide +kernel),
    by decide +kernel⟩,
   ⟨fab.raise ⟨.TDB, 0⟩ 0,
    0,
    hd opREG_WR 3 0 3 0x0020 1,
    [],
    ⟨.TDB, 0⟩,
    accepts_of (by decide +kernel),
    by decide +kernel⟩,
   ⟨fab,
    0,
    hd opREG_WR 3 0 3 0x1100 0x12345678,
    [],
    0,
    accepts_of (by decide +kernel),
    by decide +kernel⟩,
   ⟨fab,
    0,
    hd opREG_WR 3 0 2 0x0020 1,
    [],
    ⟨.TDB, 0⟩,
    accepts_of (by decide +kernel),
    by decide +kernel⟩,
   ⟨fab.set (modPage 0) F.MOD_PORT_AUTH_MASK 1,
    0,
    hd opREG_RD 3 1 3 0x0020 0,
    [],
    ⟨.TDB, 1⟩,
    ok_of (by decide +kernel),
    by decide +kernel⟩,
   ⟨fab,
    by decide +kernel⟩⟩

/-- States and operands that meet what `Obligations.WalkEntersItsLeafAndInvalidationDropsIt` assumes, clause by clause. -/
theorem walk_enters_its_leaf_and_invalidation_drops_it_meets :
    (∃ (s : State) (g : Fin 8) (w : Walk) (leaf : Leaf), s.quiet = true ∧ (s.xl g).walks = [w] ∧ w.running = true ∧ w.waiters = [] ∧ s.inval = none ∧ (s.walk g w.ctx (w.page * 2 ^ 16) w.cls w.urg w.root).1 = .leaf leaf) ∧
    (∃ (s : State) (g : Fin 8) (w : Walk) (e : Errand), s.quiet = true ∧ (s.xl g).walks = [w] ∧ w.running = true ∧ w.waiters = [.errand e.id] ∧ s.inside w.root 4096 = false ∧ (s.path g).entries = [e] ∧ e.dpas = [] ∧ e.discard = false ∧ e.active = false ∧ s.get pgMMAP (F.MMAP_XLT_FAULT.at g) < 2 ^ 32 - 1) ∧
    (∃ (s : State) (c : Fin 16) (scope : Nat), s.quiet = true ∧ scope < 3 ∧ s.writes .steward pgMMAP 0x1C0 (wordOf (c.val + 16 * scope)) = true ∧ s.inval = none ∧ (scope = 0 → s.get pgMMAP F.MMAP_XLT_INVAL_COUNT_PAGES ≠ 0)) ∧
    (∃ (s : State) (c : Fin 16), s.quiet = true ∧ s.writes .steward pgMMAP 0x1C0 (wordOf c) = true ∧ s.get pgMMAP F.MMAP_XLT_INVAL_COUNT_PAGES = 0) ∧
    (∃ (s : State) (i : Inval), s.quiet = true ∧ s.inval = some i ∧ (∀ g < 8, ∀ w ∈ (s.xl g).walks, w.stale = false) ∧ (∀ g < 8, ∀ e ∈ (s.path g).entries, ∀ l ∈ e.via, i.hits l = false) ∧ (∀ g < 8, ∀ c ∈ (s.path g).combs, ∀ l ∈ c.via, i.hits l = false)) :=
  ⟨⟨(tree up).setXl 2 { walks := [{ ctx := 0, page := 0, root := 0x10000, cls := 0, urg := 0, running := true, stale := false, waiters := [] }] },
    2,
    { ctx := 0, page := 0, root := 0x10000, cls := 0, urg := 0, running := true, stale := false, waiters := [] },
    match (((tree up).setXl 2 { walks := [{ ctx := 0, page := 0, root := 0x10000, cls := 0, urg := 0, running := true, stale := false, waiters := [] }] }).walk 2 0 0 0 0 0x10000).1 with | .leaf l => l | _ => ⟨0,0,0,0,false,false⟩,
    by decide +kernel⟩,
   ⟨{ fab.setXl 0 { walks := [{ ctx := 0, page := 0, root := 0x70000000, cls := 0, urg := 0, running := true, stale := false, waiters := [.errand 5] }] } with paths := [(0, { entries := [{ id := 5, m := 0, msg := ⟨hd opRD 3 0 3 0x88 0, []⟩, cls := 0, urg := 0, dpas := [] }] })] },
    0,
    { ctx := 0, page := 0, root := 0x70000000, cls := 0, urg := 0, running := true, stale := false, waiters := [.errand 5] },
    { id := 5, m := 0, msg := ⟨hd opRD 3 0 3 0x88 0, []⟩, cls := 0, urg := 0, dpas := [] },
    by decide +kernel⟩,
   ⟨(mapped 0 true true up).set pgMMAP F.MMAP_XLT_INVAL_COUNT_PAGES 3,
    0,
    0,
    by decide +kernel⟩,
   ⟨mapped 0 true true up,
    0,
    by decide +kernel⟩,
   ⟨{ mapped 0 true true up with inval := some ⟨1, 0, 0, 0⟩ },
    ⟨1, 0, 0, 0⟩,
    by decide +kernel⟩⟩

/-- States and operands that meet what `Obligations.FlitsAreCheckedAndAcceptedInOrder` assumes, clause by clause. -/
theorem flits_are_checked_and_accepted_in_order_meets :
    (∃ (s : State) (m : Fin 16) (raw : BitVec 2048), s.quiet = true ∧ s.modUp m = true ∧ crc32 ((leBytes 256 raw.toNat).take 252) ≠ leAt (leBytes 256 raw.toNat) 252 4) ∧
    (∃ (s : State) (m : Fin 16) (raw : BitVec 2048) (bs : List Byte) (tr : Trailer), s.quiet = true ∧ s.modUp m = true ∧ s.isTwin m = false ∧ bs = leBytes 256 raw.toNat ∧ tr = parseTrailer (leAt bs 240 12) ∧ crc32 (bs.take 252) = leAt bs 252 4 ∧ tr.kind = 0 ∧ tr.ackKind = 0 ∧ tr.creds.all (fun c => c.2.2 == 0) = true ∧ (∀ i < 15, 0 < i → leAt bs (16 * i) 1 = opNOP) ∧ tr.seq = (s.link m).expSeq ∧ leAt bs 0 1 = opNOP) ∧
    (∃ (s : State) (m : Fin 16) (raw : BitVec 2048) (bs : List Byte) (tr : Trailer), s.quiet = true ∧ s.modUp m = true ∧ s.isTwin m = false ∧ bs = leBytes 256 raw.toNat ∧ tr = parseTrailer (leAt bs 240 12) ∧ crc32 (bs.take 252) = leAt bs 252 4 ∧ tr.kind = 0 ∧ tr.ackKind = 0 ∧ tr.creds.all (fun c => c.2.2 == 0) = true ∧ (∀ i < 15, 0 < i → leAt bs (16 * i) 1 = opNOP) ∧ tr.seq = (s.link m).expSeq ∧ leAt bs 0 1 = opRD ∧ hTag (BitVec.ofNat 128 (leAt bs 0 16)) ∉ (s.link m).tags ∧ (s.link m).inUse (hVc (BitVec.ofNat 128 (leAt bs 0 16))) 0 < 48 ∧ (s.link m).inUse (hVc (BitVec.ofNat 128 (leAt bs 0 16))) 3 ≤ 256) ∧
    (∃ (s : State) (m : Fin 16) (raw : BitVec 2048) (bs : List Byte) (tr : Trailer), s.quiet = true ∧ s.modUp m = true ∧ s.isTwin m = false ∧ bs = leBytes 256 raw.toNat ∧ tr = parseTrailer (leAt bs 240 12) ∧ crc32 (bs.take 252) = leAt bs 252 4 ∧ tr.kind = 0 ∧ tr.ackKind = 0 ∧ tr.creds.all (fun c => c.2.2 == 0) = true ∧ (∀ i < 15, 0 < i → leAt bs (16 * i) 1 = opNOP) ∧ tr.seq ≠ (s.link m).expSeq ∧ ((s.link m).expSeq + 4095 - tr.seq) % 4096 < 64) ∧
    (∃ (s : State) (m : Fin 16) (raw : BitVec 2048) (bs : List Byte) (tr : Trailer) (f : TxFlit) (rest : List TxFlit), s.quiet = true ∧ s.modUp m = true ∧ s.isTwin m = false ∧ bs = leBytes 256 raw.toNat ∧ tr = parseTrailer (leAt bs 240 12) ∧ crc32 (bs.take 252) = leAt bs 252 4 ∧ tr.kind = 1 ∧ tr.ackKind = 1 ∧ (s.link m).replay = f :: rest ∧ tr.ack = f.seq ∧ f.kinds = []) ∧
    (∃ (s : State) (m : Fin 16) (raw : BitVec 2048) (bs : List Byte) (tr : Trailer) (f : TxFlit) (rest : List TxFlit), s.quiet = true ∧ s.modUp m = true ∧ s.isTwin m = false ∧ bs = leBytes 256 raw.toNat ∧ tr = parseTrailer (leAt bs 240 12) ∧ crc32 (bs.take 252) = leAt bs 252 4 ∧ tr.kind = 1 ∧ tr.ackKind = 2 ∧ (s.link m).replay = f :: rest ∧ (∀ x ∈ f :: rest, x.seq ≠ tr.ack) ∧ tr.ack = (f.seq + 4095) % 4096 ∧ (s.link m).replays < 4) ∧
    (∃ (s : State) (m : Fin 16), s.quiet = true ∧ (s.link m).awaiting = true) ∧
    (∃ (s : State) (m : Fin 16), s.quiet = true ∧ s.modUp m = true ∧ (s.link m).replay ≠ [] ∧ (s.link m).retraining = false ∧ (s.link m).ackAt + 4 ≤ s.ticks ∧ (s.link m).replays < 4) ∧
    (∃ (s : State) (m : Fin 16), s.quiet = true ∧ s.modUp m = true ∧ (s.link m).replay ≠ [] ∧ (s.link m).retraining = false ∧ (s.link m).ackAt + 4 ≤ s.ticks ∧ 4 ≤ (s.link m).replays ∧ (s.link m).retrains = []) ∧
    (∃ (s : State) (m : Fin 16), s.quiet = true ∧ (s.link m).retraining = true) :=
  ⟨⟨fab,
    0,
    0x99,
    by decide +kernel⟩,
   ⟨fab,
    0,
    rawFlit opNOP { seq := 0, ack := 0, ackKind := 0, kind := 0, creds := [] },
    leBytes 256 (rawFlit opNOP { seq := 0, ack := 0, ackKind := 0, kind := 0, creds := [] }).toNat,
    parseTrailer (leAt (leBytes 256 (rawFlit opNOP { seq := 0, ack := 0, ackKind := 0, kind := 0, creds := [] }).toNat) 240 12),
    by decide +kernel⟩,
   ⟨fab,
    0,
    rawFlit (hd opRD 3 0 15 0x88 0).toNat { seq := 0, ack := 0, ackKind := 0, kind := 0, creds := [] },
    leBytes 256 (rawFlit (hd opRD 3 0 15 0x88 0).toNat { seq := 0, ack := 0, ackKind := 0, kind := 0, creds := [] }).toNat,
    parseTrailer (leAt (leBytes 256 (rawFlit (hd opRD 3 0 15 0x88 0).toNat { seq := 0, ack := 0, ackKind := 0, kind := 0, creds := [] }).toNat) 240 12),
    by decide +kernel⟩,
   ⟨{ fab with links := [(0, { expSeq := 9 })] },
    0,
    rawFlit (hd opRD 3 0 15 0x88 0).toNat { seq := 0, ack := 0, ackKind := 0, kind := 0, creds := [] },
    leBytes 256 (rawFlit (hd opRD 3 0 15 0x88 0).toNat { seq := 0, ack := 0, ackKind := 0, kind := 0, creds := [] }).toNat,
    parseTrailer (leAt (leBytes 256 (rawFlit (hd opRD 3 0 15 0x88 0).toNat { seq := 0, ack := 0, ackKind := 0, kind := 0, creds := [] }).toNat) 240 12),
    by decide +kernel⟩,
   ⟨{ fab with links := [(0, { replay := [⟨7, [], [], []⟩, ⟨8, [], [], []⟩] })] },
    0,
    rawFlit opNOP { seq := 0, ack := 7, ackKind := 1, kind := 1, creds := [] },
    leBytes 256 (rawFlit opNOP { seq := 0, ack := 7, ackKind := 1, kind := 1, creds := [] }).toNat,
    parseTrailer (leAt (leBytes 256 (rawFlit opNOP { seq := 0, ack := 7, ackKind := 1, kind := 1, creds := [] }).toNat) 240 12),
    ⟨7, [], [], []⟩,
    [⟨8, [], [], []⟩],
    by decide +kernel⟩,
   ⟨{ fab with links := [(0, { replay := [⟨7, [], [], []⟩, ⟨8, [], [], []⟩] })] },
    0,
    rawFlit opNOP { seq := 0, ack := 6, ackKind := 2, kind := 1, creds := [] },
    leBytes 256 (rawFlit opNOP { seq := 0, ack := 6, ackKind := 2, kind := 1, creds := [] }).toNat,
    parseTrailer (leAt (leBytes 256 (rawFlit opNOP { seq := 0, ack := 6, ackKind := 2, kind := 1, creds := [] }).toNat) 240 12),
    ⟨7, [], [], []⟩,
    [⟨8, [], [], []⟩],
    by decide +kernel⟩,
   ⟨{ fab with links := [(0, { awaiting := true })] },
    0,
    by decide +kernel⟩,
   ⟨atTick 10 { fab with links := [(0, { replay := [⟨7, [], [], []⟩] })] },
    0,
    by decide +kernel⟩,
   ⟨atTick 10 { fab with links := [(0, { replays := 4, replay := [⟨7, [], [], []⟩] })] },
    0,
    by decide +kernel⟩,
   ⟨{ fab with links := [(0, { retraining := true, replay := [⟨7, [], [], []⟩] })] },
    0,
    by decide +kernel⟩⟩

/-- States and operands that meet what `Obligations.LinkLifeFromTrainingToReset` assumes, clause by clause. -/
theorem link_life_from_training_to_reset_meets :
    (∃ (s : State) (m : Fin 16), s.quiet = true ∧ s.modState m = 1) ∧
    (∃ (s : State) (m : Fin 16), s.quiet = true ∧ s.modState m = 1) ∧
    (∃ (s : State) (m : Fin 16) (h : BitVec 128), s.quiet = true ∧ hOpc h = opCRED_INIT ∧ s.modState m = 2 ∧ s.isTwin m = false ∧ (s.link m).credInit.testBit (hVc h) = false ∧ hb h 32 8 ≠ 0 ∧ hb h 40 8 ≠ 0 ∧ hb h 48 8 ≠ 0 ∧ 4 ≤ hb h 64 12) ∧
    (∃ (s : State) (m : Fin 16), s.noWork m ∧ s.quiet = true ∧ s.isTwin m = false ∧ s.modState m ≠ 0 ∧ s.modState m ≠ 4) ∧
    (∃ (s : State) (m : Fin 16), s.noWork m ∧ s.quiet = true ∧ s.isTwin m = false ∧ s.modState m ≠ 0 ∧ s.modState m ≠ 4 ∧ (s.link m).retraining = true) ∧
    (∃ (s : State) (m : Fin 16), s.noWork m ∧ s.quiet = true ∧ s.isTwin m = false ∧ s.writes .steward (modPage m) 0x100 (s.modWord m ||| 0x10) = true ∧ 4 ≤ s.phase) ∧
    (∃ (s : State) (m : Fin 16), s.noWork m ∧ s.quiet = true ∧ s.isTwin m = false ∧ s.writes .steward (modPage m) 0x100 (wput (s.modWord m) 0 1 0) = true ∧ s.flag (modPage m) F.MOD_MOD_CTRL_ENABLE = true) ∧
    (∃ (s : State) (m : Fin 16), s.quiet = true ∧ s.modState m = 4 ∧ s.linkBusy m = false) ∧
    (∃ (s : State) (m : Fin 16), s.quiet = true ∧ s.writes .steward (modPage m) 0x100 (wput (s.modWord m) 0 1 1) = true ∧ s.modState m = 0 ∧ s.flag (modPage m) F.MOD_MOD_CTRL_ENABLE = false ∧ 3 ≤ s.phase ∧ s.phase ≠ 7 ∧ s.flag (modPage m) F.PAGE_CTRL_HALT = false) :=
  ⟨⟨up.set (modPage 4) F.MOD_MOD_STATUS_STATE 1,
    4,
    by decide +kernel⟩,
   ⟨up.set (modPage 4) F.MOD_MOD_STATUS_STATE 1,
    4,
    by decide +kernel⟩,
   ⟨{ up.set (modPage 4) F.MOD_MOD_STATUS_STATE 2 with links := [(4, { credInit := 0xFB })] },
    4,
    mkHdr opCRED_INIT 0 0 2 0 0 3 (1 + 1 * 2^8) 0 0 ||| 0xFFF#128 <<< 64 ||| 0xFFFFFF#128 <<< 32,
    by decide +kernel⟩,
   ⟨withMod 4 up,
    4,
    by unfold State.noWork; decide +kernel,
    by decide +kernel⟩,
   ⟨{ withMod 4 up with links := [(4, { retraining := true })] },
    4,
    by unfold State.noWork; decide +kernel,
    by decide +kernel⟩,
   ⟨withMod 4 up,
    4,
    by unfold State.noWork; decide +kernel,
    by decide +kernel⟩,
   ⟨(withMod 4 up).set (modPage 4) F.MOD_MOD_CTRL_ENABLE 1,
    4,
    by unfold State.noWork; decide +kernel,
    by decide +kernel⟩,
   ⟨(up.set (modPage 4) F.MOD_MOD_STATUS_STATE 4).set (modPage 4) F.MOD_MOD_CTRL_ENABLE 1,
    4,
    by decide +kernel⟩,
   ⟨up.set (modPage 4) F.MOD_MOD_CTRL_ENABLE 0,
    4,
    by decide +kernel⟩⟩

/-- States and operands that meet what `Obligations.StreamResponsesEventsAndStalls` assumes, clause by clause. -/
theorem stream_responses_events_and_stalls_meets :
    (∃ (s : State) (m : Fin 16) (h : BitVec 128) (data : List Byte) (r : Srd) (d : Desc) (tok : Token) (l : StLine), (∃ u, s.rxAdmit m (s.mkMsg h data) = .ok u) ∧ s.quiet = true ∧ hOpc h = opSRD_RSP ∧ s.isTwin m = false ∧ s.modUp m = true ∧ (s.link m).rx = [] ∧ (s.link m).srds = [r] ∧ r.tag = hTag h ∧ s.desc? r.queue r.desc = some d ∧ d.tokens = [tok] ∧ tok.id = r.token ∧ tok.lines[r.part]? = some l ∧ s.stageOpen = true) ∧
    (∃ (s : State) (m : Fin 16) (h : BitVec 128) (data : List Byte), (∃ u, s.rxAdmit m (s.mkMsg h data) = .ok u) ∧ s.quiet = true ∧ hOpc h = opSRD_RSP ∧ s.isTwin m = false ∧ s.modUp m = true ∧ (s.link m).rx = [] ∧ (s.link m).srds = [] ∧ hTag h ∈ (s.link m).quarantined ∧ s.get (modPage m) F.MOD_LATE_RSP < 2 ^ 16 - 1) ∧
    (∃ (s : State) (m : Fin 16) (h : BitVec 128) (data : List Byte), (∃ u, s.rxAdmit m (s.mkMsg h data) = .ok u) ∧ s.quiet = true ∧ hOpc h = opEVT ∧ s.isTwin m = false ∧ s.modUp m = true ∧ s.modHeld m = false ∧ (s.link m).rx = [] ∧ s.evtFits m (s.mkMsg h data) = true ∧ s.intakeRoom (m / 2) (evtKeys (s.mkMsg h data)).length = true) ∧
    (∃ (s : State) (m : Fin 16) (h : BitVec 128) (data : List Byte), (∃ u, s.rxAdmit m (s.mkMsg h data) = .ok u) ∧ s.quiet = true ∧ hOpc h = opEVT ∧ s.isTwin m = false ∧ s.modUp m = true ∧ s.modHeld m = false ∧ (s.link m).rx = [] ∧ s.evtFits m (s.mkMsg h data) = false) ∧
    (∃ (s : State) (m : Fin 16) (vc : Fin 8) (n : Nat), s.quiet = true ∧ s.stalledFor m vc = some n ∧ max 1 (s.get (modPage m) F.MOD_STALL_CTRL_STALL_WARN) ≤ n ∧ (s.get (modPage m) F.MOD_STALL_STATE_WARNED).testBit vc = false) ∧
    (∃ (s : State) (m : Fin 16) (vc : Fin 8) (q : Nat) (d : Desc) (n : Nat), (∃ x ∈ (s.link m).tx, x.vc = vc ∧ ∃ bytes, x.kind = .swr q d.num bytes) ∧ s.quiet = true ∧ s.isTwin m = false ∧ q < 128 ∧ s.stalledFor m vc = some n ∧ s.get (modPage m) F.MOD_STALL_CTRL_ABANDON ≠ 0 ∧ s.get (modPage m) F.MOD_STALL_CTRL_ABANDON < n ∧ (∀ k < 128, k ≠ q → (s.queue k).descs = []) ∧ (s.queue q).descs = [d] ∧ d.active = true ∧ d.waiting = false ∧ d.ending = none ∧ s.hall.holders = []) ∧
    (∃ (s : State) (m : Fin 16) (tag : BitVec 9) (r : Srd) (n : Nat), s.quiet = true ∧ (s.link m).srds = [r] ∧ r.tag = tag.toNat ∧ r.deadline = some n ∧ n ≤ s.ticks ∧ s.desc? r.queue r.desc = none) :=
  ⟨⟨{ fab with links := [(0, { srds := [⟨3, 1, 0, 0, 0, 16, none⟩] })], queues := [(1, { descs := [{ num := 0, tva := 0, sc := 0, ring := 0, cmd := 0, stage := .running, tokens := [{ id := 0, first := 0, last := 16, block := 0, lines := [{ line := 0, lo := 0, hi := 16, first := 0, last := 16, asked := true }] }] }] })] },
    0,
    hd opSRD_RSP 3 0 15 0 0,
    List.replicate 16 7,
    ⟨3, 1, 0, 0, 0, 16, none⟩,
    { num := 0, tva := 0, sc := 0, ring := 0, cmd := 0, stage := .running, tokens := [{ id := 0, first := 0, last := 16, block := 0, lines := [{ line := 0, lo := 0, hi := 16, first := 0, last := 16, asked := true }] }] },
    { id := 0, first := 0, last := 16, block := 0, lines := [{ line := 0, lo := 0, hi := 16, first := 0, last := 16, asked := true }] },
    { line := 0, lo := 0, hi := 16, first := 0, last := 16, asked := true },
    ok_of (by decide +kernel),
    by decide +kernel⟩,
   ⟨{ fab with links := [(0, { quarantined := [3] })] },
    0,
    hd opSRD_RSP 3 0 15 0 0,
    List.replicate 16 7,
    ok_of (by decide +kernel),
    by decide +kernel⟩,
   ⟨fab.set pgEVM F.EVM_EVM_CTRL_EN 1,
    0,
    hd opEVT 0 0 1 0 0,
    [],
    ok_of (by decide +kernel),
    by decide +kernel⟩,
   ⟨fab,
    0,
    hd opEVT 0 0 1 0 0,
    [],
    ok_of (by decide +kernel),
    by decide +kernel⟩,
   ⟨atTick 100000 { fab with links := [(0, { stallAt := [(3, 0)] })] },
    0,
    3,
    100000,
    by decide +kernel⟩,
   ⟨(atTick 100000 { fab with links := [(0, { stallAt := [(3, 0)], tx := [⟨⟨hd opSWR 0 0 0 0 0, []⟩, 3, 0, .swr 1 0 16⟩] })], queues := [(1, { descs := [{ num := 0, tva := 0, sc := 0, ring := 0, cmd := 0, stage := .running }] })] }).set (modPage 0) F.MOD_STALL_CTRL_ABANDON 5,
    0,
    3,
    1,
    { num := 0, tva := 0, sc := 0, ring := 0, cmd := 0, stage := .running },
    100000,
    ⟨⟨⟨hd opSWR 0 0 0 0 0, []⟩, 3, 0, .swr 1 0 16⟩, (by decide +kernel), (by decide +kernel), 16, (by decide +kernel)⟩,
    by decide +kernel⟩,
   ⟨atTick 9 { fab with links := [(0, { srds := [⟨3, 1, 0, 0, 0, 16, some 5⟩] })] },
    0,
    3,
    ⟨3, 1, 0, 0, 0, 16, some 5⟩,
    5,
    by decide +kernel⟩⟩

/-- States and operands that meet what `Obligations.StackServesItsQueue` assumes, clause by clause. -/
theorem stack_serves_its_queue_meets :
    (∃ (s : State) (g : Fin 8) (ch : Fin 32) (busy : BitVec 2) (r : StackReq), s.quiet = true ∧ s.hcGone g = false ∧ s.hcChanOpen g ch = true ∧ (s.hc g).queue = [r] ∧ (s.hbmAddr g r.line).chan = ch ∧ busy.getLsbD (s.hbmAddr g r.line).pc = false ∧ r.granted = false ∧ r.cls < 8 ∧ r.complete = true ∧ r.line < 2 ^ 30 ∧ s.flag (hcPage g) F.HC_HC_INJECT_ARM = false) ∧
    (∃ (s : State) (g : Fin 8) (ch : Fin 32) (busy : BitVec 2) (r : StackReq), s.quiet = true ∧ s.hcGone g = false ∧ s.hcChanOpen g ch = true ∧ (s.hc g).queue = [r] ∧ (s.hbmAddr g r.line).chan = ch ∧ busy.getLsbD (s.hbmAddr g r.line).pc = false ∧ r.granted = false ∧ r.cls < 8 ∧ r.complete = false) ∧
    (∃ (s : State) (g : Fin 8) (eg : Fin 8) (line : Fin (2 ^ 30)) (sev : Fin 3) (r : StackReq) (e : Errand) (p : Piece) (x : LineRd), s.quiet = true ∧ (s.hc g).queue = [r] ∧ r.line = line ∧ r.granted = true ∧ r.write = false ∧ r.org = .errand eg e.id 0 ∧ (s.path eg).entries = [e] ∧ e.pieces = [p] ∧ hOpc e.msg.hdr = opRD ∧ e.merged = [] ∧ e.discard = false ∧ x = underReport sev (s.hbmPeek g line)) ∧
    (∃ (s : State) (g : Fin 8), s.quiet = true ∧ s.hcOpen g = true ∧ s.flag (hcPage g) F.HC_HC_CTRL_PATROL_EN = true ∧ (s.hc g).patLeft ≠ 0 ∧ s.hcLines g ≠ 0 ∧ (s.hc g).queue = [] ∧ s.hcChanOpen g (s.hbmAddr g (s.patrolPos g / 64)).chan = true ∧ s.hcAdmits g (s.get (hcPage g) F.HC_HC_PATROL_CLASS) 0 = true ∧ (∀ j < 8, (s.hbmGranPeek g (s.patrolPos g / 64) j).cls = .good)) ∧
    (∃ (s : State) (g : Fin 8), s.quiet = true ∧ s.hcState g = 2) ∧
    (∃ (s : State) (g : Fin 8) (ch : Fin 32) (pc : Fin 2) (bank : Fin 64), s.quiet = true ∧ s.hcState g = 2 ∧ s.get (hcPage g) F.HC_RFM_COUNT < 2 ^ 32 - 1 ∧ max 1 (s.hc g).rfmAt ≤ (find (s.hc g).acts ((ch.val * 2 + pc.val) * 64 + bank.val)).getD 0) ∧
    (∃ (s : State) (g : Fin 8), s.quiet = true ∧ (s.hc g).queue = []) ∧
    (∃ (s : State) (g : Fin 8) (ch : Fin 32), s.quiet = true ∧ (s.hc g).queue = [] ∧ s.flag (hcPage g) F.HC_HC_CTRL_PD_EN = true ∧ s.hcState g = 2 ∧ ch.val ∉ (s.hc g).asleep) :=
  ⟨⟨(stk 2 up).setHc 2 { queue := [{ line := 1, write := true, en := 2 ^ 64 - 1, data := List.replicate 64 0x5A, pois := 4, cls := 0, urg := 0, ctx := 0, org := .patrol }] },
    2,
    Fin.ofNat 32 (((stk 2 up).setHc 2 { queue := [{ line := 1, write := true, en := 2 ^ 64 - 1, data := List.replicate 64 0x5A, pois := 4, cls := 0, urg := 0, ctx := 0, org := .patrol }] }).hbmAddr (2) 1).chan,
    0,
    { line := 1, write := true, en := 2 ^ 64 - 1, data := List.replicate 64 0x5A, pois := 4, cls := 0, urg := 0, ctx := 0, org := .patrol },
    by decide +kernel⟩,
   ⟨(stk 2 up).setHc 2 { queue := [{ line := 1, write := false, en := 0, data := [], pois := 0, cls := 0, urg := 0, ctx := 0, org := .patrol }] },
    2,
    Fin.ofNat 32 (((stk 2 up).setHc 2 { queue := [{ line := 1, write := false, en := 0, data := [], pois := 0, cls := 0, urg := 0, ctx := 0, org := .patrol }] }).hbmAddr (2) 1).chan,
    0,
    { line := 1, write := false, en := 0, data := [], pois := 0, cls := 0, urg := 0, ctx := 0, org := .patrol },
    by decide +kernel⟩,
   ⟨{ (stk 2 (withMod 2 up)).setHc 2 { queue := [{ line := 5, write := false, en := 0, data := [], pois := 0, cls := 0, urg := 0, ctx := 0, org := .errand 1 9 0, granted := true }] } with paths := [(1, { entries := [{ id := 9, m := 2, msg := ⟨hd opRD 3 0 15 0x88 0, []⟩, cls := 0, urg := 0, dpas := [0x4000000140], active := true, pieces := [{ dpa := 0x4000000140, off := 8, n := 16, pos := 0 }] }] })] },
    2,
    1,
    5,
    1,
    { line := 5, write := false, en := 0, data := [], pois := 0, cls := 0, urg := 0, ctx := 0, org := .errand 1 9 0, granted := true },
    { id := 9, m := 2, msg := ⟨hd opRD 3 0 15 0x88 0, []⟩, cls := 0, urg := 0, dpas := [0x4000000140], active := true, pieces := [{ dpa := 0x4000000140, off := 8, n := 16, pos := 0 }] },
    { dpa := 0x4000000140, off := 8, n := 16, pos := 0 },
    underReport (1) (({ (stk 2 (withMod 2 up)).setHc 2 { queue := [{ line := 5, write := false, en := 0, data := [], pois := 0, cls := 0, urg := 0, ctx := 0, org := .errand 1 9 0, granted := true }] } with paths := [(1, { entries := [{ id := 9, m := 2, msg := ⟨hd opRD 3 0 15 0x88 0, []⟩, cls := 0, urg := 0, dpas := [0x4000000140], active := true, pieces := [{ dpa := 0x4000000140, off := 8, n := 16, pos := 0 }] }] })] }).hbmPeek (2) (5)),
    by decide +kernel⟩,
   ⟨((stk 2 up).set (hcPage 2) F.HC_HC_CTRL_PATROL_EN 1).setHc 2 { patLeft := 3 },
    2,
    by decide +kernel⟩,
   ⟨(stk 2 up).setHc 2 { rows := [((3*2+1)*64+5, 9)], asleep := [3, 4] },
    2,
    by decide +kernel⟩,
   ⟨(stk 2 up).setHc 2 { rows := [((3*2+1)*64+5, 9)], asleep := [3, 4], acts := [((3*2+1)*64+5, 70)], rfmAt := 64 },
    2,
    3,
    1,
    5,
    by decide +kernel⟩,
   ⟨(stk 2 up).setHc 2 { rows := [((3*2+1)*64+5, 9)], asleep := [3, 4] },
    2,
    by decide +kernel⟩,
   ⟨(((stk 2 up).setHc 2 { rows := [((3*2+1)*64+5, 9)], asleep := [4] }).set (hcPage 2) F.HC_HC_CTRL_PD_EN 1),
    2,
    3,
    by decide +kernel⟩⟩

/-- States and operands that meet what `Obligations.StackFaultsRetrainsAndClears` assumes, clause by clause. -/
theorem stack_faults_retrains_and_clears_meets :
    (∃ (s : State) (g : Fin 8) (ch : Fin 32), s.quiet = true ∧ ch.val ∉ (s.hc g).retraining ∧ (s.hc g).parity = [] ∧ (∀ r ∈ (s.hc g).queue, r.granted = false)) ∧
    (∃ (s : State) (g : Fin 8) (ch : Fin 32) (w : _), s.quiet = true ∧ ch.val ∉ (s.hc g).retraining ∧ (s.hc g).parity = [] ∧ find (s.hc g).wrote ch.val = some w ∧ w.line < 2 ^ 30 ∧ s.flag (hcPage g) F.HC_HC_INJECT_ARM = false) ∧
    (∃ (s : State) (g : Fin 8) (ch : Fin 32), s.quiet = true ∧ ch.val ∉ (s.hc g).retraining ∧ (s.hc g).parity = [(ch.val, s.ticks), (ch.val, s.ticks), (ch.val, s.ticks)] ∧ (s.hc g).retrains = []) ∧
    (∃ (s : State) (g : Fin 8) (ch : Fin 32), s.quiet = true ∧ (s.hc g).retraining = [ch.val] ∧ s.hcState g = 3 ∧ s.running (hcPage g) = true) ∧
    (∃ (s : State) (g : Fin 8), s.quiet = true ∧ (s.hc g).queue = [] ∧ (s.hc g).waiting = [] ∧ (s.hcState g = 2 ∨ s.hcState g = 3 ∨ s.hcState g = 5)) ∧
    (∃ (s : State) (g : Fin 8) (ch : Fin 32), s.quiet = true ∧ (s.hc g).queue = [] ∧ (s.hc g).waiting = [] ∧ ch.val ∈ (s.hc g).retraining) ∧
    (∃ (s : State) (g : Fin 8), s.quiet = true ∧ s.writes .steward (hcPage g) 0x100 (s.hcWord g ||| 0x200) = true ∧ s.hcState g = 2 ∧ s.running (hcPage g) = true ∧ s.flag (hcPage g) F.HC_HC_STATUS_CLEARING = false) ∧
    (∃ (s : State) (g : Fin 8), s.quiet = true ∧ s.writes .steward (hcPage g) 0x100 (s.hcWord g ||| 0x200) = true ∧ s.hcState g ≠ 2) ∧
    (∃ (s : State) (g : Fin 8), s.quiet = true ∧ s.flag (hcPage g) F.HC_HC_STATUS_CLEARING = true ∧ (s.hc g).queue = [] ∧ (s.hc g).retraining = []) ∧
    (∃ (s : State) (g : Fin 8), s.quiet = true ∧ s.writes .steward (hcPage g) 0x100 (s.hcWord g ||| 0x100) = true ∧ s.halted (hcPage g) = true ∧ s.hcState g = 5) ∧
    (∃ (s : State) (g : Fin 8), s.quiet = true ∧ s.hcState g = 1 ∧ (s.hc g).training = false) ∧
    (∃ (s : State) (g : Fin 8), s.quiet = true ∧ s.hcState g = 3 ∧ s.phase = 4) ∧
    (∃ (s : State), s.quiet = true) ∧
    (∃ (s : State), s.quiet = true) :=
  ⟨⟨stk 2 up,
    2,
    3,
    by decide +kernel⟩,
   ⟨(stk 2 up).setHc 2 { wrote := [(3, ⟨1, List.replicate 64 0x5A, 4⟩)] },
    2,
    3,
    ⟨1, List.replicate 64 0x5A, 4⟩,
    by decide +kernel⟩,
   ⟨atTick 7 ((stk 2 up).setHc 2 { parity := [(3, 7), (3, 7), (3, 7)] }),
    2,
    3,
    by decide +kernel⟩,
   ⟨((stk 2 up).setHc 2 { retraining := [3] }).set (hcPage 2) F.HC_HC_STATUS_STATE 3,
    2,
    3,
    by decide +kernel⟩,
   ⟨(stk 2 up).set (hcPage 2) F.HC_HC_STATUS_STATE 3,
    2,
    by decide +kernel⟩,
   ⟨((stk 2 up).setHc 2 { retraining := [3] }).set (hcPage 2) F.HC_HC_STATUS_STATE 3,
    2,
    3,
    by decide +kernel⟩,
   ⟨stk 2 up,
    2,
    by decide +kernel⟩,
   ⟨(stk 2 up).set (hcPage 2) F.HC_HC_STATUS_STATE 3,
    2,
    by decide +kernel⟩,
   ⟨(stk 2 up).set (hcPage 2) F.HC_HC_STATUS_CLEARING 1,
    2,
    by decide +kernel⟩,
   ⟨((stk 2 up).set (hcPage 2) F.HC_HC_STATUS_STATE 5).set (hcPage 2) F.PAGE_STATE_RUN 2,
    2,
    by decide +kernel⟩,
   ⟨(stk 2 (inP 4)).set (hcPage 2) F.HC_HC_STATUS_STATE 1,
    2,
    by decide +kernel⟩,
   ⟨(stk 2 (inP 4)).set (hcPage 2) F.HC_HC_STATUS_STATE 3,
    2,
    by decide +kernel⟩,
   ⟨stk 2 up,
    by decide +kernel⟩,
   ⟨stk 2 up,
    by decide +kernel⟩⟩

/-- States and operands that meet what `Obligations.DescriptorIsReadAndTokensHandedOff` assumes, clause by clause. -/
theorem descriptor_is_read_and_tokens_handed_off_meets :
    (∃ (s : State) (q : Fin 128) (d : Desc), s.quiet = true ∧ (s.queue q).descs = [d] ∧ (s.queue q).rr = none ∧ d.stage = .queued ∧ d.ending = none ∧ s.running (engPage (q / 8)) = true ∧ s.canIssue q = true ∧ s.slotsUsed (q / 8) = [] ∧ (∀ k < 128, k ≠ q.val → k / 8 = q / 8 → s.nextActive k = none)) ∧
    (∃ (s : State) (q : Fin 128) (d : Desc), s.quiet = true ∧ (s.queue q).descs = [d] ∧ (s.queue q).rr = none ∧ d.stage = .reading ∧ d.ending = none ∧ d.tva % 128 ≠ 0 ∧ d.waiting = false) ∧
    (∃ (s : State) (q : Fin 128) (d : Desc) (dpa : Nat) (b : Nat) (l : Nat) (b' : Nat) (l' : Nat) (word : Nat), s.peekX (q / 16) (s.qCtx q) d.tva .rd none = some (.ok dpa) ∧ s.target dpa = .ok (.sram b l) ∧ s.target (dpa + 64) = .ok (.sram b' l') ∧ s.routeRoom ⟨q / 16, d.sc, s.qCtx q, 0⟩ (b / 64) 2 ∧ s.routeRoom ⟨q / 16, d.sc, s.qCtx q, 0⟩ (b' / 64) 2 ∧ (dWaitMode word = 1 → s.hallIdle ∧ s.hall.holders = [] ∧ ∃ p, s.physOf (s.qCtx q) (dWaitTally word) = some p ∧ s.partner p = none ∧ (s.tally p).broken = false ∧ dWaitN word ≠ 0 ∧ dWaitN word ≤ (s.tally p).val) ∧ s.quiet = true ∧ (s.queue q).descs = [d] ∧ (s.queue q).rr = none ∧ d.stage = .reading ∧ d.ending = none ∧ d.waiting = false ∧ d.tva % 128 = 0 ∧ s.running pgMMAP = true ∧ s.unlimited = true ∧ (∀ j < 8, (s.granPeek b l j).cls = .good) ∧ (∀ j < 8, (s.granPeek b' l' j).cls = .good) ∧ word = leNat ((s.linePeek b l).bytes ++ (s.linePeek b' l').bytes)) ∧
    (∃ (s : State) (q : Fin 128) (d : Desc) (k : Token), s.quiet = true ∧ (s.queue q).descs = [d] ∧ (s.queue q).rr = none ∧ d.stage = .running ∧ d.ending = none ∧ d.due = none ∧ d.fault = none ∧ d.tokens = [k] ∧ k.handed = false ∧ (∀ x ∈ k.lines, x.fin = true) ∧ s.running (qPage q) = true ∧ s.running pgMMAP = true) :=
  ⟨⟨queued 5 { desc0 with stage := .queued } up,
    5,
    { desc0 with stage := .queued },
    by decide +kernel⟩,
   ⟨queued 5 { desc0 with stage := .reading, tva := 8 } up,
    5,
    { desc0 with stage := .reading, tva := 8 },
    by decide +kernel⟩,
   ⟨queued 5 { desc0 with stage := .reading, tva := 0x100 } (mapped 0 true true (poke 0x100 0x100002 up)),
    5,
    { desc0 with stage := .reading, tva := 0x100 },
    0x100,
    lineB up 0x100,
    lineL up 0x100,
    lineB up 0x140,
    lineL up 0x140,
    leNat (((queued 5 { desc0 with stage := .reading, tva := 0x100 } (mapped 0 true true (poke 0x100 0x100002 up))).linePeek (lineB up 0x100) (lineL up 0x100)).bytes ++ ((queued 5 { desc0 with stage := .reading, tva := 0x100 } (mapped 0 true true (poke 0x100 0x100002 up))).linePeek (lineB up 0x140) (lineL up 0x140)).bytes),
    eq_ofO (by decide +kernel),
    eq_ofE (by decide +kernel),
    eq_ofE (by decide +kernel),
    routeRoom_of (by decide +kernel),
    routeRoom_of (by decide +kernel),
    fun e => absurd e (by decide +kernel),
    by decide +kernel⟩,
   ⟨queued 5 { desc0 with tokens := [⟨0, 0, 1, 0, [{ line := 0, lo := 0, hi := 1, first := 0, last := 1, asked := true, fin := true }], false⟩] } up,
    5,
    { desc0 with tokens := [⟨0, 0, 1, 0, [{ line := 0, lo := 0, hi := 1, first := 0, last := 1, asked := true, fin := true }], false⟩] },
    ⟨0, 0, 1, 0, [{ line := 0, lo := 0, hi := 1, first := 0, last := 1, asked := true, fin := true }], false⟩,
    by decide +kernel⟩⟩

/-- States and operands that meet what `Obligations.OneElementFillWritesItsByte` assumes, clause by clause. -/
theorem one_element_fill_writes_its_byte_meets :
    (∃ (s : State) (q : Fin 128) (d : Desc) (dpa : Nat) (b : Nat) (l : Nat), s.peekX (q / 16) (s.qCtx q) (alignDown (dDstAddr d.word) 64) .wr none = some (.ok dpa) ∧ s.target dpa = .ok (.sram b l) ∧ s.quiet = true ∧ (s.queue q).descs = [d] ∧ (s.queue q).rr = none ∧ d.stage = .running ∧ d.ending = none ∧ d.due = none ∧ d.fault = none ∧ dIsFill d.word = true ∧ dTotal d.word = 1 ∧ dTile d.word = 1 ∧ dDst d.word = .raw8 ∧ dDstPort d.word = false ∧ dWaitMode d.word = 0 ∧ d.conv = 0 ∧ d.sent = 0 ∧ d.outs = [] ∧ s.running (qPage q) = true ∧ s.running pgMMAP = true ∧ s.limOpen (b / 64) = true ∧ s.routeFree (s.qAcc q d.word) (b / 64) = true ∧ s.canIssue q = true ∧ s.mixerLost q d = false ∧ s.mirRegion dpa = none ∧ b < 512 ∧ l < 3072 ∧ s.flag (bnkPage b) F.BNK_ECC_INJECT_ARM = false ∧ (∀ j < 8, (s.granPeek b l j).cls = .good)) :=
  ⟨queued 5 { desc0 with word := fillWord 0x145 0x77 } (mapped 0 true true up),
    5,
    { desc0 with word := fillWord 0x145 0x77 },
    0x140,
    lineB up 0x140,
    lineL up 0x140,
    eq_ofO (by decide +kernel),
    eq_ofE (by decide +kernel),
    by decide +kernel⟩

/-- States and operands that meet what `Obligations.TallyLinksAndTheEndOfADescriptor` assumes, clause by clause. -/
theorem tally_links_and_the_end_of_a_descriptor_meets :
    (∃ (s : State) (q : Fin 128) (d : Desc) (p : Nat), s.hallIdle ∧ s.quiet = true ∧ (s.queue q).descs = [d] ∧ d.stage = .running ∧ d.ending = none ∧ d.due = none ∧ d.fault = none ∧ s.hall.holders = [] ∧ s.partner p = none ∧ (s.tally p).broken = false ∧ (s.queue q).rr = none ∧ dWaitMode d.word = 2 ∧ d.waiting = false ∧ d.takes < dTiles d.word ∧ d.takes ≤ d.conv / dTile d.word + 1 ∧ s.running (qPage q) = true ∧ s.physOf (s.qCtx q) (dWaitTally d.word) = some p ∧ dWaitN d.word ≠ 0 ∧ dWaitN d.word ≤ (s.tally p).val) ∧
    (∃ (s : State) (q : Fin 128) (d : Desc) (p : Nat), s.hallIdle ∧ s.quiet = true ∧ (s.queue q).descs = [d] ∧ d.stage = .running ∧ d.ending = none ∧ d.due = none ∧ d.fault = none ∧ s.hall.holders = [] ∧ s.partner p = none ∧ (s.tally p).broken = false ∧ dTileEn d.word = true ∧ d.posting = false ∧ d.posted < d.complete / dTile d.word ∧ d.doneSent = false ∧ s.physOf (s.qCtx q) (dTileTally d.word) = some p) ∧
    (∃ (s : State) (q : Fin 128) (d : Desc) (p : Nat), s.hallIdle ∧ s.quiet = true ∧ (s.queue q).descs = [d] ∧ d.stage = .running ∧ d.ending = none ∧ d.due = none ∧ d.fault = none ∧ s.hall.holders = [] ∧ s.partner p = none ∧ (s.tally p).broken = false ∧ d.finished = true ∧ dDoneEn d.word = true ∧ d.doneSent = false ∧ s.physOf (s.qCtx q) (dDoneTally d.word) = some p) ∧
    (∃ (s : State) (q : Fin 128) (d : Desc) (rest : List Desc) (st : Nat) (code : Nat), s.quiet = true ∧ (s.queue q).descs = d :: rest ∧ d.endStatus = some (st, code)) :=
  ⟨⟨queued 5 { desc0 with word := fillWord 0 0 + waitWord 3 4 } { tallied up with hall := { tallies := [(3, { val := 9 })] } },
    5,
    { desc0 with word := fillWord 0 0 + waitWord 3 4 },
    3,
    by unfold State.hallIdle; decide +kernel,
    by decide +kernel⟩,
   ⟨queued 5 { desc0 with word := fillWord 0 0 + tileWord 3 4, conv := 1 } { tallied up with hall := { tallies := [(3, { val := 9 })] } },
    5,
    { desc0 with word := fillWord 0 0 + tileWord 3 4, conv := 1 },
    3,
    by unfold State.hallIdle; decide +kernel,
    by decide +kernel⟩,
   ⟨queued 5 { desc0 with word := fillWord 0 0 + doneWord 3 4, conv := 1 } { tallied up with hall := { tallies := [(3, { val := 9 })] } },
    5,
    { desc0 with word := fillWord 0 0 + doneWord 3 4, conv := 1 },
    3,
    by unfold State.hallIdle; decide +kernel,
    by decide +kernel⟩,
   ⟨{ up with queues := [(5, { descs := [{ desc0 with word := fillWord 0 0, conv := 1 }, { desc0 with num := 1 }] })], rings := [(0, { out := [{ id := 0, op := 1, tag := 0, count := 0, list := false }] })] },
    5,
    { desc0 with word := fillWord 0 0, conv := 1 },
    [{ desc0 with num := 1 }],
    0,
    0,
    by decide +kernel⟩⟩

/-- States and operands that meet what `Obligations.QueueCommandsMixersAndKeys` assumes, clause by clause. -/
theorem queue_commands_mixers_and_keys_meets :
    (∃ (s : State) (port : Port) (c : Fin 16) (q : Fin 128) (r : _) (d : _) (rest : _), s.quiet = true ∧ s.writes port ⟨.TQC, c⟩ (0x100 + 4 * q.val) 1 = true ∧ s.qCtx q = c ∧ (s.queue q).rr = some r ∧ (s.queue q).descs = d :: rest ∧ (s.queue q).rrBad = false) ∧
    (∃ (s : State) (port : Port) (c : Fin 16) (q : Fin 128) (d : _), s.quiet = true ∧ s.writes port ⟨.TQC, c⟩ (0x100 + 4 * q.val) 2 = true ∧ s.qCtx q = c ∧ (s.queue q).descs = [d] ∧ d.doneSent = false ∧ d.ending = none ∧ d.waiting = false ∧ s.hall.holders = [] ∧ d.active = true) ∧
    (∃ (s : State) (port : Port) (c : Fin 16) (q : Fin 128) (d : _), s.quiet = true ∧ s.writes port ⟨.TQC, c⟩ (0x100 + 4 * q.val) 2 = true ∧ s.qCtx q = c ∧ (s.queue q).descs = [d] ∧ d.doneSent = false ∧ d.ending = none ∧ d.waiting = false ∧ s.hall.holders = [] ∧ d.active = false) ∧
    (∃ (s : State) (port : Port) (c : Fin 16) (q : Fin 128) (d : _), s.quiet = true ∧ s.writes port ⟨.TQC, c⟩ (0x100 + 4 * q.val) 6 = true ∧ s.qCtx q = c ∧ (s.queue q).descs = [d] ∧ d.doneSent = false ∧ d.ending = none ∧ d.waiting = false ∧ s.hall.holders = []) ∧
    (∃ (s : State) (port : Port) (c : Fin 16) (q : Fin 128), s.quiet = true ∧ s.writes port ⟨.TQC, c⟩ (0x100 + 4 * q.val) 2 = true ∧ s.qCtx q = c ∧ (s.queue q).descs = []) ∧
    (∃ (s : State) (port : Port) (c : Fin 16) (q : Fin 128), s.quiet = true ∧ s.writes port ⟨.TQC, c⟩ (0x100 + 4 * q.val) 1 = true ∧ s.qCtx q ≠ c) ∧
    (∃ (s : State) (g : Fin 8) (k : Fin 8), s.quiet = true ∧ (s.inService g).testBit k = true) ∧
    (∃ (s : State) (g : Fin 8) (k : Fin 8), s.quiet = true ∧ (s.inService g).testBit k = true) ∧
    (∃ (s : State) (port : Port) (c : Fin 16), s.quiet = true ∧ s.writes port (tmkPage c) 0x110 1 = true ∧ s.ctxState c ≠ 1 ∧ s.twinState = twOFF) ∧
    (∃ (s : State) (g : Fin 8), s.quiet = true ∧ s.writes .steward (mixPage g) 0x128 1 = true ∧ s.flag (mixPage g) F.MIX_CHK_STATUS_BUSY = false ∧ (s.mix g).cmp = none) ∧
    (∃ (s : State) (g : Fin 8), s.quiet = true ∧ s.writes .steward (mixPage g) 0x128 1 = true ∧ s.flag (mixPage g) F.MIX_CHK_STATUS_BUSY = true) ∧
    (∃ (s : State) (g : Fin 8) (x : _), s.quiet = true ∧ (s.mix g).chk = some x ∧ (s.mix g).fault = false) ∧
    (∃ (s : State) (g : Fin 8) (x : _), s.quiet = true ∧ (s.mix g).chk = some x ∧ (s.mix g).fault = true) ∧
    (∃ (s : State) (g : Fin 8) (mask : BitVec 8), s.quiet = true ∧ s.writes .steward (mixPage g) 0x100 (wordOf mask.toNat) = true ∧ (s.mix g).cmp = none ∧ mask.toNat &&& (255 - s.inService g) ≠ 0) ∧
    (∃ (s : State) (g : Fin 8) (mask : Nat) (x : ChkIn), s.quiet = true ∧ (s.mix g).cmp = some (mask, x) ∧ (s.mix g).chk = none ∧ (s.mix g).fault = false ∧ mask < 256) :=
  ⟨⟨{ up with queues := [(5, { descs := [desc0], rr := some ⟨0, 0, false, false, 0, 0, 0, [], 0⟩ })] },
    .steward,
    0,
    5,
    ⟨0, 0, false, false, 0, 0, 0, [], 0⟩,
    desc0,
    [],
    by decide +kernel⟩,
   ⟨queued 5 desc0 up,
    .steward,
    0,
    5,
    desc0,
    by decide +kernel⟩,
   ⟨queued 5 { desc0 with stage := .queued } up,
    .steward,
    0,
    5,
    { desc0 with stage := .queued },
    by decide +kernel⟩,
   ⟨queued 5 desc0 up,
    .steward,
    0,
    5,
    desc0,
    by decide +kernel⟩,
   ⟨up,
    .steward,
    0,
    5,
    by decide +kernel⟩,
   ⟨up.set pgCTX (F.CTX_CTX_STATE_STATE.at 3) 2,
    .steward,
    3,
    5,
    by decide +kernel⟩,
   ⟨up.set (mixPage 2) F.MIX_MIX_STATUS_IN_SERVICE 0xFF,
    2,
    3,
    by decide +kernel⟩,
   ⟨up.set (mixPage 2) F.MIX_MIX_STATUS_IN_SERVICE 0xFF,
    2,
    3,
    by decide +kernel⟩,
   ⟨(up.wr (tmkPage 0) 0x108 5).wr (tmkPage 0) 0x10C 6,
    .steward,
    0,
    by decide +kernel⟩,
   ⟨up,
    2,
    by decide +kernel⟩,
   ⟨up.set (mixPage 2) F.MIX_CHK_STATUS_BUSY 1,
    2,
    by decide +kernel⟩,
   ⟨{ up.set (mixPage 2) F.MIX_CHK_STATUS_BUSY 1 with mixers := [(2, { chk := some ⟨5, 6, 7, 8, false⟩ })] },
    2,
    ⟨5, 6, 7, 8, false⟩,
    by decide +kernel⟩,
   ⟨{ up.set (mixPage 2) F.MIX_CHK_STATUS_BUSY 1 with mixers := [(2, { chk := some ⟨5, 6, 7, 8, false⟩, fault := true })] },
    2,
    ⟨5, 6, 7, 8, false⟩,
    by decide +kernel⟩,
   ⟨up.set (mixPage 2) F.MIX_MIX_STATUS_IN_SERVICE 0xF0,
    2,
    0x1F,
    by decide +kernel⟩,
   ⟨{ (up.set (mixPage 2) F.MIX_MIX_STATUS_IN_SERVICE 0xF0).set (mixPage 2) F.MIX_MIX_STATUS_FAULTED 0x0F with mixers := [(2, { cmp := some (0x0F, ⟨5, 6, 7, 8, false⟩) })] },
    2,
    0x0F,
    ⟨5, 6, 7, 8, false⟩,
    by decide +kernel⟩⟩

/-- States and operands that meet what `Obligations.RingCommandsDispatch` assumes, clause by clause. -/
theorem ring_commands_dispatch_meets :
    (∃ (s : State) (r : Fin 64) (g : Nat) (k : Nat) (x : RingCmd), s.dispatches r g k x ∧ s.quiet = true ∧ x.wellFormed = false) ∧
    (∃ (s : State) (r : Fin 64) (g : Nat) (k : Nat) (x : RingCmd), s.dispatches r g k x ∧ s.quiet = true ∧ x.wellFormed = true ∧ x.op = 6) ∧
    (∃ (s : State) (r : Fin 64) (g : Nat) (k : Nat) (x : RingCmd), s.dispatches r g k x ∧ s.quiet = true ∧ x.wellFormed = true ∧ x.op = 1 ∧ s.queueServes (x.f 8 0 7) (ringCtx r) = false) ∧
    (∃ (s : State) (r : Fin 64) (g : Nat) (k : Nat) (x : RingCmd), s.dispatches r g k x ∧ s.quiet = true ∧ x.wellFormed = true ∧ x.op = 1 ∧ s.queueServes (x.f 8 0 7) (ringCtx r) = true ∧ s.queueRoom (x.f 8 0 7) = true ∧ s.routeFree ⟨g, x.sc, ringCtx r, 0⟩ (x.f 8 0 7 / 16) = true) ∧
    (∃ (s : State) (r : Fin 64) (g : Nat) (k : Nat) (x : RingCmd), s.dispatches r g k x ∧ s.quiet = true ∧ x.wellFormed = true ∧ x.op = 2 ∧ x.f 8 0 4 = 5) ∧
    (∃ (s : State) (r : Fin 64) (g : Nat) (k : Nat) (x : RingCmd), s.dispatches r g k x ∧ s.quiet = true ∧ x.wellFormed = true ∧ x.op = 2 ∧ (x.f 8 0 4 = 2 ∨ x.f 8 0 4 = 3 ∨ x.f 8 0 4 = 6 ∨ 7 < x.f 8 0 4 ∨ (x.f 8 0 4 ≠ 5 ∧ x.f 8 4 1 = 1 ∧ x.f 0x18 0 48 % 4 ≠ 0))) ∧
    (∃ (s : State) (r : Fin 64) (g : Nat) (k : Nat) (x : RingCmd) (p : _), s.dispatches r g k x ∧ s.hallIdle ∧ s.quiet = true ∧ x.wellFormed = true ∧ x.op = 2 ∧ (x.f 8 4 1 = 1 → x.f 0x18 0 48 % 4 = 0) ∧ s.hall.holders = [] ∧ s.partner p = none ∧ s.physOf (ringCtx r) (x.f 0xA 0 13) = some p ∧ s.tallyLegal ⟨.ring r, ringCtx r, x.f 8 0 4, x.f 0xA 0 13, x.f 0xC 0 24, 0, x.sc, 0, (s.ring r).nextId⟩ p = true ∧ x.f 8 0 4 = 0) ∧
    (∃ (s : State) (r : Fin 64) (g : Nat) (k : Nat) (x : RingCmd) (p : _), s.dispatches r g k x ∧ s.hallIdle ∧ s.quiet = true ∧ x.wellFormed = true ∧ x.op = 2 ∧ (x.f 8 4 1 = 1 → x.f 0x18 0 48 % 4 = 0) ∧ s.hall.holders = [] ∧ s.partner p = none ∧ s.physOf (ringCtx r) (x.f 0xA 0 13) = some p ∧ s.tallyLegal ⟨.ring r, ringCtx r, x.f 8 0 4, x.f 0xA 0 13, x.f 0xC 0 24, 0, x.sc, 0, (s.ring r).nextId⟩ p = true ∧ x.f 8 0 4 = 1 ∧ x.f 0xC 0 24 ≤ (s.tally p).val) ∧
    (∃ (s : State) (r : Fin 64) (g : Nat) (k : Nat) (x : RingCmd) (p : _), s.dispatches r g k x ∧ s.hallIdle ∧ s.quiet = true ∧ x.wellFormed = true ∧ x.op = 2 ∧ (x.f 8 4 1 = 1 → x.f 0x18 0 48 % 4 = 0) ∧ s.hall.holders = [] ∧ s.partner p = none ∧ s.physOf (ringCtx r) (x.f 0xA 0 13) = some p ∧ s.tallyLegal ⟨.ring r, ringCtx r, x.f 8 0 4, x.f 0xA 0 13, x.f 0xC 0 24, 0, x.sc, 0, (s.ring r).nextId⟩ p = true ∧ x.f 8 0 4 = 1 ∧ (s.tally p).val < x.f 0xC 0 24) ∧
    (∃ (s : State) (r : Fin 64) (g : Nat) (k : Nat) (x : RingCmd) (p : _), s.dispatches r g k x ∧ s.hallIdle ∧ s.quiet = true ∧ x.wellFormed = true ∧ x.op = 2 ∧ (x.f 8 4 1 = 1 → x.f 0x18 0 48 % 4 = 0) ∧ s.hall.holders = [] ∧ s.partner p = none ∧ s.physOf (ringCtx r) (x.f 0xA 0 13) = some p ∧ s.tallyLegal ⟨.ring r, ringCtx r, x.f 8 0 4, x.f 0xA 0 13, x.f 0xC 0 24, 0, x.sc, 0, (s.ring r).nextId⟩ p = true ∧ x.f 8 0 4 = 4) ∧
    (∃ (s : State) (r : Fin 64) (g : Nat) (k : Nat) (x : RingCmd) (p : _), s.dispatches r g k x ∧ s.hallIdle ∧ s.quiet = true ∧ x.wellFormed = true ∧ x.op = 2 ∧ (x.f 8 4 1 = 1 → x.f 0x18 0 48 % 4 = 0) ∧ s.hall.holders = [] ∧ s.partner p = none ∧ s.physOf (ringCtx r) (x.f 0xA 0 13) = some p ∧ s.tallyLegal ⟨.ring r, ringCtx r, x.f 8 0 4, x.f 0xA 0 13, x.f 0xC 0 24, 0, x.sc, 0, (s.ring r).nextId⟩ p = true ∧ x.f 8 0 4 = 7) ∧
    (∃ (s : State) (r : Fin 64) (g : Nat) (k : Nat) (x : RingCmd) (p : _) (req : _), s.dispatches r g k x ∧ s.hallIdle ∧ s.quiet = true ∧ x.wellFormed = true ∧ x.op = 3 ∧ s.hall.holders = [] ∧ s.partner p = none ∧ req = ⟨.ring r, ringCtx r, 2 + x.f 8 0 1, x.f 0xA 0 13, x.f 0xC 0 24, x.f 0x10 0 32, x.sc, 0, (s.ring r).nextId⟩ ∧ s.physOf (ringCtx r) (x.f 0xA 0 13) = some p ∧ s.tallyLegal req p = true ∧ x.f 8 0 1 = 0 ∧ x.f 0xC 0 24 ≤ (s.tally p).val) ∧
    (∃ (s : State) (r : Fin 64) (g : Nat) (k : Nat) (x : RingCmd) (p : _) (req : _), s.dispatches r g k x ∧ s.hallIdle ∧ s.quiet = true ∧ x.wellFormed = true ∧ x.op = 3 ∧ s.hall.holders = [] ∧ s.partner p = none ∧ req = ⟨.ring r, ringCtx r, 2 + x.f 8 0 1, x.f 0xA 0 13, x.f 0xC 0 24, x.f 0x10 0 32, x.sc, 0, (s.ring r).nextId⟩ ∧ s.physOf (ringCtx r) (x.f 0xA 0 13) = some p ∧ s.tallyLegal req p = true ∧ x.f 8 0 1 = 1 ∧ x.f 0xC 0 24 ≤ (s.tally p).val) ∧
    (∃ (s : State) (r : Fin 64) (g : Nat) (k : Nat) (x : RingCmd) (p : _) (req : _), s.dispatches r g k x ∧ s.hallIdle ∧ s.quiet = true ∧ x.wellFormed = true ∧ x.op = 3 ∧ s.hall.holders = [] ∧ s.partner p = none ∧ req = ⟨.ring r, ringCtx r, 2 + x.f 8 0 1, x.f 0xA 0 13, x.f 0xC 0 24, x.f 0x10 0 32, x.sc, 0, (s.ring r).nextId⟩ ∧ s.physOf (ringCtx r) (x.f 0xA 0 13) = some p ∧ s.tallyLegal req p = true ∧ (s.tally p).val < x.f 0xC 0 24 ∧ x.f 0x10 0 32 ≠ nowait) ∧
    (∃ (s : State) (r : Fin 64) (g : Nat) (k : Nat) (x : RingCmd) (p : _) (req : _), s.dispatches r g k x ∧ s.hallIdle ∧ s.quiet = true ∧ x.wellFormed = true ∧ x.op = 3 ∧ s.hall.holders = [] ∧ s.partner p = none ∧ req = ⟨.ring r, ringCtx r, 2 + x.f 8 0 1, x.f 0xA 0 13, x.f 0xC 0 24, x.f 0x10 0 32, x.sc, 0, (s.ring r).nextId⟩ ∧ s.physOf (ringCtx r) (x.f 0xA 0 13) = some p ∧ s.tallyLegal req p = true ∧ (s.tally p).val < x.f 0xC 0 24 ∧ x.f 0x10 0 32 = nowait) ∧
    (∃ (s : State) (r : Fin 64) (g : Nat) (k : Nat) (x : RingCmd) (p : _) (virt : _) (n : _) (timeout : _), s.dispatches r g k x ∧ s.hallIdle ∧ s.quiet = true ∧ x.wellFormed = true ∧ x.op = 4 ∧ virt = x.f 0xA 0 13 ∧ n = x.f 0xC 0 24 ∧ timeout = (if x.f 8 0 1 = 1 then nowait else x.f 0x10 0 32) ∧ s.hall.holders = [] ∧ s.partner p = none ∧ s.physOf (ringCtx r) virt = some p ∧ s.tallyLegal ⟨.ring r, ringCtx r, 6, virt, n, timeout, x.sc, 0, (s.ring r).nextId⟩ p = true ∧ (s.tally p).val + 1 = n) ∧
    (∃ (s : State) (r : Fin 64) (g : Nat) (k : Nat) (x : RingCmd) (p : _) (virt : _) (n : _) (timeout : _), s.dispatches r g k x ∧ s.hallIdle ∧ s.quiet = true ∧ x.wellFormed = true ∧ x.op = 4 ∧ virt = x.f 0xA 0 13 ∧ n = x.f 0xC 0 24 ∧ timeout = (if x.f 8 0 1 = 1 then nowait else x.f 0x10 0 32) ∧ s.hall.holders = [] ∧ s.partner p = none ∧ s.physOf (ringCtx r) virt = some p ∧ s.tallyLegal ⟨.ring r, ringCtx r, 6, virt, n, timeout, x.sc, 0, (s.ring r).nextId⟩ p = true ∧ (s.tally p).val + 1 < n) ∧
    (∃ (s : State) (r : Fin 64) (g : Nat) (k : Nat) (x : RingCmd) (p : _) (virt : _) (n : _) (timeout : _), s.dispatches r g k x ∧ s.hallIdle ∧ s.quiet = true ∧ x.wellFormed = true ∧ x.op = 5 ∧ s.stepBarrier (ringCtx r) = some (virt, n) ∧ timeout = (if x.f 8 0 1 = 1 then nowait else x.f 0x10 0 32) ∧ s.hall.holders = [] ∧ s.partner p = none ∧ s.physOf (ringCtx r) virt = some p ∧ s.tallyLegal ⟨.ring r, ringCtx r, 6, virt, n, timeout, x.sc, 0, (s.ring r).nextId⟩ p = true ∧ (s.tally p).val + 1 = n) ∧
    (∃ (s : State) (r : Fin 64) (g : Nat) (k : Nat) (x : RingCmd) (p : _) (virt : _) (n : _) (timeout : _), s.dispatches r g k x ∧ s.hallIdle ∧ s.quiet = true ∧ x.wellFormed = true ∧ x.op = 5 ∧ s.stepBarrier (ringCtx r) = some (virt, n) ∧ timeout = (if x.f 8 0 1 = 1 then nowait else x.f 0x10 0 32) ∧ s.hall.holders = [] ∧ s.partner p = none ∧ s.physOf (ringCtx r) virt = some p ∧ s.tallyLegal ⟨.ring r, ringCtx r, 6, virt, n, timeout, x.sc, 0, (s.ring r).nextId⟩ p = true ∧ (s.tally p).val + 1 < n) ∧
    (∃ (s : State) (r : Fin 64) (g : Nat) (k : Nat) (x : RingCmd), s.dispatches r g k x ∧ s.quiet = true ∧ x.wellFormed = true ∧ x.op = 5 ∧ s.stepBarrier (ringCtx r) = none) ∧
    (∃ (s : State) (r : Fin 64) (g : Nat) (k : Nat) (x : RingCmd), s.dispatches r g k x ∧ s.quiet = true ∧ x.wellFormed = true ∧ x.op = 7 ∧ x.f 8 1 1 = 0 ∧ x.f 8 0 1 = 0) ∧
    (∃ (s : State) (r : Fin 64) (g : Nat) (k : Nat) (x : RingCmd) (a : _), s.dispatches r g k x ∧ s.quiet = true ∧ x.wellFormed = true ∧ x.op = 7 ∧ x.f 8 1 1 = 0 ∧ x.f 8 0 1 = 1 ∧ s.flag pgVTC (F.VTC_INT_ROUTE_EN.at (ringCtx r)) = true ∧ a = s.get pgVTC (F.VTC_INT_ROUTE_PRIMARY.at (ringCtx r)) ∧ s.routes a (ringCtx r) = true) ∧
    (∃ (s : State) (r : Fin 64) (g : Nat) (k : Nat) (x : RingCmd), s.dispatches r g k x ∧ s.quiet = true ∧ x.wellFormed = true ∧ x.op = 7 ∧ x.f 8 1 1 = 0 ∧ x.f 8 0 1 = 1 ∧ s.flag pgVTC (F.VTC_INT_ROUTE_EN.at (ringCtx r)) = false) ∧
    (∃ (s : State) (r : Fin 64) (g : Nat) (k : Nat) (x : RingCmd), s.dispatches r g k x ∧ s.quiet = true ∧ x.wellFormed = true ∧ x.op = 7 ∧ x.f 8 1 1 = 1 ∧ x.f 0x18 0 48 % 4 ≠ 0) ∧
    (∃ (s : State) (r : Fin 64) (g : Nat) (k : Nat) (x : RingCmd) (dpa : _) (b : _) (l : _), s.dispatches r g k x ∧ s.wordHome g (ringCtx r) (x.f 0x18 0 48) dpa b l ∧ s.quiet = true ∧ x.wellFormed = true ∧ x.op = 7 ∧ x.f 8 1 1 = 1 ∧ x.f 0x18 0 48 % 4 = 0 ∧ s.routeFree ⟨g, x.sc, ringCtx r, 0⟩ (b / 64) = true) ∧
    (∃ (s : State) (r : Fin 64) (g : Nat) (k : Nat) (x : RingCmd), s.dispatches r g k x ∧ s.quiet = true ∧ x.wellFormed = true ∧ x.op = 8 ∧ x.f 0x10 0 48 % 64 ≠ 0) ∧
    (∃ (s : State) (r : Fin 64) (g : Nat) (k : Nat) (x : RingCmd), s.dispatches r g k x ∧ s.quiet = true ∧ x.wellFormed = true ∧ x.op = 8 ∧ x.f 0x10 0 48 % 64 = 0) :=
  ⟨⟨ringed (cmd 9 []) (up),
    1,
    0,
    0,
    cmd 9 [],
    by unfold State.dispatches; decide +kernel,
    by decide +kernel⟩,
   ⟨ringed (cmd 6 []) (up),
    1,
    0,
    0,
    cmd 6 [],
    by unfold State.dispatches; decide +kernel,
    by decide +kernel⟩,
   ⟨ringed (cmd 1 [(8, 5), (0x10, 0x1000)]) (up),
    1,
    0,
    0,
    cmd 1 [(8, 5), (0x10, 0x1000)],
    by unfold State.dispatches; decide +kernel,
    by decide +kernel⟩,
   ⟨ringed (cmd 1 [(8, 5), (0x10, 0x1000)]) (up.set (qPage 5) (F.ENG_QUEUE_CFG_EN.at 5) 1),
    1,
    0,
    0,
    cmd 1 [(8, 5), (0x10, 0x1000)],
    by unfold State.dispatches; decide +kernel,
    by decide +kernel⟩,
   ⟨ringed (cmd 2 [(8, 5)]) (up),
    1,
    0,
    0,
    cmd 2 [(8, 5)],
    by unfold State.dispatches; decide +kernel,
    by decide +kernel⟩,
   ⟨ringed (cmd 2 [(8, 2)]) (up),
    1,
    0,
    0,
    cmd 2 [(8, 2)],
    by unfold State.dispatches; decide +kernel,
    by decide +kernel⟩,
   ⟨ringed (cmd 2 [(8, 0), (0xA, 3), (0xC, 0xFFFFFF)]) (tally3 9 up),
    1,
    0,
    0,
    cmd 2 [(8, 0), (0xA, 3), (0xC, 0xFFFFFF)],
    3,
    by unfold State.dispatches; decide +kernel,
    by unfold State.hallIdle; decide +kernel,
    by decide +kernel⟩,
   ⟨ringed (cmd 2 [(8, 1), (0xA, 3), (0xC, 5)]) (tally3 9 up),
    1,
    0,
    0,
    cmd 2 [(8, 1), (0xA, 3), (0xC, 5)],
    3,
    by unfold State.dispatches; decide +kernel,
    by unfold State.hallIdle; decide +kernel,
    by decide +kernel⟩,
   ⟨ringed (cmd 2 [(8, 1), (0xA, 3), (0xC, 50)]) (tally3 9 up),
    1,
    0,
    0,
    cmd 2 [(8, 1), (0xA, 3), (0xC, 50)],
    3,
    by unfold State.dispatches; decide +kernel,
    by unfold State.hallIdle; decide +kernel,
    by decide +kernel⟩,
   ⟨ringed (cmd 2 [(8, 0x14), (0xA, 3), (0x18, 0x100)]) (tally3 9 up),
    1,
    0,
    0,
    cmd 2 [(8, 0x14), (0xA, 3), (0x18, 0x100)],
    3,
    by unfold State.dispatches; decide +kernel,
    by unfold State.hallIdle; decide +kernel,
    by decide +kernel⟩,
   ⟨ringed (cmd 2 [(8, 7), (0xA, 3)]) ({ tallied up with hall := { tallies := [(3, { val := 9, orph := true })] } }),
    1,
    0,
    0,
    cmd 2 [(8, 7), (0xA, 3)],
    3,
    by unfold State.dispatches; decide +kernel,
    by unfold State.hallIdle; decide +kernel,
    by decide +kernel⟩,
   ⟨ringed (cmd 3 [(8, 0), (0xA, 3), (0xC, 5)]) (tally3 9 up),
    1,
    0,
    0,
    cmd 3 [(8, 0), (0xA, 3), (0xC, 5)],
    3,
    ⟨.ring (1), ringCtx (1), 2 + (cmd 3 [(8, 0), (0xA, 3), (0xC, 5)]).f 8 0 1, (cmd 3 [(8, 0), (0xA, 3), (0xC, 5)]).f 0xA 0 13, (cmd 3 [(8, 0), (0xA, 3), (0xC, 5)]).f 0xC 0 24, (cmd 3 [(8, 0), (0xA, 3), (0xC, 5)]).f 0x10 0 32, (cmd 3 [(8, 0), (0xA, 3), (0xC, 5)]).sc, 0, ((ringed (cmd 3 [(8, 0), (0xA, 3), (0xC, 5)]) (tally3 9 up)).ring (1)).nextId⟩,
    by unfold State.dispatches; decide +kernel,
    by unfold State.hallIdle; decide +kernel,
    by decide +kernel⟩,
   ⟨ringed (cmd 3 [(8, 1), (0xA, 3), (0xC, 5)]) ({ tallied up with hall := { tallies := [(3, { val := 9, orph := true })] } }),
    1,
    0,
    0,
    cmd 3 [(8, 1), (0xA, 3), (0xC, 5)],
    3,
    ⟨.ring (1), ringCtx (1), 2 + (cmd 3 [(8, 1), (0xA, 3), (0xC, 5)]).f 8 0 1, (cmd 3 [(8, 1), (0xA, 3), (0xC, 5)]).f 0xA 0 13, (cmd 3 [(8, 1), (0xA, 3), (0xC, 5)]).f 0xC 0 24, (cmd 3 [(8, 1), (0xA, 3), (0xC, 5)]).f 0x10 0 32, (cmd 3 [(8, 1), (0xA, 3), (0xC, 5)]).sc, 0, ((ringed (cmd 3 [(8, 1), (0xA, 3), (0xC, 5)]) ({ tallied up with hall := { tallies := [(3, { val := 9, orph := true })] } })).ring (1)).nextId⟩,
    by unfold State.dispatches; decide +kernel,
    by unfold State.hallIdle; decide +kernel,
    by decide +kernel⟩,
   ⟨ringed (cmd 3 [(8, 1), (0xA, 3), (0xC, 50)]) (tally3 9 up),
    1,
    0,
    0,
    cmd 3 [(8, 1), (0xA, 3), (0xC, 50)],
    3,
    ⟨.ring (1), ringCtx (1), 2 + (cmd 3 [(8, 1), (0xA, 3), (0xC, 50)]).f 8 0 1, (cmd 3 [(8, 1), (0xA, 3), (0xC, 50)]).f 0xA 0 13, (cmd 3 [(8, 1), (0xA, 3), (0xC, 50)]).f 0xC 0 24, (cmd 3 [(8, 1), (0xA, 3), (0xC, 50)]).f 0x10 0 32, (cmd 3 [(8, 1), (0xA, 3), (0xC, 50)]).sc, 0, ((ringed (cmd 3 [(8, 1), (0xA, 3), (0xC, 50)]) (tally3 9 up)).ring (1)).nextId⟩,
    by unfold State.dispatches; decide +kernel,
    by unfold State.hallIdle; decide +kernel,
    by decide +kernel⟩,
   ⟨ringed (cmd 3 [(8, 1), (0xA, 3), (0xC, 50), (0x10, nowait)]) (tally3 9 up),
    1,
    0,
    0,
    cmd 3 [(8, 1), (0xA, 3), (0xC, 50), (0x10, nowait)],
    3,
    ⟨.ring (1), ringCtx (1), 2 + (cmd 3 [(8, 1), (0xA, 3), (0xC, 50), (0x10, nowait)]).f 8 0 1, (cmd 3 [(8, 1), (0xA, 3), (0xC, 50), (0x10, nowait)]).f 0xA 0 13, (cmd 3 [(8, 1), (0xA, 3), (0xC, 50), (0x10, nowait)]).f 0xC 0 24, (cmd 3 [(8, 1), (0xA, 3), (0xC, 50), (0x10, nowait)]).f 0x10 0 32, (cmd 3 [(8, 1), (0xA, 3), (0xC, 50), (0x10, nowait)]).sc, 0, ((ringed (cmd 3 [(8, 1), (0xA, 3), (0xC, 50), (0x10, nowait)]) (tally3 9 up)).ring (1)).nextId⟩,
    by unfold State.dispatches; decide +kernel,
    by unfold State.hallIdle; decide +kernel,
    by decide +kernel⟩,
   ⟨ringed (cmd 4 [(0xA, 3), (0xC, 10)]) (tally3 9 up),
    1,
    0,
    0,
    cmd 4 [(0xA, 3), (0xC, 10)],
    3,
    3,
    10,
    (if (cmd 4 [(0xA, 3), (0xC, 10)]).f 8 0 1 = 1 then nowait else (cmd 4 [(0xA, 3), (0xC, 10)]).f 0x10 0 32),
    by unfold State.dispatches; decide +kernel,
    by unfold State.hallIdle; decide +kernel,
    by decide +kernel⟩,
   ⟨ringed (cmd 4 [(0xA, 3), (0xC, 11)]) (tally3 9 up),
    1,
    0,
    0,
    cmd 4 [(0xA, 3), (0xC, 11)],
    3,
    3,
    11,
    (if (cmd 4 [(0xA, 3), (0xC, 11)]).f 8 0 1 = 1 then nowait else (cmd 4 [(0xA, 3), (0xC, 11)]).f 0x10 0 32),
    by unfold State.dispatches; decide +kernel,
    by unfold State.hallIdle; decide +kernel,
    by decide +kernel⟩,
   ⟨ringed (cmd 5 []) (((tally3 9 up).set pgEVM F.EVM_EVM_CTRL_EN 1).set ⟨.TEV, 0⟩ F.TEV_STEP_BARRIER_EXT 2 |>.set ⟨.TEV, 0⟩ F.TEV_STEP_BARRIER_TALLY 3),
    1,
    0,
    0,
    cmd 5 [],
    3,
    3,
    10,
    (if (cmd 5 []).f 8 0 1 = 1 then nowait else (cmd 5 []).f 0x10 0 32),
    by unfold State.dispatches; decide +kernel,
    by unfold State.hallIdle; decide +kernel,
    by decide +kernel⟩,
   ⟨ringed (cmd 5 []) (((tally3 9 up).set pgEVM F.EVM_EVM_CTRL_EN 1).set ⟨.TEV, 0⟩ F.TEV_STEP_BARRIER_EXT 3 |>.set ⟨.TEV, 0⟩ F.TEV_STEP_BARRIER_TALLY 3),
    1,
    0,
    0,
    cmd 5 [],
    3,
    3,
    11,
    (if (cmd 5 []).f 8 0 1 = 1 then nowait else (cmd 5 []).f 0x10 0 32),
    by unfold State.dispatches; decide +kernel,
    by unfold State.hallIdle; decide +kernel,
    by decide +kernel⟩,
   ⟨ringed (cmd 5 []) (up),
    1,
    0,
    0,
    cmd 5 [],
    by unfold State.dispatches; decide +kernel,
    by decide +kernel⟩,
   ⟨ringed (cmd 7 [(8, 0), (0x10, 4)]) (up),
    1,
    0,
    0,
    cmd 7 [(8, 0), (0x10, 4)],
    by unfold State.dispatches; decide +kernel,
    by decide +kernel⟩,
   ⟨ringed (cmd 7 [(8, 1), (0xC, 0xABCD), (0x10, 4)]) ((fab.set pgVTC (F.VTC_INT_ROUTE_EN.at 0) 1).set pgVTC (F.VTC_INT_ROUTE_PRIMARY.at 0) 0),
    1,
    0,
    0,
    cmd 7 [(8, 1), (0xC, 0xABCD), (0x10, 4)],
    0,
    by unfold State.dispatches; decide +kernel,
    by decide +kernel⟩,
   ⟨ringed (cmd 7 [(8, 1), (0xC, 0xABCD), (0x10, 4)]) (fab),
    1,
    0,
    0,
    cmd 7 [(8, 1), (0xC, 0xABCD), (0x10, 4)],
    by unfold State.dispatches; decide +kernel,
    by decide +kernel⟩,
   ⟨ringed (cmd 7 [(8, 2), (0x10, 4), (0x18, 0x102)]) (fab),
    1,
    0,
    0,
    cmd 7 [(8, 2), (0x10, 4), (0x18, 0x102)],
    by unfold State.dispatches; decide +kernel,
    by decide +kernel⟩,
   ⟨ringed (cmd 7 [(8, 2), (0x10, 0x89ABCDEF), (0x18, 0x104)]) (mapped 0 true true up),
    1,
    0,
    0,
    cmd 7 [(8, 2), (0x10, 0x89ABCDEF), (0x18, 0x104)],
    0x104,
    lineB up 0x100,
    lineL up 0x100,
    by unfold State.dispatches; decide +kernel,
    wordHome_of (by decide +kernel) (by decide +kernel) (by decide +kernel),
    by decide +kernel⟩,
   ⟨ringed (cmd 8 [(8, 3), (0x10, 0x1020)]) (up),
    1,
    0,
    0,
    cmd 8 [(8, 3), (0x10, 0x1020)],
    by unfold State.dispatches; decide +kernel,
    by decide +kernel⟩,
   ⟨ringed (cmd 8 [(8, 3), (0x10, 0x1040)]) (up),
    1,
    0,
    0,
    cmd 8 [(8, 3), (0x10, 0x1040)],
    by unfold State.dispatches; decide +kernel,
    by decide +kernel⟩⟩

/-- States and operands that meet what `Obligations.RingsFetchCompleteAndRestart` assumes, clause by clause. -/
theorem rings_fetch_complete_and_restart_meets :
    (∃ (s : State) (port : Port) (r : Fin 64) (v : BitVec 16) (g : _) (k : _), s.quiet = true ∧ s.writes port (tdbPage (ringCtx r)) (0x100 + 16 * (r.val % 4)) (wordOf v.toNat) = true ∧ s.ringHome r = some (g, k) ∧ sub16 v.toNat (s.head r) ≤ s.slotSize g k ∧ sub16 (s.tail r) (s.head r) ≤ sub16 v.toNat (s.head r)) ∧
    (∃ (s : State) (port : Port) (r : Fin 64) (v : BitVec 16), (∀ g k, s.ringHome r = some (g, k) → s.slotSize g k < sub16 v.toNat (s.head r) ∨ sub16 v.toNat (s.head r) < sub16 (s.tail r) (s.head r)) ∧ s.quiet = true ∧ s.writes port (tdbPage (ringCtx r)) (0x100 + 16 * (r.val % 4)) (wordOf v.toNat) = true) ∧
    (∃ (s : State) (r : Fin 64) (g : Nat) (k : Nat) (tva : Nat) (dpa : _) (b : _) (l : _), s.peekX g (ringCtx r) tva .rd none = some (.ok dpa) ∧ s.target dpa = .ok (.sram b l) ∧ s.quiet = true ∧ s.ringHome r = some (g, k) ∧ s.running (fmnPage g) = true ∧ s.isFatal = false ∧ (s.ring r).faulted = false ∧ (s.ring r).fetched = [] ∧ (s.ring r).list = none ∧ (s.ring r).next ≠ s.tail r ∧ s.fetchReqs g = [⟨k, s.slotClass g k, 0⟩] ∧ tva = (s.slotBase g k + 64 * ((s.ring r).next % s.slotSize g k)) % 2 ^ 48 ∧ s.running pgMMAP = true ∧ s.limOpen (b / 64) = true ∧ s.routeFree ⟨g, s.slotClass g k, ringCtx r, 0⟩ (b / 64) = true ∧ (∀ j < 8, (s.granPeek b l j).cls = .good)) ∧
    (∃ (s : State) (r : Fin 64) (g : Nat) (k : Nat) (tva : Nat) (f : _), s.peekX g (ringCtx r) tva .rd none = some (.error f) ∧ s.quiet = true ∧ s.ringHome r = some (g, k) ∧ s.running (fmnPage g) = true ∧ s.isFatal = false ∧ (s.ring r).faulted = false ∧ (s.ring r).fetched = [] ∧ (s.ring r).list = none ∧ (s.ring r).next ≠ s.tail r ∧ s.fetchReqs g = [⟨k, s.slotClass g k, 0⟩] ∧ tva = (s.slotBase g k + 64 * ((s.ring r).next % s.slotSize g k)) % 2 ^ 48) ∧
    (∃ (s : State) (r : Fin 64) (g : Nat) (k : Nat) (o : OutCmd) (st : _), s.quiet = true ∧ s.ringHome r = some (g, k) ∧ (s.ring r).out = [o] ∧ o.fin = false ∧ o.list = false ∧ o.res = some st ∧ o.dest = none ∧ stopping st = false) ∧
    (∃ (s : State) (r : Fin 64) (g : Nat) (k : Nat) (o : OutCmd) (st : _), s.quiet = true ∧ s.ringHome r = some (g, k) ∧ (s.ring r).out = [o] ∧ o.fin = false ∧ o.list = false ∧ o.res = some st ∧ o.dest = none ∧ stopping st = true ∧ s.flag (fmnPage g) (F.FMN_RING_SLOT_ERR_STOP.at k) = true ∧ s.ringGet r F.TDB_RING_STAT_STOP_STATUS = 0 ∧ (s.ring r).stopped = false) ∧
    (∃ (s : State) (r : Fin 64) (g : Nat) (k : Nat) (o : OutCmd) (st : _) (tva : _) (sc : _) (dpa : _) (b : _) (l : _), s.wordHome g (ringCtx r) tva dpa b l ∧ s.quiet = true ∧ s.ringHome r = some (g, k) ∧ (s.ring r).out = [o] ∧ o.fin = false ∧ o.list = false ∧ o.res = some st ∧ o.dest = some (tva, sc) ∧ stopping st = false ∧ s.routeFree ⟨g, sc, ringCtx r, 0⟩ (b / 64) = true) ∧
    (∃ (s : State) (r : Fin 64) (g : Nat) (k : Nat) (o : OutCmd), s.quiet = true ∧ s.ringHome r = some (g, k) ∧ (s.ring r).out = [o] ∧ o.fin = false ∧ o.list = false ∧ o.res = none ∧ o.op = 6) ∧
    (∃ (s : State) (port : Port) (r : Fin 64), s.quiet = true ∧ s.writes port (tdbPage (ringCtx r)) (0x10C + 16 * (r.val % 4)) 1 = true ∧ ((s.ring r).stopped = true ∨ (s.ring r).faulted = true)) ∧
    (∃ (s : State) (port : Port) (r : Fin 64), s.quiet = true ∧ s.writes port (tdbPage (ringCtx r)) (0x10C + 16 * (r.val % 4)) 1 = true ∧ (s.ring r).stopped = false ∧ (s.ring r).faulted = false) ∧
    (∃ (s : State) (port : Port) (r : Fin 64), s.quiet = true ∧ s.writes port (tdbPage (ringCtx r)) (0x10C + 16 * (r.val % 4)) 2 = true) ∧
    (∃ (s : State) (g : Fin 8) (k : Fin 8) (on : Bool), s.quiet = true ∧ s.writes .steward (fmnPage g) (0x100 + 16 * k.val) (wput (s.rd (fmnPage g) (0x100 + 16 * k.val)) (F.FMN_RING_SLOT_EN.at k).lo 1 (b2n on)) = true ∧ on = true ∧ (∀ j ∈ s.slotsOf (s.get (fmnPage g) (F.FMN_RING_SLOT_RING.at k)), j = 8 * g.val + k.val)) ∧
    (∃ (s : State) (g : Fin 8) (k : Fin 8) (on : Bool) (j : _), s.quiet = true ∧ s.writes .steward (fmnPage g) (0x100 + 16 * k.val) (wput (s.rd (fmnPage g) (0x100 + 16 * k.val)) (F.FMN_RING_SLOT_EN.at k).lo 1 (b2n on)) = true ∧ on = true ∧ j ∈ s.slotsOf (s.get (fmnPage g) (F.FMN_RING_SLOT_RING.at k)) ∧ j ≠ 8 * g.val + k.val) ∧
    (∃ (s : State) (g : Fin 8) (k : Fin 8) (on : Bool), s.quiet = true ∧ s.writes .steward (fmnPage g) (0x100 + 16 * k.val) (wput (s.rd (fmnPage g) (0x100 + 16 * k.val)) (F.FMN_RING_SLOT_EN.at k).lo 1 (b2n on)) = true ∧ on = false) :=
  ⟨⟨slotted up,
    .steward,
    1,
    16,
    0,
    0,
    by decide +kernel⟩,
   ⟨slotted up,
    .steward,
    1,
    17,
    at_home (g0 := 0) (k0 := 0) (by decide +kernel) (by decide +kernel),
    by decide +kernel⟩,
   ⟨{ ((mapped 0 true true (poke 0x40 0x77 (slotted up))).ringSet 1 F.TDB_DOORBELL_TAIL 5) with rings := [(1, { next := 1 })] },
    1,
    0,
    0,
    0x40,
    0x40,
    lineB up 0x40,
    lineL up 0x40,
    eq_ofO (by decide +kernel),
    eq_ofE (by decide +kernel),
    by decide +kernel⟩,
   ⟨{ ((mapped 0 false true (slotted up)).ringSet 1 F.TDB_DOORBELL_TAIL 5) with rings := [(1, { next := 1 })] },
    1,
    0,
    0,
    0x40,
    ⟨3, 3⟩,
    eq_ofO (by decide +kernel),
    by decide +kernel⟩,
   ⟨outed { out0 with res := some 0 } up,
    1,
    0,
    0,
    { out0 with res := some 0 },
    0,
    by decide +kernel⟩,
   ⟨(outed { out0 with res := some 10 } up).set (fmnPage 0) (F.FMN_RING_SLOT_ERR_STOP.at 0) 1,
    1,
    0,
    0,
    { out0 with res := some 10 },
    10,
    by decide +kernel⟩,
   ⟨mapped 0 true true (outed { out0 with res := some 0, dest := some (0x104, 0), word := 0x12345678 } up),
    1,
    0,
    0,
    { out0 with res := some 0, dest := some (0x104, 0), word := 0x12345678 },
    0,
    0x104,
    0,
    0x104,
    lineB up 0x100,
    lineL up 0x100,
    wordHome_of (by decide +kernel) (by decide +kernel) (by decide +kernel),
    by decide +kernel⟩,
   ⟨outed { out0 with op := 6 } up,
    1,
    0,
    0,
    { out0 with op := 6 },
    by decide +kernel⟩,
   ⟨{ slotted up with rings := [(1, { stopped := true })] },
    .steward,
    1,
    by decide +kernel⟩,
   ⟨slotted up,
    .steward,
    1,
    by decide +kernel⟩,
   ⟨(slotted up).ringSet 1 F.TDB_RING_STAT_DB_IGNORED 1,
    .steward,
    1,
    by decide +kernel⟩,
   ⟨slotted up,
    0,
    0,
    true,
    by decide +kernel⟩,
   ⟨(slotted up).set (fmnPage 0) (F.FMN_RING_SLOT_RING.at 2) 1,
    0,
    2,
    true,
    0,
    by decide +kernel⟩,
   ⟨slotted up,
    0,
    0,
    false,
    by decide +kernel⟩⟩

/-- States and operands that meet what `Obligations.TallyRequestsActAndAnswer` assumes, clause by clause. -/
theorem tally_requests_act_and_answer_meets :
    (∃ (s : State) (m : Fin 16) (h : BitVec 128) (data : List Byte) (p : Nat), s.accepts m h data ∧ s.hallIdle ∧ s.quiet = true ∧ hOpc h = opTALLY ∧ s.physOf (hCtx h) (hb h 48 13) = some p ∧ s.partner p = none ∧ s.hall.holders = [] ∧ s.tallyLegal (tallyReqOf m h) p = true ∧ tallyTop h = 4) ∧
    (∃ (s : State) (m : Fin 16) (h : BitVec 128) (data : List Byte) (p : Nat), s.accepts m h data ∧ s.hallIdle ∧ s.quiet = true ∧ hOpc h = opTALLY ∧ s.physOf (hCtx h) (hb h 48 13) = some p ∧ s.partner p = none ∧ s.hall.holders = [] ∧ s.tallyLegal (tallyReqOf m h) p = true ∧ tallyTop h = 0) ∧
    (∃ (s : State) (m : Fin 16) (h : BitVec 128) (data : List Byte) (p : Nat), s.accepts m h data ∧ s.hallIdle ∧ s.quiet = true ∧ hOpc h = opTALLY ∧ s.physOf (hCtx h) (hb h 48 13) = some p ∧ s.partner p = none ∧ s.hall.holders = [] ∧ s.tallyLegal (tallyReqOf m h) p = true ∧ tallyTop h = 1 ∧ hb h 64 24 ≤ (s.tally p).val) ∧
    (∃ (s : State) (m : Fin 16) (h : BitVec 128) (data : List Byte) (p : Nat), s.accepts m h data ∧ s.hallIdle ∧ s.quiet = true ∧ hOpc h = opTALLY ∧ s.physOf (hCtx h) (hb h 48 13) = some p ∧ s.partner p = none ∧ s.hall.holders = [] ∧ s.tallyLegal (tallyReqOf m h) p = true ∧ tallyTop h = 1 ∧ (s.tally p).val < hb h 64 24) ∧
    (∃ (s : State) (m : Fin 16) (h : BitVec 128) (data : List Byte) (p : Nat), s.accepts m h data ∧ s.hallIdle ∧ s.quiet = true ∧ hOpc h = opTALLY ∧ s.physOf (hCtx h) (hb h 48 13) = some p ∧ s.partner p = none ∧ s.hall.holders = [] ∧ s.tallyLegal (tallyReqOf m h) p = true ∧ tallyTop h = 2 ∧ hb h 64 24 ≤ (s.tally p).val) ∧
    (∃ (s : State) (m : Fin 16) (h : BitVec 128) (data : List Byte) (p : Nat), s.accepts m h data ∧ s.hallIdle ∧ s.quiet = true ∧ hOpc h = opTALLY ∧ s.physOf (hCtx h) (hb h 48 13) = some p ∧ s.partner p = none ∧ s.hall.holders = [] ∧ s.tallyLegal (tallyReqOf m h) p = true ∧ tallyTop h = 2 ∧ (s.tally p).val < hb h 64 24 ∧ hXf h = nowait) ∧
    (∃ (s : State) (m : Fin 16) (h : BitVec 128) (data : List Byte) (p : Nat), s.accepts m h data ∧ s.hallIdle ∧ s.quiet = true ∧ hOpc h = opTALLY ∧ s.physOf (hCtx h) (hb h 48 13) = some p ∧ s.partner p = none ∧ s.hall.holders = [] ∧ s.tallyLegal (tallyReqOf m h) p = true ∧ tallyTop h = 2 ∧ (s.tally p).val < hb h 64 24 ∧ hXf h ≠ nowait) ∧
    (∃ (s : State) (m : Fin 16) (h : BitVec 128) (data : List Byte) (p : Nat), s.accepts m h data ∧ s.hallIdle ∧ s.quiet = true ∧ hOpc h = opTALLY ∧ s.physOf (hCtx h) (hb h 48 13) = some p ∧ s.partner p = none ∧ s.hall.holders = [] ∧ s.tallyLegal (tallyReqOf m h) p = true ∧ tallyTop h = 3 ∧ hb h 64 24 ≤ (s.tally p).val) ∧
    (∃ (s : State) (m : Fin 16) (h : BitVec 128) (data : List Byte) (p : Nat), s.accepts m h data ∧ s.hallIdle ∧ s.quiet = true ∧ hOpc h = opTALLY ∧ s.physOf (hCtx h) (hb h 48 13) = some p ∧ s.partner p = none ∧ s.hall.holders = [] ∧ s.tallyLegal (tallyReqOf m h) p = true ∧ tallyTop h = 3 ∧ (s.tally p).val < hb h 64 24 ∧ hXf h ≠ nowait) ∧
    (∃ (s : State) (m : Fin 16) (h : BitVec 128) (data : List Byte) (p : Nat), s.accepts m h data ∧ s.hallIdle ∧ s.quiet = true ∧ hOpc h = opTALLY ∧ s.physOf (hCtx h) (hb h 48 13) = some p ∧ s.partner p = none ∧ s.hall.holders = [] ∧ s.tallyLegal (tallyReqOf m h) p = true ∧ tallyTop h = 6 ∧ (s.tally p).val + 1 = hb h 64 24) ∧
    (∃ (s : State) (m : Fin 16) (h : BitVec 128) (data : List Byte) (p : Nat), s.accepts m h data ∧ s.hallIdle ∧ s.quiet = true ∧ hOpc h = opTALLY ∧ s.physOf (hCtx h) (hb h 48 13) = some p ∧ s.partner p = none ∧ s.hall.holders = [] ∧ s.tallyLegal (tallyReqOf m h) p = true ∧ tallyTop h = 6 ∧ (s.tally p).val + 1 < hb h 64 24 ∧ hXf h ≠ nowait) ∧
    (∃ (s : State) (m : Fin 16) (h : BitVec 128) (data : List Byte) (p : Nat), s.accepts m h data ∧ s.hallIdle ∧ s.quiet = true ∧ hOpc h = opTALLY ∧ s.physOf (hCtx h) (hb h 48 13) = some p ∧ s.partner p = none ∧ s.hall.holders = [] ∧ s.tallyLegal (tallyReqOf m h) p = true ∧ tallyTop h = 7) ∧
    (∃ (s : State) (m : Fin 16) (h : BitVec 128) (data : List Byte) (p : Nat), s.accepts m h data ∧ s.hallIdle ∧ s.quiet = true ∧ hOpc h = opTALLY ∧ s.physOf (hCtx h) (hb h 48 13) = some p ∧ s.partner p = none ∧ s.hall.holders = [] ∧ s.tallyLegal (tallyReqOf m h) p = false ∧ tallyTop h = 3) :=
  ⟨⟨{ tallied fab with hall := { tallies := [(3, { val := 9, orph := true, lock := true })] } },
    0,
    mkHdr opTALLY 9 0 0 0 0 0 (4 + 3 * 2 ^ 8 + 0 * 2 ^ 24) 0 0,
    [],
    3,
    accepts_of (by decide +kernel),
    by unfold State.hallIdle; decide +kernel,
    by decide +kernel⟩,
   ⟨{ tallied fab with hall := { tallies := [(3, { val := 9, orph := true, lock := true })] } },
    0,
    mkHdr opTALLY 9 0 0 0 0 0 (0 + 3 * 2 ^ 8 + 16777215 * 2 ^ 24) 0 0,
    [],
    3,
    accepts_of (by decide +kernel),
    by unfold State.hallIdle; decide +kernel,
    by decide +kernel⟩,
   ⟨{ tallied fab with hall := { tallies := [(3, { val := 9, orph := true, lock := true })] } },
    0,
    mkHdr opTALLY 9 0 0 0 0 0 (1 + 3 * 2 ^ 8 + 5 * 2 ^ 24) 0 0,
    [],
    3,
    accepts_of (by decide +kernel),
    by unfold State.hallIdle; decide +kernel,
    by decide +kernel⟩,
   ⟨{ tallied fab with hall := { tallies := [(3, { val := 9, orph := true, lock := true })] } },
    0,
    mkHdr opTALLY 9 0 0 0 0 0 (1 + 3 * 2 ^ 8 + 50 * 2 ^ 24) 0 0,
    [],
    3,
    accepts_of (by decide +kernel),
    by unfold State.hallIdle; decide +kernel,
    by decide +kernel⟩,
   ⟨{ tallied fab with hall := { tallies := [(3, { val := 9, orph := true, lock := true })] } },
    0,
    mkHdr opTALLY 9 0 0 0 0 0 (2 + 3 * 2 ^ 8 + 5 * 2 ^ 24) 0 0,
    [],
    3,
    accepts_of (by decide +kernel),
    by unfold State.hallIdle; decide +kernel,
    by decide +kernel⟩,
   ⟨{ tallied fab with hall := { tallies := [(3, { val := 9, orph := true, lock := true })] } },
    0,
    mkHdr opTALLY 9 0 0 0 0 0 (2 + 3 * 2 ^ 8 + 50 * 2 ^ 24) 0 nowait,
    [],
    3,
    accepts_of (by decide +kernel),
    by unfold State.hallIdle; decide +kernel,
    by decide +kernel⟩,
   ⟨{ tallied fab with hall := { tallies := [(3, { val := 9, orph := true, lock := true })] } },
    0,
    mkHdr opTALLY 9 0 0 0 0 0 (2 + 3 * 2 ^ 8 + 50 * 2 ^ 24) 0 0,
    [],
    3,
    accepts_of (by decide +kernel),
    by unfold State.hallIdle; decide +kernel,
    by decide +kernel⟩,
   ⟨{ tallied fab with hall := { tallies := [(3, { val := 9, orph := true, lock := true })] } },
    0,
    mkHdr opTALLY 9 0 0 0 0 0 (3 + 3 * 2 ^ 8 + 5 * 2 ^ 24) 0 0,
    [],
    3,
    accepts_of (by decide +kernel),
    by unfold State.hallIdle; decide +kernel,
    by decide +kernel⟩,
   ⟨{ tallied fab with hall := { tallies := [(3, { val := 9, orph := true, lock := true })] } },
    0,
    mkHdr opTALLY 9 0 0 0 0 0 (3 + 3 * 2 ^ 8 + 50 * 2 ^ 24) 0 5,
    [],
    3,
    accepts_of (by decide +kernel),
    by unfold State.hallIdle; decide +kernel,
    by decide +kernel⟩,
   ⟨{ tallied fab with hall := { tallies := [(3, { val := 9, orph := true, lock := true })] } },
    0,
    mkHdr opTALLY 9 0 0 0 0 0 (6 + 3 * 2 ^ 8 + 10 * 2 ^ 24) 0 0,
    [],
    3,
    accepts_of (by decide +kernel),
    by unfold State.hallIdle; decide +kernel,
    by decide +kernel⟩,
   ⟨{ tallied fab with hall := { tallies := [(3, { val := 9, orph := true, lock := true })] } },
    0,
    mkHdr opTALLY 9 0 0 0 0 0 (6 + 3 * 2 ^ 8 + 11 * 2 ^ 24) 0 4,
    [],
    3,
    accepts_of (by decide +kernel),
    by unfold State.hallIdle; decide +kernel,
    by decide +kernel⟩,
   ⟨{ tallied fab with hall := { tallies := [(3, { val := 9, orph := true, lock := true })] } },
    0,
    mkHdr opTALLY 9 0 0 0 0 0 (7 + 3 * 2 ^ 8 + 0 * 2 ^ 24) 0 0,
    [],
    3,
    accepts_of (by decide +kernel),
    by unfold State.hallIdle; decide +kernel,
    by decide +kernel⟩,
   ⟨{ tallied fab with hall := { tallies := [(3, { val := 9, orph := true, lock := true })] } },
    0,
    mkHdr opTALLY 9 0 0 0 0 0 (3 + 3 * 2 ^ 8 + 0 * 2 ^ 24) 0 0,
    [],
    3,
    accepts_of (by decide +kernel),
    by unfold State.hallIdle; decide +kernel,
    by decide +kernel⟩⟩

/-- States and operands that meet what `Obligations.HallTimersAndWindow` assumes, clause by clause. -/
theorem hall_timers_and_window_meets :
    (∃ (s : State) (p : Fin 8192), s.hallIdle ∧ s.quiet = true ∧ s.stwServes = true ∧ s.partner p = none ∧ (s.tally p).broken = false) ∧
    (∃ (s : State) (k : Fin 2048) (w : Waiter) (m : Nat) (tag : Nat) (n : Nat), s.quiet = true ∧ s.hall.waiters[k.val]? = some w ∧ w.deadline = some n ∧ n ≤ s.ticks ∧ w.asked = false ∧ w.req.who = .module m tag ∧ w.req.hdr ≠ 0 ∧ (w.req.top = 2 ∨ w.req.top = 6) ∧ s.hall.held = []) ∧
    (∃ (s : State) (c : Fin 16) (a : Nat) (b : Nat), s.quiet = true ∧ s.get (ttvPage c) F.TTV_REALIGN_CTRL_PERIOD ≠ 0 ∧ (find s.hall.realignAt c).getD 0 + s.get (ttvPage c) F.TTV_REALIGN_CTRL_PERIOD ≤ s.ticks ∧ s.twinState = twOFF ∧ s.linksOf c = [(a, b)] ∧ a ≠ b) ∧
    (∃ (s : State) (c : Fin 16), s.quiet = true ∧ s.deadlocked c = true ∧ s.flag (ttvPage c) F.TTV_TTV_STATUS_DL_ACTIVE = false) ∧
    (∃ (s : State) (c : Fin 16), s.quiet = true ∧ s.deadlocked c = true ∧ s.flag (ttvPage c) F.TTV_TTV_STATUS_DL_ACTIVE = true) :=
  ⟨⟨tally3 9 up,
    8191,
    by unfold State.hallIdle; decide +kernel,
    by decide +kernel⟩,
   ⟨{ (atTick 6 (tallied fab)) with hall := { waiters := [{ req := ⟨.module 0 9, 0, 2, 3, 50, 5, 0, mkHdr opTALLY 9 0 0 0 0 0 (2 + 3 * 2 ^ 8 + 50 * 2 ^ 24) 0 5, 0⟩, phys := 3, gen := false, at' := 0, deadline := some 5 }] } },
    0,
    { req := ⟨.module 0 9, 0, 2, 3, 50, 5, 0, mkHdr opTALLY 9 0 0 0 0 0 (2 + 3 * 2 ^ 8 + 50 * 2 ^ 24) 0 5, 0⟩, phys := 3, gen := false, at' := 0, deadline := some 5 },
    0,
    9,
    5,
    by decide +kernel⟩,
   ⟨{ (((atTick 60 (tallied fab)).set (ttvPage 0) F.TTV_REALIGN_CTRL_PERIOD 5).wr (ttvPage 0) 0x140 (wordOf (3 + 2 ^ 13 + 4 * 2 ^ 16))) with hall := { tallies := [(3, { val := 9 }), (4, { val := 20 })] } },
    0,
    3,
    4,
    by decide +kernel⟩,
   ⟨{ ((atTick 6000 (tallied fab)).set pgTHL F.THL_DL_WINDOW_TICKS 5) with hall := { waiters := [{ req := ⟨.module 0 9, 0, 2, 3, 50, 5, 0, mkHdr opTALLY 9 0 0 0 0 0 (2 + 3 * 2 ^ 8 + 50 * 2 ^ 24) 0 5, 0⟩, phys := 3, gen := false, at' := 0, deadline := some 5 }] } },
    0,
    by decide +kernel⟩,
   ⟨{ (((atTick 6000 (tallied fab)).set pgTHL F.THL_DL_WINDOW_TICKS 5).set (ttvPage 0) F.TTV_TTV_STATUS_DL_ACTIVE 1) with hall := { waiters := [{ req := ⟨.module 0 9, 0, 2, 3, 50, 5, 0, mkHdr opTALLY 9 0 0 0 0 0 (2 + 3 * 2 ^ 8 + 50 * 2 ^ 24) 0 5, 0⟩, phys := 3, gen := false, at' := 0, deadline := some 5 }] } },
    0,
    by decide +kernel⟩⟩

/-- States and operands that meet what `Obligations.TenantTallyRegisters` assumes, clause by clause. -/
theorem tenant_tally_registers_meets :
    (∃ (s : State) (port : Port) (c : Fin 16) (k : Fin 16) (w : Word), s.quiet = true ∧ s.twinState = twOFF ∧ s.writes port (ttvPage c) (0x140 + 4 * k.val) w = true ∧ s.linkLegal c k w = true) ∧
    (∃ (s : State) (port : Port) (c : Fin 16) (k : Fin 16) (w : Word), s.quiet = true ∧ s.twinState = twOFF ∧ s.writes port (ttvPage c) (0x140 + 4 * k.val) w = true ∧ s.linkLegal c k w = false) ∧
    (∃ (s : State) (port : Port) (c : Fin 16) (on : Bool) (p : Nat), s.quiet = true ∧ s.twinState = twOFF ∧ s.writes port (ttvPage c) 0x110 (wordOf (b2n on)) = true ∧ s.ttvSel port c = some p ∧ p < 2 ^ 13 ∧ s.partner p = none) ∧
    (∃ (s : State) (port : Port) (c : Fin 16) (on : Bool) (p : Nat), s.quiet = true ∧ s.twinState = twOFF ∧ s.writes port (ttvPage c) 0x110 (wordOf (b2n on)) = true ∧ s.ttvSel port c = some p ∧ p < 2 ^ 13 ∧ (s.partner p).isSome = true) ∧
    (∃ (s : State) (port : Port) (c : Fin 16) (p : Nat), s.quiet = true ∧ s.writes port (ttvPage c) 0x114 1 = true ∧ s.ttvSel port c = some p) :=
  ⟨⟨tally3 9 up,
    .steward,
    0,
    2,
    0x00042003,
    by decide +kernel⟩,
   ⟨tally3 9 up,
    .steward,
    0,
    2,
    0x00032003,
    by decide +kernel⟩,
   ⟨(tally3 9 up).portWr .steward (ttvPage 0) 0x108 3,
    .steward,
    0,
    true,
    3,
    by decide +kernel⟩,
   ⟨((tally3 9 up).portWr .steward (ttvPage 0) 0x108 3).wr (ttvPage 0) 0x140 (wordOf (3 + 2 ^ 13 + 4 * 2 ^ 16)),
    .steward,
    0,
    true,
    3,
    by decide +kernel⟩,
   ⟨{ (tally3 9 up).portWr .steward (ttvPage 0) 0x108 3 with hall := { tallies := [(3, { val := 9, sat := true })] } },
    .steward,
    0,
    3,
    by decide +kernel⟩⟩

/-- States and operands that meet what `Obligations.StepsOpenEvaluateDrainAndClose` assumes, clause by clause. -/
theorem steps_open_evaluate_drain_and_close_meets :
    (∃ (s : State), s.quiet = true ∧ s.evOn = true ∧ s.flag s.evPage F.TEV_STEP_CTRL_RUN = true ∧ s.flag s.evPage F.TEV_STEP_CTRL_MODE = false ∧ s.dueTick ≤ s.ticks) ∧
    (∃ (s : State), s.quiet = true ∧ s.mayOpen = true) ∧
    (∃ (s : State) (g : Fin 8), s.quiet = true ∧ s.event.opened = true ∧ s.running pgMMAP = true ∧ (s.crier g).phase = 2) ∧
    (∃ (s : State) (g : Fin 8) (n : _) (b : _) (l : _), s.quiet = true ∧ s.event.opened = true ∧ s.running pgMMAP = true ∧ (s.crier g).phase = 2 ∧ n < 64 ∧ (s.pop n).en = true ∧ (s.pop n).eval = true ∧ (s.pop n).gal = g.val ∧ (s.pop n).size = 1 ∧ (∀ k < 64, k ≠ n → (s.pop k).en = false) ∧ s.arenaAt g (s.pop n).base = (b, l) ∧ b < 512 ∧ l < 3072 ∧ s.flag (bnkPage b) F.BNK_ECC_INJECT_ARM = false ∧ (∀ j < 8, (s.granPeek b l j).cls = .good)) ∧
    (∃ (s : State) (g : Fin 8), s.quiet = true ∧ s.event.opened = true ∧ s.running pgMMAP = true ∧ (s.crier g).phase = 4 ∧ (s.crier g).drained = false ∧ s.event.flights = [] ∧ (∀ h < 8, 4 ≤ (s.crier h).phase) ∧ (s.crier g).out = [] ∧ (∀ j < 2, ∀ x ∈ (s.link (2 * g + j)).tx, hOpc x.msg.hdr ≠ opEVT) ∧ (∀ d < 8, bit (s.liveEnt tCONV g (8 + d)) 0 = false)) ∧
    (∃ (s : State) (g : Fin 8) (p : _) (n : _), s.hallIdle ∧ s.quiet = true ∧ s.event.opened = true ∧ s.running pgMMAP = true ∧ (s.crier g).phase = 4 ∧ (s.crier g).drained = true ∧ s.hall.holders = [] ∧ s.partner p = none ∧ n = 8 + s.get s.evPage F.TEV_STEP_BARRIER_EXT ∧ s.physOf s.evCtx (s.get s.evPage F.TEV_STEP_BARRIER_TALLY) = some p ∧ s.tallyLegal ⟨.crier g, s.evCtx, 6, s.get s.evPage F.TEV_STEP_BARRIER_TALLY, n, 0xFFFFFFFF, s.evClass, 0, 0⟩ p = true ∧ (s.tally p).val + 1 < n) ∧
    (∃ (s : State) (g : Fin 8) (p : _) (n : _), s.hallIdle ∧ s.quiet = true ∧ s.event.opened = true ∧ s.running pgMMAP = true ∧ (s.crier g).phase = 4 ∧ (s.crier g).drained = true ∧ s.hall.holders = [] ∧ s.partner p = none ∧ n = 8 + s.get s.evPage F.TEV_STEP_BARRIER_EXT ∧ s.physOf s.evCtx (s.get s.evPage F.TEV_STEP_BARRIER_TALLY) = some p ∧ s.tallyLegal ⟨.crier g, s.evCtx, 6, s.get s.evPage F.TEV_STEP_BARRIER_TALLY, n, 0xFFFFFFFF, s.evClass, 0, 0⟩ p = true ∧ (s.tally p).val + 1 = n ∧ (∀ h < 8, h ≠ g.val → (s.crier h).answer = some 0)) ∧
    (∃ (s : State) (g : Fin 8) (f : _) (rest : _), s.quiet = true ∧ s.event.opened = true ∧ s.running pgMMAP = true ∧ takeFirst (fun f => f.g == g.val) s.event.flights = some (f, rest) ∧ s.matches g f.key false = []) ∧
    (∃ (s : State) (g : Fin 8) (f : _) (rest : _) (e : _) (bucket : _), s.quiet = true ∧ s.event.opened = true ∧ s.running pgMMAP = true ∧ takeFirst (fun f => f.g == g.val) s.event.flights = some (f, rest) ∧ s.matches g f.key false = [e] ∧ bits e 65 2 = 1 ∧ bucket = (f.step + f.d) % 16 ∧ f.g = g.val ∧ find (s.crier g).counts bucket = none ∧ find (s.crier g).chunks bucket = none ∧ (∃ c < s.poolSize g, c ∉ (s.crier g).chunks.flatMap (·.2))) ∧
    (∃ (s : State) (g : Fin 8) (f : _) (rest : _) (e : _) (bucket : _), s.quiet = true ∧ s.event.opened = true ∧ s.running pgMMAP = true ∧ takeFirst (fun f => f.g == g.val) s.event.flights = some (f, rest) ∧ s.matches g f.key false = [e] ∧ bits e 65 2 = 1 ∧ bucket = (f.step + f.d) % 16 ∧ f.g = g.val ∧ find (s.crier g).counts bucket = none ∧ find (s.crier g).chunks bucket = none ∧ (∀ c < s.poolSize g, c ∈ (s.crier g).chunks.flatMap (·.2))) ∧
    (∃ (s : State) (port : Port) (c : Fin 16), s.quiet = true ∧ s.writes port (tevPage c) 0x100 (wput (s.rd (tevPage c) 0x100) 0 1 1) = true ∧ s.evCtx ≠ c) ∧
    (∃ (s : State) (port : Port) (c : Fin 16), s.quiet = true ∧ s.writes port (tevPage c) 0x100 (wput (s.rd (tevPage c) 0x100) 0 1 1) = true ∧ s.evCtx = c ∧ s.evOn = true ∧ s.get (tevPage c) F.TEV_STEP_BARRIER_TALLY < s.tallyCount c ∧ s.flag (tevPage c) F.TEV_STEP_CTRL_RUN = false ∧ s.event.opened = false) ∧
    (∃ (s : State) (port : Port) (c : Fin 16), s.quiet = true ∧ s.writes port (tevPage c) 0x100 (wput (s.rd (tevPage c) 0x100) 0 1 1) = true ∧ s.evCtx = c ∧ (s.evOn = false ∨ s.tallyCount c ≤ s.get (tevPage c) F.TEV_STEP_BARRIER_TALLY)) ∧
    (∃ (s : State) (port : Port) (c : Fin 16), s.quiet = true ∧ s.writes port (tevPage c) 0x100 (wput (s.rd (tevPage c) 0x100) 0 1 0) = true ∧ s.evCtx = c) ∧
    (∃ (s : State) (port : Port) (c : Fin 16), s.quiet = true ∧ s.writes port (tevPage c) 0x1A0 2 = true ∧ s.evCtx = c) ∧
    (∃ (s : State) (port : Port) (c : Fin 16), s.quiet = true ∧ s.writes port (tevPage c) 0x1A0 4 = true ∧ s.evCtx = c) ∧
    (∃ (s : State) (port : Port) (c : Fin 16) (code : _), s.quiet = true ∧ s.writes port (tevPage c) 0x1A0 1 = true ∧ s.evCtx = c ∧ s.flag (tevPage c) F.TEV_TEV_STATUS_COPY_BUSY = false ∧ s.swapCode = some code) ∧
    (∃ (s : State) (port : Port) (c : Fin 16), s.quiet = true ∧ s.writes port (tevPage c) 0x1A0 1 = true ∧ s.evCtx = c ∧ s.flag (tevPage c) F.TEV_TEV_STATUS_COPY_BUSY = false ∧ s.swapCode = none ∧ s.evIdle = false) ∧
    (∃ (s : State) (port : Port) (c : Fin 16), s.quiet = true ∧ s.writes port (tevPage c) 0x1A0 1 = true ∧ s.evCtx = c ∧ s.flag (tevPage c) F.TEV_TEV_STATUS_COPY_BUSY = false ∧ s.swapCode = none ∧ s.evIdle = true) ∧
    (∃ (s : State), s.quiet = true ∧ s.flag s.evPage F.TEV_TEV_STATUS_COPY_BUSY = true) ∧
    (∃ (s : State) (w : Word), s.quiet = true ∧ s.writes .steward pgEVM 0x100 w = true ∧ (s.evOn = false ∨ s.halted pgEVM = true)) ∧
    (∃ (s : State) (w : Word), s.quiet = true ∧ s.writes .steward pgEVM 0x100 w = true ∧ s.evOn = true ∧ s.halted pgEVM = false ∧ w.getLsbD 0 = true ∧ wbits w 1 4 = s.evCtx ∧ wbits w 5 3 = s.evClass) ∧
    (∃ (s : State) (w : Word), s.quiet = true ∧ s.writes .steward pgEVM 0x100 w = true ∧ s.evOn = true ∧ s.halted pgEVM = false ∧ (w.getLsbD 0 = false ∨ wbits w 1 4 ≠ s.evCtx ∨ wbits w 5 3 ≠ s.evClass)) :=
  ⟨⟨atTick 50 (evUp up),
    by decide +kernel⟩,
   ⟨{ (evUp up).set ⟨.TEV, 0⟩ F.TEV_STEP_CTRL_MODE 1 with criers := [(2, { phase := 3 })] },
    by decide +kernel⟩,
   ⟨evOpen 2 up,
    2,
    by decide +kernel⟩,
   ⟨{ (((evOpen 2 up).set (cryPage 2) F.CRY_ARENA_BASE_BASE 2).set (cryPage 2) F.CRY_ARENA_SIZE_BLOCKS 2) with event := { opened := true, live := [(tblKey tPOP 0 5, 3 + 2 * 2 ^ 2 + 1 * 2 ^ 8 + 100 * 2 ^ 64 + 30 * 2 ^ 96)] } },
    2,
    5,
    (({ (((evOpen 2 up).set (cryPage 2) F.CRY_ARENA_BASE_BASE 2).set (cryPage 2) F.CRY_ARENA_SIZE_BLOCKS 2) with event := { opened := true, live := [(tblKey tPOP 0 5, 3 + 2 * 2 ^ 2 + 1 * 2 ^ 8 + 100 * 2 ^ 64 + 30 * 2 ^ 96)] } }).arenaAt (2) (({ (((evOpen 2 up).set (cryPage 2) F.CRY_ARENA_BASE_BASE 2).set (cryPage 2) F.CRY_ARENA_SIZE_BLOCKS 2) with event := { opened := true, live := [(tblKey tPOP 0 5, 3 + 2 * 2 ^ 2 + 1 * 2 ^ 8 + 100 * 2 ^ 64 + 30 * 2 ^ 96)] } }).pop (5)).base).1,
    (({ (((evOpen 2 up).set (cryPage 2) F.CRY_ARENA_BASE_BASE 2).set (cryPage 2) F.CRY_ARENA_SIZE_BLOCKS 2) with event := { opened := true, live := [(tblKey tPOP 0 5, 3 + 2 * 2 ^ 2 + 1 * 2 ^ 8 + 100 * 2 ^ 64 + 30 * 2 ^ 96)] } }).arenaAt (2) (({ (((evOpen 2 up).set (cryPage 2) F.CRY_ARENA_BASE_BASE 2).set (cryPage 2) F.CRY_ARENA_SIZE_BLOCKS 2) with event := { opened := true, live := [(tblKey tPOP 0 5, 3 + 2 * 2 ^ 2 + 1 * 2 ^ 8 + 100 * 2 ^ 64 + 30 * 2 ^ 96)] } }).pop (5)).base).2,
    by decide +kernel⟩,
   ⟨evOpen 4 up,
    2,
    by decide +kernel⟩,
   ⟨{ evOpen 4 up with criers := (List.range 8).map fun j => (j, { phase := 4, drained := true }) },
    2,
    3,
    8,
    by unfold State.hallIdle; decide +kernel,
    by decide +kernel⟩,
   ⟨{ evOpen 4 up with hall := { tallies := [(3, { val := 7 })] }, criers := (List.range 8).map fun j => (j, if j = 2 then { phase := 4, drained := true } else { phase := 5, answer := some 0 }) },
    2,
    3,
    8,
    by unfold State.hallIdle; decide +kernel,
    by decide +kernel⟩,
   ⟨{ evOpen 2 up with event := { opened := true, flights := [⟨1, 5, 1, 0⟩, ⟨2, 77, 1, 0⟩] } },
    2,
    ⟨2, 77, 1, 0⟩,
    [⟨1, 5, 1, 0⟩],
    by decide +kernel⟩,
   ⟨{ ((evOpen 2 up).set (cryPage 2) F.CRY_LAND_SIZE_BLOCKS 1).set (cryPage 2) F.CRY_ARENA_SIZE_BLOCKS 4 with event := { opened := true, flights := [⟨1, 5, 1, 0⟩, ⟨2, 77, 1, 0⟩], live := [(tblKey tROUTE 2 9, ((77 + 0xFFFFFFFF * 2 ^ 32 + 2 ^ 64 + 2 ^ 65)))] } },
    2,
    ⟨2, 77, 1, 0⟩,
    [⟨1, 5, 1, 0⟩],
    ((77 + 0xFFFFFFFF * 2 ^ 32 + 2 ^ 64 + 2 ^ 65)),
    1,
    by decide +kernel⟩,
   ⟨{ ((evOpen 2 up).set (cryPage 2) F.CRY_LAND_SIZE_BLOCKS 0).set (cryPage 2) F.CRY_ARENA_SIZE_BLOCKS 4 with event := { opened := true, flights := [⟨1, 5, 1, 0⟩, ⟨2, 77, 1, 0⟩], live := [(tblKey tROUTE 2 9, ((77 + 0xFFFFFFFF * 2 ^ 32 + 2 ^ 64 + 2 ^ 65)))] } },
    2,
    ⟨2, 77, 1, 0⟩,
    [⟨1, 5, 1, 0⟩],
    ((77 + 0xFFFFFFFF * 2 ^ 32 + 2 ^ 64 + 2 ^ 65)),
    1,
    by decide +kernel⟩,
   ⟨up.set pgCTX (F.CTX_CTX_STATE_STATE.at 3) 2,
    .steward,
    3,
    by decide +kernel⟩,
   ⟨(atTick 9 (evUp up)).set ⟨.TEV, 0⟩ F.TEV_STEP_CTRL_RUN 0,
    .steward,
    0,
    by decide +kernel⟩,
   ⟨(evUp up).set pgEVM F.EVM_EVM_CTRL_EN 0,
    .steward,
    0,
    by decide +kernel⟩,
   ⟨evUp up,
    .steward,
    0,
    by decide +kernel⟩,
   ⟨up,
    .steward,
    0,
    by decide +kernel⟩,
   ⟨up.set ⟨.TEV, 0⟩ F.TEV_TEV_STATUS_SWAP_PENDING 1,
    .steward,
    0,
    by decide +kernel⟩,
   ⟨{ up with event := { shadow := [(tblKey tROUTE 2 9, 2 ^ 70)] } },
    .steward,
    0,
    1,
    by decide +kernel⟩,
   ⟨evUp up,
    .steward,
    0,
    by decide +kernel⟩,
   ⟨{ up with event := { live := [(tblKey tROUTE 2 9, 5)] } },
    .steward,
    0,
    by decide +kernel⟩,
   ⟨{ up.set ⟨.TEV, 0⟩ F.TEV_TEV_STATUS_COPY_BUSY 1 with event := { live := [(tblKey tROUTE 2 9, 5)] } },
    by decide +kernel⟩,
   ⟨{ up with event := { live := [(tblKey tROUTE 2 9, 5)] } },
    0x67,
    by decide +kernel⟩,
   ⟨evUp up,
    1,
    by decide +kernel⟩,
   ⟨evUp up,
    0,
    by decide +kernel⟩⟩

/-- States and operands that meet what `Obligations.TwinMessagesLossJoinAndRegions` assumes, clause by clause. -/
theorem twin_messages_loss_join_and_regions_meets :
    (∃ (s : State) (h : BitVec 128) (data : List Byte) (x : MirMsg) (p : Nat), s.twinTakes opM_APPLY h data ∧ s.quiet = true ∧ s.hall.waiters = [] ∧ s.hall.held = [] ∧ s.hall.holders = [] ∧ s.partner p = none ∧ x = mirMsg (s.mkMsg h data) ∧ x.phys = p ∧ x.mkind = mkTALLY ∧ x.top = 0 ∧ x.odie ≠ s.dieNo ∧ s.twinState = twPAIRED) ∧
    (∃ (s : State) (h : BitVec 128) (data : List Byte) (x : MirMsg) (p : Nat), s.twinTakes opM_FWD h data ∧ s.quiet = true ∧ s.hall.waiters = [] ∧ s.hall.held = [] ∧ s.hall.holders = [] ∧ s.partner p = none ∧ x = mirMsg (s.mkMsg h data) ∧ x.phys = p ∧ x.mkind = mkTALLY ∧ x.top = 0 ∧ x.odie ≠ s.dieNo ∧ s.twinState = twPAIRED ∧ s.sequencer = true ∧ x.okind ≠ 3 ∧ s.assigned x.ctx = true ∧ s.tallyLegal x.req p = true) ∧
    (∃ (s : State) (h : BitVec 128) (data : List Byte) (x : MirMsg) (p : Nat), s.twinTakes opM_FWD h data ∧ s.quiet = true ∧ s.hall.waiters = [] ∧ s.hall.held = [] ∧ s.hall.holders = [] ∧ s.partner p = none ∧ x = mirMsg (s.mkMsg h data) ∧ x.phys = p ∧ x.mkind = mkTALLY ∧ x.top = 0 ∧ x.odie ≠ s.dieNo ∧ s.twinState = twPAIRED ∧ s.sequencer = true ∧ x.okind ≠ 3 ∧ s.assigned x.ctx = false) ∧
    (∃ (s : State) (h : BitVec 128) (data : List Byte) (x : MirMsg), s.twinTakes opM_COPY h data ∧ s.quiet = true ∧ x = mirMsg (s.mkMsg h data) ∧ s.twinState = twTGT ∧ x.mkind = mkCOPY_TALLY ∧ x.kspec = 0) ∧
    (∃ (s : State) (h : BitVec 128) (hd : BitVec 128) (o : MirOp) (m : Nat), s.twinTakes opM_ACK h [] ∧ s.quiet = true ∧ s.twin.ops = [o] ∧ o.tag = hTag h ∧ o.fin = .write m hd ∧ hd ≠ 0 ∧ o.fwd = false ∧ hStatus h = 0 ∧ (mirMsg o.msg).mkind ≠ mkCOPY_LINE) ∧
    (∃ (s : State) (h : BitVec 128) (hd : BitVec 128) (o : MirOp) (m : Nat), s.twinTakes opM_REFUSE h [] ∧ s.quiet = true ∧ s.twin.ops = [o] ∧ o.tag = hTag h ∧ o.fin = .write m hd ∧ hd ≠ 0 ∧ o.fwd = true ∧ hStatus h ≠ 0) ∧
    (∃ (s : State) (h : BitVec 128), s.twinTakes opM_BEAT h [] ∧ s.quiet = true) ∧
    (∃ (s : State) (h : BitVec 128), s.twinTakes opM_JOIN h [] ∧ s.quiet = true ∧ (s.twinState = twUNPAIRED ∨ s.twinState = twJOINING ∨ s.twinState = twSOLO ∨ s.twinState = twFENCED) ∧ hb h 32 1 = s.dieNo) ∧
    (∃ (s : State) (h : BitVec 128), s.twinTakes opM_JOIN h [] ∧ s.quiet = true ∧ (s.twinState = twUNPAIRED ∨ s.twinState = twJOINING ∨ s.twinState = twSOLO ∨ s.twinState = twFENCED) ∧ hb h 32 1 ≠ s.dieNo ∧ s.holdsState = true ∧ hb h 33 1 = 1) ∧
    (∃ (s : State) (h : BitVec 128), s.twinTakes opM_JOIN h [] ∧ s.quiet = true ∧ (s.twinState = twUNPAIRED ∨ s.twinState = twJOINING ∨ s.twinState = twSOLO ∨ s.twinState = twFENCED) ∧ hb h 32 1 ≠ s.dieNo ∧ s.holdsState = false ∧ hb h 33 1 = 0) ∧
    (∃ (s : State) (h : BitVec 128), s.twinTakes opM_JOIN h [] ∧ s.quiet = true ∧ (s.twinState = twUNPAIRED ∨ s.twinState = twJOINING ∨ s.twinState = twSOLO ∨ s.twinState = twFENCED) ∧ hb h 32 1 ≠ s.dieNo ∧ s.holdsState = true ∧ hb h 33 1 = 0) ∧
    (∃ (s : State) (h : BitVec 128), s.twinTakes opM_JOIN h [] ∧ s.quiet = true ∧ (s.twinState = twUNPAIRED ∨ s.twinState = twJOINING ∨ s.twinState = twSOLO ∨ s.twinState = twFENCED) ∧ hb h 32 1 ≠ s.dieNo ∧ s.holdsState = false ∧ hb h 33 1 = 1) ∧
    (∃ (s : State) (h : BitVec 128), s.twinTakes opM_LEAVE h [] ∧ s.quiet = true ∧ (s.twinState = twPAIRED ∨ s.twinState = twSRC) ∧ s.twin.ops = [] ∧ s.hall.holders = [] ∧ s.flag pgTWN F.TWN_TWN_CTRL_SOLO_POLICY = false) ∧
    (∃ (s : State), s.quiet = true ∧ (s.twinState = twPAIRED ∨ s.twinState = twSRC) ∧ s.twin.ops = [] ∧ s.hall.holders = [] ∧ s.twin.beatAt + s.get pgTWN F.TWN_TWN_CTRL_BEAT_TIMEOUT ≤ s.ticks) ∧
    (∃ (s : State), s.quiet = true ∧ s.straps.twinEn = true ∧ (s.twinState = twUNPAIRED ∨ s.twinState = twSOLO) ∧ s.twin.retrainAt + 10000 ≤ s.ticks ∧ s.isFatal = false) ∧
    (∃ (s : State), s.quiet = true ∧ s.straps.twinEn = true ∧ s.writes .steward pgTWN 0x104 1 = true ∧ (s.twinState = twSOLO ∨ s.twinState = twFENCED ∨ s.twinState = twUNPAIRED) ∧ (∀ c < 16, s.ctxState c = 0) ∧ s.hall.waiters = [] ∧ s.hall.held = [] ∧ s.hall.holders = []) ∧
    (∃ (s : State), s.quiet = true ∧ s.straps.twinEn = true ∧ s.writes .steward pgTWN 0x104 2 = true ∧ s.twinState = twFENCED) ∧
    (∃ (s : State), s.quiet = true ∧ s.straps.twinEn = true ∧ s.writes .steward pgTWN 0x104 2 = true ∧ s.twinState ≠ twFENCED) ∧
    (∃ (s : State), s.quiet = true ∧ s.straps.twinEn = true ∧ s.twinState = twSRC ∧ s.twin.pass = 0 ∧ s.twin.front + 1 < copyRegs.length ∧ s.twin.copied < s.get pgTWN F.TWN_RESILVER_CTRL_RATE) ∧
    (∃ (s : State), s.quiet = true ∧ s.straps.twinEn = true ∧ s.twinState = twSRC ∧ s.twin.pass = 0 ∧ s.twin.front + 1 < copyRegs.length ∧ s.get pgTWN F.TWN_RESILVER_CTRL_RATE ≤ s.twin.copied) ∧
    (∃ (s : State), s.quiet = true ∧ s.straps.twinEn = true ∧ (s.twinState = twSRC ∨ s.twinState = twTGT) ∧ s.twin.pass = 2 ∧ s.twin.copying = [] ∧ (∀ o ∈ s.twin.ops, hOpc o.msg.hdr ≠ opM_COPY)) ∧
    (∃ (s : State) (k : Fin 16) (w : Word), s.quiet = true ∧ s.straps.twinEn = true ∧ s.writes .steward pgTWN (0x144 + 8 * k.val) w = true ∧ s.twinState = twUNPAIRED ∧ s.regionOn k = false ∧ w.getLsbD 31 = true ∧ (s.set pgTWN (F.TWN_MIR_SIZE_SIZE.at k) (wbits w 0 24)).regionLegal k = true) ∧
    (∃ (s : State) (k : Fin 16) (w : Word), s.quiet = true ∧ s.straps.twinEn = true ∧ s.writes .steward pgTWN (0x144 + 8 * k.val) w = true ∧ s.twinState = twUNPAIRED ∧ s.regionOn k = false ∧ w.getLsbD 31 = true ∧ (s.set pgTWN (F.TWN_MIR_SIZE_SIZE.at k) (wbits w 0 24)).regionLegal k = false) :=
  ⟨⟨{ tallied (twinned twPAIRED) with hall := { tallies := [(3, { val := 9 })] } },
    mh opM_APPLY 0 (3 * 2 ^ 8 + 5 * 2 ^ 24) 1,
    mslot mkTALLY,
    mirMsg (({ tallied (twinned twPAIRED) with hall := { tallies := [(3, { val := 9 })] } }).mkMsg (mh opM_APPLY 0 (3 * 2 ^ 8 + 5 * 2 ^ 24) 1) (mslot mkTALLY)),
    3,
    twinTakes_of (by decide +kernel),
    by decide +kernel⟩,
   ⟨({ tallied (twinned twPAIRED) with hall := { tallies := [(3, { val := 9 })] } }).set pgTWN F.TWN_TWN_STATUS_SEQUENCER 1,
    mh opM_FWD 0 (3 * 2 ^ 8 + 5 * 2 ^ 24) 0,
    mslot mkTALLY,
    mirMsg ((({ tallied (twinned twPAIRED) with hall := { tallies := [(3, { val := 9 })] } }).set pgTWN F.TWN_TWN_STATUS_SEQUENCER 1).mkMsg (mh opM_FWD 0 (3 * 2 ^ 8 + 5 * 2 ^ 24) 0) (mslot mkTALLY)),
    3,
    twinTakes_of (by decide +kernel),
    by decide +kernel⟩,
   ⟨({ tallied (twinned twPAIRED) with hall := { tallies := [(3, { val := 9 })] } }).set pgTWN F.TWN_TWN_STATUS_SEQUENCER 1,
    mh opM_FWD 4 (3 * 2 ^ 8 + 5 * 2 ^ 24) 0,
    mslot mkTALLY,
    mirMsg ((({ tallied (twinned twPAIRED) with hall := { tallies := [(3, { val := 9 })] } }).set pgTWN F.TWN_TWN_STATUS_SEQUENCER 1).mkMsg (mh opM_FWD 4 (3 * 2 ^ 8 + 5 * 2 ^ 24) 0) (mslot mkTALLY)),
    3,
    twinTakes_of (by decide +kernel),
    by decide +kernel⟩,
   ⟨twinned twTGT,
    mh opM_COPY 0 (3 * 2 ^ 8) 1,
    mslot mkCOPY_TALLY ++ leBytes 16 (77 + 2 ^ 24),
    mirMsg ((twinned twTGT).mkMsg (mh opM_COPY 0 (3 * 2 ^ 8) 1) (mslot mkCOPY_TALLY ++ leBytes 16 (77 + 2 ^ 24))),
    twinTakes_of (by decide +kernel),
    by decide +kernel⟩,
   ⟨{ withMod 0 (twinned twPAIRED) with twin := { ops := [⟨7, false, 5, ⟨mh opM_APPLY 0 0 0, mslot mkCONFIG⟩, .write 0 (mkHdr opREG_WR 9 0 0 0 0 3 0x100 0 5)⟩] } },
    mh opM_ACK 0 0 5,
    mkHdr opREG_WR 9 0 0 0 0 3 0x100 0 5,
    ⟨7, false, 5, ⟨mh opM_APPLY 0 0 0, mslot mkCONFIG⟩, .write 0 (mkHdr opREG_WR 9 0 0 0 0 3 0x100 0 5)⟩,
    0,
    twinTakes_of (by decide +kernel),
    by decide +kernel⟩,
   ⟨{ withMod 0 (twinned twPAIRED) with twin := { ops := [⟨7, true, 5, ⟨mh opM_FWD 0 0 0, mslot mkCONFIG⟩, .write 0 (mkHdr opREG_WR 9 0 0 0 0 3 0x100 0 5)⟩] } },
    mkHdr opM_REFUSE 7 0 0 0 6 0 0 0 0,
    mkHdr opREG_WR 9 0 0 0 0 3 0x100 0 5,
    ⟨7, true, 5, ⟨mh opM_FWD 0 0 0, mslot mkCONFIG⟩, .write 0 (mkHdr opREG_WR 9 0 0 0 0 3 0x100 0 5)⟩,
    0,
    twinTakes_of (by decide +kernel),
    by decide +kernel⟩,
   ⟨twinned twPAIRED,
    BitVec.ofNat 128 (opM_BEAT + 0x12345678 * 2 ^ 32),
    twinTakes_of (by decide +kernel),
    by decide +kernel⟩,
   ⟨twinned twJOINING,
    BitVec.ofNat 128 (opM_JOIN),
    twinTakes_of (by decide +kernel),
    by decide +kernel⟩,
   ⟨(twinned twSOLO).set pgTWN F.TWN_TWN_STATUS_HOLDS_STATE 1,
    BitVec.ofNat 128 (opM_JOIN + 2 ^ 32 + 1 * 2 ^ 33 + 9 * 2 ^ 64 + 0xA2 * 2 ^ 40),
    twinTakes_of (by decide +kernel),
    by decide +kernel⟩,
   ⟨twinned twUNPAIRED,
    BitVec.ofNat 128 (opM_JOIN + 2 ^ 32 + 0 * 2 ^ 33 + 9 * 2 ^ 64 + 0xA2 * 2 ^ 40),
    twinTakes_of (by decide +kernel),
    by decide +kernel⟩,
   ⟨(twinned twSOLO).set pgTWN F.TWN_TWN_STATUS_HOLDS_STATE 1,
    BitVec.ofNat 128 (opM_JOIN + 2 ^ 32 + 0 * 2 ^ 33 + 9 * 2 ^ 64 + 0xA2 * 2 ^ 40),
    twinTakes_of (by decide +kernel),
    by decide +kernel⟩,
   ⟨twinned twJOINING,
    BitVec.ofNat 128 (opM_JOIN + 2 ^ 32 + 1 * 2 ^ 33 + 9 * 2 ^ 64 + 0xA2 * 2 ^ 40),
    twinTakes_of (by decide +kernel),
    by decide +kernel⟩,
   ⟨twinned twPAIRED,
    BitVec.ofNat 128 (opM_LEAVE + 1 * 2 ^ 32),
    twinTakes_of (by decide +kernel),
    by decide +kernel⟩,
   ⟨atTick 500000 (twinned twPAIRED),
    by decide +kernel⟩,
   ⟨atTick 500000 (twinned twSOLO),
    by decide +kernel⟩,
   ⟨((twinned twSOLO).set pgTWN F.TWN_TWN_STATUS_HOLDS_STATE 1).set pgCTX (F.CTX_CTX_STATE_STATE.at 0) 0,
    by decide +kernel⟩,
   ⟨twinned twFENCED,
    by decide +kernel⟩,
   ⟨twinned twSOLO,
    by decide +kernel⟩,
   ⟨{ twinned twSRC with twin := { front := 2 } },
    by decide +kernel⟩,
   ⟨{ twinned twSRC with twin := { copied := 1000000 } },
    by decide +kernel⟩,
   ⟨{ twinned twSRC with twin := { pass := 2 } },
    by decide +kernel⟩,
   ⟨(twinned twUNPAIRED).set pgTWN (F.TWN_MIR_BASE_BASE.at 3) 16,
    3,
    0x80000001,
    by decide +kernel⟩,
   ⟨(twinned twUNPAIRED).set pgTWN (F.TWN_MIR_BASE_BASE.at 3) 0xFFFFFF,
    3,
    0x80FFFFFF,
    by decide +kernel⟩⟩

/-- States and operands that meet what `Obligations.StewardPortAnswersItsFrames` assumes, clause by clause. -/
theorem steward_port_answers_its_frames_meets :
    (∃ (s : State) (fr : List Byte), s.portTakes 0x01 fr ∧ s.quiet = true) ∧
    (∃ (s : State) (fr : List Byte) (p : Page) (off : Nat), s.portTakes 0x02 fr ∧ s.portFree ∧ s.quiet = true ∧ region (leAt fr 2 6) = .page p off ∧ leAt fr 2 6 % 4 = 0 ∧ s.regHeld .steward p off none = false) ∧
    (∃ (s : State) (fr : List Byte) (p : Page) (off : Nat), s.portTakes 0x02 fr ∧ s.portFree ∧ s.quiet = true ∧ region (leAt fr 2 6) = .page p off ∧ leAt fr 2 6 % 4 = 0 ∧ s.regHeld .steward p off none = false) ∧
    (∃ (s : State) (h : Fin 16) (q : StwQueued) (a : Nat) (p : Page) (off : Nat), s.quiet = true ∧ s.stw.queue = [q] ∧ q.handle = h.val ∧ q.op = some (.regRead a) ∧ region a = .page p off ∧ a % 4 = 0 ∧ s.regHeld .steward p off none = false) ∧
    (∃ (s : State) (fr : List Byte) (p : Page), s.portTakes 0x03 fr ∧ s.portFree ∧ s.quiet = true ∧ region (leAt fr 2 6) = .page p 0x024 ∧ p.kind.tenant = false ∧ (s.mirroredReg p 0x024 = false ∨ s.twinState = twOFF) ∧ s.regHeld .steward p 0x024 (some (BitVec.ofNat 32 (leAt fr 8 4))) = false) ∧
    (∃ (s : State) (fr : List Byte) (b : Nat) (l : Nat) (o : Nat) (n : Nat) (x : _), s.portFree ∧ s.portLine (leAt fr 2 6) n b l ∧ s.portTakes 0x04 fr ∧ s.quiet = true ∧ o = leAt fr 2 6 % 64 ∧ n = byteAt fr 8 + 1 ∧ byteAt fr 8 < 64 ∧ byteAt fr 9 < 8 ∧ x = s.linePeek b l) ∧
    (∃ (s : State) (fr : List Byte) (b : Nat) (l : Nat) (o : Nat) (n : Nat) (w : _), s.portFree ∧ s.portLine (leAt fr 2 6) n b l ∧ s.portTakes 0x05 fr ∧ s.quiet = true ∧ o = leAt fr 2 6 % 64 ∧ n = byteAt fr 8 + 1 ∧ byteAt fr 8 < 64 ∧ byteAt fr 9 < 8 ∧ w = s.bankWrite b l (enables o n) (atOffset o ((fr.drop 11).take n)) (wrPoison (byteAt fr 10) o n 0)) ∧
    (∃ (s : State) (fr : List Byte) (b : Nat) (l : Nat) (o : Nat) (n : Nat) (a : _) (r : _), s.portFree ∧ s.portLine (leAt fr 2 6) n b l ∧ s.portTakes 0x06 fr ∧ s.quiet = true ∧ o = leAt fr 2 6 % 64 ∧ n = byteAt fr 8 + 1 ∧ byteAt fr 8 < 64 ∧ byteAt fr 9 < 8 ∧ byteAt fr 10 < 16 ∧ bits (leAt fr 11 4) 11 5 = 0 ∧ mkAtom (leAt fr 11 4) (s.keyOf (byteAt fr 10)) o n ((fr.drop 15).take (if bits (leAt fr 11 4) 4 3 = 2 then 64 else n)) = some a ∧ r = s.bankAtomic b l a) ∧
    (∃ (s : State) (fr : List Byte) (f : _), s.portTakes 0x0D fr ∧ s.quiet = true ∧ s.phase ≠ 1 ∧ s.stw.last = some f) ∧
    (∃ (s : State) (fr : List Byte), s.portTakes 0x0D fr ∧ s.quiet = true ∧ s.phase ≠ 1 ∧ s.stw.last = none) ∧
    (∃ (s : State) (fr : List Byte) (q : _) (r : _), s.portTakes 0x0E fr ∧ s.quiet = true ∧ s.phase ≠ 1 ∧ s.stw.done = [q] ∧ q.res = some r ∧ (r.data.length = q.pad ∨ q.pad = 0)) ∧
    (∃ (s : State) (fr : List Byte), s.portTakes 0x0E fr ∧ s.quiet = true ∧ s.phase ≠ 1 ∧ s.stw.done = []) ∧
    (∃ (s : State) (fr : List Byte), s.quiet = true ∧ s.portAnswers = true ∧ s.stw.long = none ∧ fr.length < 96 ∧ 4 ≤ fr.length ∧ crc16 (fr.take (fr.length - 2)) ≠ leAt fr (fr.length - 2) 2) ∧
    (∃ (s : State) (c : _) (q : _), s.quiet = true ∧ s.portAnswers = true ∧ s.stw.long = some (c, q) ∧ c < 256 ∧ q < 256) ∧
    (∃ (s : State), s.quiet = true ∧ s.portAnswers = true ∧ s.stw.long = none) :=
  ⟨⟨up,
    frame 1 0x42 [],
    by unfold State.portTakes; decide +kernel,
    by decide +kernel⟩,
   ⟨up,
    frame 2 0x42 (leBytes 6 (pgTBS.base + 0x100)),
    pgTBS,
    0x100,
    by unfold State.portTakes; decide +kernel,
    by unfold State.portFree; decide +kernel,
    by decide +kernel⟩,
   ⟨up,
    frame 2 0x42 (leBytes 6 (pgTBS.base + 0x100)),
    pgTBS,
    0x100,
    by unfold State.portTakes; decide +kernel,
    by unfold State.portFree; decide +kernel,
    by decide +kernel⟩,
   ⟨{ up with stw := { queue := [{ handle := 2, cmd := 2, seq := 5, op := some (.regRead (pgTBS.base + 0x100)), res := none }] } },
    2,
    { handle := 2, cmd := 2, seq := 5, op := some (.regRead (pgTBS.base + 0x100)), res := none },
    pgTBS.base + 0x100,
    pgTBS,
    0x100,
    by decide +kernel⟩,
   ⟨up,
    frame 3 0x42 (leBytes 6 (pgTBS.base + 0x24) ++ leBytes 4 0x89ABCDEF),
    pgTBS,
    by unfold State.portTakes; decide +kernel,
    by unfold State.portFree; decide +kernel,
    by decide +kernel⟩,
   ⟨poke 0x88 0x1234567890ABCDEF up,
    frame 4 0x42 (leBytes 6 0x88 ++ [19, 0]),
    lineB up 0x80,
    lineL up 0x80,
    8,
    20,
    (poke 0x88 0x1234567890ABCDEF up).linePeek (lineB up 0x80) (lineL up 0x80),
    by unfold State.portFree; decide +kernel,
    portLine_of (by decide +kernel) (by decide +kernel),
    by unfold State.portTakes; decide +kernel,
    by decide +kernel⟩,
   ⟨up,
    frame 5 0x42 (leBytes 6 0x88 ++ [19, 0, 0] ++ List.replicate 20 0x5A),
    lineB up 0x80,
    lineL up 0x80,
    8,
    20,
    (up).bankWrite (lineB up 0x80) (lineL up 0x80) (enables (8) (20)) (atOffset (8) (((frame 5 0x42 (leBytes 6 0x88 ++ [19, 0, 0] ++ List.replicate 20 0x5A)).drop 11).take (20))) (wrPoison (byteAt (frame 5 0x42 (leBytes 6 0x88 ++ [19, 0, 0] ++ List.replicate 20 0x5A)) 10) (8) (20) 0),
    by unfold State.portFree; decide +kernel,
    portLine_of (by decide +kernel) (by decide +kernel),
    by unfold State.portTakes; decide +kernel,
    by decide +kernel⟩,
   ⟨poke 0x88 0x1234567890ABCDEF up,
    frame 6 0x42 (leBytes 6 0x88 ++ [19, 0, 0] ++ leBytes 4 0 ++ List.replicate 20 0x5A),
    lineB up 0x80,
    lineL up 0x80,
    8,
    20,
    (mkAtom 0 ((poke 0x88 0x1234567890ABCDEF up).keyOf (byteAt (frame 6 0x42 (leBytes 6 0x88 ++ [19, 0, 0] ++ leBytes 4 0 ++ List.replicate 20 0x5A)) 10)) (8) (20) (((frame 6 0x42 (leBytes 6 0x88 ++ [19, 0, 0] ++ leBytes 4 0 ++ List.replicate 20 0x5A)).drop 15).take (if bits (leAt (frame 6 0x42 (leBytes 6 0x88 ++ [19, 0, 0] ++ leBytes 4 0 ++ List.replicate 20 0x5A)) 11 4) 4 3 = 2 then 64 else (20)))).getD atom0,
    (poke 0x88 0x1234567890ABCDEF up).bankAtomic (lineB up 0x80) (lineL up 0x80) ((mkAtom 0 ((poke 0x88 0x1234567890ABCDEF up).keyOf (byteAt (frame 6 0x42 (leBytes 6 0x88 ++ [19, 0, 0] ++ leBytes 4 0 ++ List.replicate 20 0x5A)) 10)) (8) (20) (((frame 6 0x42 (leBytes 6 0x88 ++ [19, 0, 0] ++ leBytes 4 0 ++ List.replicate 20 0x5A)).drop 15).take (if bits (leAt (frame 6 0x42 (leBytes 6 0x88 ++ [19, 0, 0] ++ leBytes 4 0 ++ List.replicate 20 0x5A)) 11 4) 4 3 = 2 then 64 else (20)))).getD atom0),
    by unfold State.portFree; decide +kernel,
    portLine_of (by decide +kernel) (by decide +kernel),
    by unfold State.portTakes; decide +kernel,
    by decide +kernel⟩,
   ⟨{ up with stw := { last := some [1,2] } },
    frame 0x0D 0x42 [],
    [1,2],
    by unfold State.portTakes; decide +kernel,
    by decide +kernel⟩,
   ⟨up,
    frame 0x0D 0x42 [],
    by unfold State.portTakes; decide +kernel,
    by decide +kernel⟩,
   ⟨{ up with stw := { done := [{ handle := 2, cmd := 2, seq := 5, op := none, res := some ⟨0, 0, 0, [1,2,3,4]⟩ }] } },
    frame 0x0E 0x42 [],
    { handle := 2, cmd := 2, seq := 5, op := none, res := some ⟨0, 0, 0, [1,2,3,4]⟩ },
    ⟨0, 0, 0, [1,2,3,4]⟩,
    by unfold State.portTakes; decide +kernel,
    by decide +kernel⟩,
   ⟨up,
    frame 0x0E 0x42 [],
    by unfold State.portTakes; decide +kernel,
    by decide +kernel⟩,
   ⟨up,
    [1, 2, 3, 4],
    by decide +kernel⟩,
   ⟨{ up with stw := { long := some (2, 7) } },
    2,
    7,
    by decide +kernel⟩,
   ⟨up,
    by decide +kernel⟩⟩

/-- States and operands that meet what `Obligations.ContextsRecordsAndFaults` assumes, clause by clause. -/
theorem contexts_records_and_faults_meets :
    (∃ (s : State) (c : Fin 16), s.quiet = true ∧ s.twinState = twOFF ∧ s.writes .steward pgCTX 0x100 (wordOf (c.val + 0x10)) = true ∧ s.ctxState c ≠ 1) ∧
    (∃ (s : State) (c : Fin 16), s.quiet = true ∧ s.twinState = twOFF ∧ s.writes .steward pgCTX 0x100 (wordOf (c.val + 0x10)) = true ∧ s.ctxState c = 1) ∧
    (∃ (s : State) (c : Fin 16), s.quiet = true ∧ s.twinState = twOFF ∧ s.writes .steward pgCTX 0x100 (wordOf (c.val + 0x20)) = true ∧ s.ctxState c = 2) ∧
    (∃ (s : State) (c : Fin 16), s.quiet = true ∧ s.twinState = twOFF ∧ s.writes .steward pgCTX 0x100 (wordOf (c.val + 0x20)) = true ∧ (s.ctxState c = 0 ∨ s.ctxState c = 1)) ∧
    (∃ (s : State) (c : Fin 16) (assign : _), s.quiet = true ∧ s.twinState = twOFF ∧ find s.clearing c = some assign ∧ s.ctxQuiet c = true) ∧
    (∃ (s : State) (r : LogRec) (rest : List LogRec) (head : Nat) (dpa : Nat) (b : Nat) (l : Nat), s.recordHome dpa b l ∧ s.quiet = true ∧ s.flag pgSTW F.STW_ELOG_CTRL_EN = true ∧ s.elog.writing = false ∧ s.elog.buf = r :: rest ∧ head = s.get pgSTW F.STW_ELOG_HEAD ∧ (head + 2 ^ 32 - s.get pgSTW F.STW_ELOG_TAIL) % 2 ^ 32 ≠ 2 ^ s.get pgSTW F.STW_ELOG_CTRL_LOG2 ∧ dpa = s.get pgSTW F.STW_ELOG_BASE_LO_A * 2 ^ 5 + s.get pgSTW F.STW_ELOG_BASE_HI_A * 2 ^ 32 + 32 * (head % 2 ^ s.get pgSTW F.STW_ELOG_CTRL_LOG2)) ∧
    (∃ (s : State) (c : Fin 16) (r : FaultRec) (rest : List FaultRec) (head : Nat) (dpa : Nat) (b : Nat) (l : Nat), s.recordHome dpa b l ∧ s.quiet = true ∧ s.flag (tfqPage c) F.TFQ_FQ_CTRL_EN = true ∧ (s.faultBuf c).writing = false ∧ (s.faultBuf c).buf = r :: rest ∧ head = s.get (tfqPage c) F.TFQ_FQ_HEAD ∧ r.bytes.length = 64 ∧ (head + 2 ^ 32 - s.get (tfqPage c) F.TFQ_FQ_TAIL) % 2 ^ 32 ≠ 2 ^ s.get (tfqPage c) F.TFQ_FQ_CTRL_LOG2 ∧ dpa = (s.faultBuf c).dpaBase + 64 * (head % 2 ^ s.get (tfqPage c) F.TFQ_FQ_CTRL_LOG2) ∧ dpa % 64 = 0) ∧
    (∃ (s : State) (w : Word) (d : Nat → Nat), (∀ a, d a = (a + 2 ^ 32 - s.get pgSTW F.STW_ELOG_TAIL) % 2 ^ 32) ∧ s.quiet = true ∧ s.writes .steward pgSTW 0x118 w = true ∧ d w.toNat ≤ d (s.get pgSTW F.STW_ELOG_HEAD)) ∧
    (∃ (s : State) (w : Word) (d : Nat → Nat), (∀ a, d a = (a + 2 ^ 32 - s.get pgSTW F.STW_ELOG_TAIL) % 2 ^ 32) ∧ s.quiet = true ∧ s.writes .steward pgSTW 0x118 w = true ∧ d (s.get pgSTW F.STW_ELOG_HEAD) < d w.toNat) ∧
    (∃ (s : State) (port : Port) (c : Fin 16) (w : Word) (d : Nat → Nat), (∀ a, d a = (a + 2 ^ 32 - s.get (tfqPage c) F.TFQ_FQ_TAIL) % 2 ^ 32) ∧ s.quiet = true ∧ s.writes port (tfqPage c) 0x110 w = true ∧ d w.toNat ≤ d (s.get (tfqPage c) F.TFQ_FQ_HEAD)) ∧
    (∃ (s : State) (port : Port) (c : Fin 16) (w : Word) (d : Nat → Nat), (∀ a, d a = (a + 2 ^ 32 - s.get (tfqPage c) F.TFQ_FQ_TAIL) % 2 ^ 32) ∧ s.quiet = true ∧ s.writes port (tfqPage c) 0x110 w = true ∧ d (s.get (tfqPage c) F.TFQ_FQ_HEAD) < d w.toNat) ∧
    (∃ (s : State) (key : BitVec 8), s.quiet = true ∧ s.writes .steward pgDBG 0x100 (wput (wput (s.rdSh pgDBG 0x100) 24 8 key.toNat) 0 1 1) = true ∧ key = 0xD6#8) ∧
    (∃ (s : State) (key : BitVec 8), s.quiet = true ∧ s.writes .steward pgDBG 0x100 (wput (wput (s.rdSh pgDBG 0x100) 24 8 key.toNat) 0 1 1) = true ∧ key ≠ 0xD6#8) ∧
    (∃ (s : State) (port : Port) (c : Fin 16) (tva : Nat) (dpa : _), s.peekX 0 c tva .wr none = some (.ok dpa) ∧ s.quiet = true ∧ s.writes port (tfqPage c) 0x108 (s.rd (tfqPage c) 0x108 ||| 1) = true ∧ s.flag (tfqPage c) F.TFQ_FQ_CTRL_EN = false ∧ tva = s.get (tfqPage c) F.TFQ_FQ_BASE_LO_TVA * 2 ^ 10 + s.get (tfqPage c) F.TFQ_FQ_BASE_HI_TVA * 2 ^ 32) ∧
    (∃ (s : State) (port : Port) (c : Fin 16) (tva : Nat) (f : _), s.peekX 0 c tva .wr none = some (.error f) ∧ s.quiet = true ∧ s.writes port (tfqPage c) 0x108 (s.rd (tfqPage c) 0x108 ||| 1) = true ∧ s.flag (tfqPage c) F.TFQ_FQ_CTRL_EN = false ∧ tva = s.get (tfqPage c) F.TFQ_FQ_BASE_LO_TVA * 2 ^ 10 + s.get (tfqPage c) F.TFQ_FQ_BASE_HI_TVA * 2 ^ 32) ∧
    (∃ (s : State) (x : ParityAt), (x ∈ [.hall, .twin, .contextTable, .portQueue] ∨ (∃ g, x ∈ [.spareMap g, .errandState g, .scoreboard g, .stepEngine g]) ∨ (∃ a p off, x = .field a ∧ regAt a.toNat = some (p, off) ∧ guarded p off = true)) ∧ s.quiet = true ∧ s.isFatal = false) ∧
    (∃ (s : State), s.quiet = true) ∧
    (∃ (s : State), s.quiet = true ∧ s.hall.waiters = [] ∧ s.hall.held = []) ∧
    (∃ (s : State) (r : Fin 64), s.quiet = true ∧ (s.ring r).fetched ≠ [] ∧ (s.ring r).list = none) ∧
    (∃ (s : State), s.quiet = true) ∧
    (∃ (s : State) (u : UnitAt), (∀ k, u = .central k → (centralPage k).isSome = true) ∧ s.quiet = true ∧ s.isFatal = false) :=
  ⟨⟨up.set pgCTX (F.CTX_CTX_STATE_STATE.at 5) 2,
    5,
    by decide +kernel⟩,
   ⟨up.set pgCTX (F.CTX_CTX_STATE_STATE.at 5) 1,
    5,
    by decide +kernel⟩,
   ⟨up.set pgCTX (F.CTX_CTX_STATE_STATE.at 5) 2,
    5,
    by decide +kernel⟩,
   ⟨up,
    5,
    by decide +kernel⟩,
   ⟨{ up.set pgCTX (F.CTX_CTX_STATE_STATE.at 5) 1 with clearing := [(5, true)] },
    5,
    true,
    by decide +kernel⟩,
   ⟨{ ((up.set pgSTW F.STW_ELOG_CTRL_EN 1).set pgSTW F.STW_ELOG_CTRL_LOG2 5).set pgSTW F.STW_ELOG_BASE_LO_A 0x100 with elog := { buf := [rec0] } },
    rec0,
    [],
    0,
    0x2000,
    lineB up 0x2000,
    lineL up 0x2000,
    recordHome_of (by decide +kernel) (by decide +kernel),
    by decide +kernel⟩,
   ⟨{ ((up.set (tfqPage 5) F.TFQ_FQ_CTRL_EN 1).set (tfqPage 5) F.TFQ_FQ_CTRL_LOG2 5).set (tfqPage 5) F.TFQ_FQ_CTRL_INT_EN 1 with faultBufs := [(5, { buf := [⟨List.replicate 64 0x5A⟩], dpaBase := 0x2000 })] },
    5,
    ⟨List.replicate 64 0x5A⟩,
    [],
    0,
    0x2000,
    lineB up 0x2000,
    lineL up 0x2000,
    recordHome_of (by decide +kernel) (by decide +kernel),
    by decide +kernel⟩,
   ⟨up.wr pgSTW 0x114 7,
    5,
    fun a => (a + 2 ^ 32 - (up.wr pgSTW 0x114 7).get pgSTW F.STW_ELOG_TAIL) % 2 ^ 32,
    fun _ => rfl,
    by decide +kernel⟩,
   ⟨up.wr pgSTW 0x114 7,
    8,
    fun a => (a + 2 ^ 32 - (up.wr pgSTW 0x114 7).get pgSTW F.STW_ELOG_TAIL) % 2 ^ 32,
    fun _ => rfl,
    by decide +kernel⟩,
   ⟨up.set (tfqPage 5) F.TFQ_FQ_HEAD 7 |>.set pgCTX (F.CTX_CTX_STATE_STATE.at 5) 2,
    .steward,
    5,
    5,
    fun a => (a + 2 ^ 32 - (up.set (tfqPage 5) F.TFQ_FQ_HEAD 7 |>.set pgCTX (F.CTX_CTX_STATE_STATE.at 5) 2).get (tfqPage 5) F.TFQ_FQ_TAIL) % 2 ^ 32,
    fun _ => rfl,
    by decide +kernel⟩,
   ⟨up.set (tfqPage 5) F.TFQ_FQ_HEAD 7,
    .steward,
    5,
    8,
    fun a => (a + 2 ^ 32 - (up.set (tfqPage 5) F.TFQ_FQ_HEAD 7).get (tfqPage 5) F.TFQ_FQ_TAIL) % 2 ^ 32,
    fun _ => rfl,
    by decide +kernel⟩,
   ⟨up.set pgCTX (F.CTX_CTX_STATE_STATE.at 5) 2,
    0xD6,
    by decide +kernel⟩,
   ⟨up.set pgCTX (F.CTX_CTX_STATE_STATE.at 5) 2,
    0xD7,
    by decide +kernel⟩,
   ⟨mapped5 true,
    .steward,
    5,
    0,
    0,
    eq_ofO (by decide +kernel),
    by decide +kernel⟩,
   ⟨mapped5 false,
    .steward,
    5,
    0,
    ⟨4, 3⟩,
    eq_ofO (by decide +kernel),
    by decide +kernel⟩,
   ⟨up,
    .hall,
    .inl (by decide +kernel),
    by decide +kernel⟩,
   ⟨up.set pgCTX (F.CTX_CTX_STATE_STATE.at 5) 2,
    by decide +kernel⟩,
   ⟨tally3 9 up,
    by decide +kernel⟩,
   ⟨ringed (cmd 6 []) up,
    1,
    by decide +kernel⟩,
   ⟨up.set pgCTX (F.CTX_CTX_STATE_STATE.at 5) 2,
    by decide +kernel⟩,
   ⟨up.set pgCTX (F.CTX_CTX_STATE_STATE.at 5) 2,
    .central 3,
    by intro k e; cases e; decide +kernel,
    by decide +kernel⟩⟩

/-- States and operands that meet what `Obligations.TapInstructionsNeedTheUnlock` assumes, clause by clause. -/
theorem tap_instructions_need_the_unlock_meets :
    (∃ (s : State), s.quiet = true) ∧
    (∃ (s : State), s.quiet = true) ∧
    (∃ (s : State) (code : BitVec 8), s.quiet = true ∧ (code = 0xFF#8 ∨ tapCode code.toNat = false)) ∧
    (∃ (s : State) (code : BitVec 8), s.quiet = true ∧ code ≠ 0xFF#8 ∧ tapCode code.toNat = true) ∧
    (∃ (s : State), s.quiet = true) ∧
    (∃ (s : State), s.quiet = true ∧ s.unlocked = false) ∧
    (∃ (s : State), s.quiet = true ∧ s.unlocked = true ∧ s.flag pgDBG F.DBG_DBG_CTRL_SCAN_EN = true) ∧
    (∃ (s : State), s.quiet = true ∧ s.unlocked = true ∧ s.flag pgDBG F.DBG_DBG_CTRL_SCAN_EN = true) ∧
    (∃ (s : State), s.quiet = true ∧ s.unlocked = true ∧ s.flag pgDBG F.DBG_DBG_CTRL_SCAN_EN = true) ∧
    (∃ (s : State) (pins : Nat) (scan : Nat) (c : _), s.quiet = true ∧ s.unlocked = true ∧ s.flag pgDBG F.DBG_DBG_CTRL_SCAN_EN = false ∧ c ∈ [Instr.tapExtest pins scan, .tapClamp, .tapHighz]) ∧
    (∃ (s : State), s.quiet = true ∧ s.unlocked = true ∧ s.tap.busy = none) ∧
    (∃ (s : State), s.quiet = true ∧ s.unlocked = true ∧ s.tap.busy ≠ none) ∧
    (∃ (s : State) (a : Nat) (line : Bool) (p : _) (off : _), s.quiet = true ∧ s.tap.busy = some (a, line) ∧ line = false ∧ region a = .page p off ∧ a % 4 = 0 ∧ s.regHeld .tap p off none = false) ∧
    (∃ (s : State) (a : Nat) (line : Bool) (b : _) (l : _), s.target a = .ok (.sram b l) ∧ s.quiet = true ∧ s.tap.busy = some (a, line) ∧ line = true ∧ a % 64 = 0 ∧ region a = .sram) ∧
    (∃ (s : State) (a : Nat) (line : Bool), s.quiet = true ∧ s.tap.busy = some (a, line) ∧ region a = .reserved) ∧
    (∃ (s : State), s.quiet = true ∧ s.unlocked = true) ∧
    (∃ (s : State), s.quiet = true ∧ s.unlocked = true) :=
  ⟨⟨up,
    by decide +kernel⟩,
   ⟨up,
    by decide +kernel⟩,
   ⟨up,
    0xFF,
    by decide +kernel⟩,
   ⟨up,
    0x10,
    by decide +kernel⟩,
   ⟨up,
    by decide +kernel⟩,
   ⟨up,
    by decide +kernel⟩,
   ⟨(unl up).set pgDBG F.DBG_DBG_CTRL_SCAN_EN 1,
    by decide +kernel⟩,
   ⟨(unl up).set pgDBG F.DBG_DBG_CTRL_SCAN_EN 1,
    by decide +kernel⟩,
   ⟨(unl up).set pgDBG F.DBG_DBG_CTRL_SCAN_EN 1,
    by decide +kernel⟩,
   ⟨unl up,
    0x1234,
    0x55,
    Instr.tapExtest (0x1234) (0x55),
    by decide +kernel⟩,
   ⟨unl up,
    by decide +kernel⟩,
   ⟨{ unl up with tap := { busy := some (0x80, true) } },
    by decide +kernel⟩,
   ⟨{ unl up with tap := { busy := some (pgTBS.base + 0x100, false) } },
    pgTBS.base + 0x100,
    false,
    pgTBS,
    0x100,
    by decide +kernel⟩,
   ⟨{ unl (poke 0x80 0x1234 up) with tap := { busy := some (0x80, true) } },
    0x80,
    true,
    lineB up 0x80,
    lineL up 0x80,
    eq_ofE (by decide +kernel),
    by decide +kernel⟩,
   ⟨{ unl up with tap := { busy := some (0x7000000, true) } },
    0x7000000,
    true,
    by decide +kernel⟩,
   ⟨unl up,
    by decide +kernel⟩,
   ⟨unl up,
    by decide +kernel⟩⟩

end Sys2Proof.Tests
end

section
/-! PROOF. A register request of a module: what a tenant page shows does not depend on what taking the request and
noting it change, and an answer leaves the tenant pages alone (R11, R118, R246, R260). -/

namespace Sys2Proof.Machine

/-! ### Where register pages lie -/

/-- The DPA of the one register that capturing a trace event writes (R651). -/
def trcPtr : Nat := pgDBG.base + F.DBG_TRC_WPTR.off

theorem trcPtr_eq : trcPtr = 0x20802130 := rfl

theorem tenant_kind {k : PageKind} (h : k.tenant = true) :
    k = .TDB ∨ k = .TFQ ∨ k = .TTV ∨ k = .TQC ∨ k = .TCT ∨ k = .TMK ∨ k = .TEV := by
  cases k <;> simp_all [PageKind.tenant]

theorem tenantPage_tenant {c n : Nat} {p : Page} (h : tenantPage c n = some p) : p.kind.tenant = true := by
  obtain ⟨k, hk, rfl⟩ := Option.map_eq_some_iff.1 h
  have hall : ∀ k ∈ tenantKinds, k.tenant = true := by decide
  exact hall k (List.mem_of_getElem? hk)

theorem tenant_base {p : Page} (h : p.kind.tenant = true) : 0x21000000 ≤ p.base := by
  obtain ⟨k, i⟩ := p
  obtain rfl | rfl | rfl | rfl | rfl | rfl | rfl := tenant_kind h <;> (simp only [Page.base]; omega)

theorem tenant_above {p : Page} (h : p.kind.tenant = true) : trcPtr < p.base := by
  have := tenant_base h
  rw [trcPtr_eq]; omega

theorem modPage_base (m : Nat) : (modPage m).base = 0x20000000 + m / 2 * 0x100000 + (4 + m % 2) * 0x1000 := rfl

/-- No register of a MOD page is the trace's write pointer. -/
theorem modPage_ne (m : Nat) {off : Nat} (h : off < 0x1000) : (modPage m).base + off ≠ trcPtr := by
  rw [modPage_base, trcPtr_eq]; omega

theorem engPage_ne (e : Nat) {off : Nat} (h : off < 0x1000) : (engPage e).base + off ≠ trcPtr := by
  have hb : (engPage e).base = 0x20000000 + e / 2 * 0x100000 + (7 + e % 2) * 0x1000 := rfl
  rw [hb, trcPtr_eq]; omega

theorem fmnPage_ne (g : Nat) {off : Nat} (h : off < 0x1000) : (fmnPage g).base + off ≠ trcPtr := by
  have hb : (fmnPage g).base = 0x20000000 + g * 0x100000 + 10 * 0x1000 := rfl
  rw [hb, trcPtr_eq]; omega

theorem thl_above : trcPtr < pgTHL.base := by decide
theorem evm_above : trcPtr < pgEVM.base := by decide
theorem twn_above : trcPtr < pgTWN.base := by decide

/-! ### States that show a tenant page the same -/

/-- `t` differs from `s` only in the trace and its write pointer, and in links whose messages to send are the same. -/
structure Alike (s t : State) : Prop where
  frame : t = { s with regs := t.regs, links := t.links, trace := t.trace }
  tx : ∀ m, (t.link m).tx = (s.link m).tx
  rd : ∀ p off, p.base + off ≠ trcPtr → t.rd p off = s.rd p off

theorem Alike.refl (s : State) : Alike s s := ⟨rfl, fun _ => rfl, fun _ _ _ => rfl⟩

theorem Alike.trans {s t u : State} (h : Alike s t) (k : Alike t u) : Alike s u where
  frame := by
    have hk := k.frame
    rw [h.frame] at hk
    exact hk
  tx m := (k.tx m).trans (h.tx m)
  rd p off hp := (k.rd p off hp).trans (h.rd p off hp)

@[simp] theorem State.link_setLink_same (s : State) (m : Nat) (l : Link) : (s.setLink m l).link m = l := by
  simp [State.link, State.setLink]

theorem State.link_setLink (s : State) (m k : Nat) (l : Link) :
    (s.setLink m l).link k = if k = m then l else s.link k := by
  unfold State.link State.setLink
  dsimp only
  rw [find_put]
  split <;> rfl

theorem alike_setLink (s : State) (m : Nat) (l : Link) (h : l.tx = (s.link m).tx) : Alike s (s.setLink m l) where
  frame := rfl
  tx k := by
    rw [State.link_setLink]
    split
    · subst_vars; exact h
    · rfl
  rd _ _ _ := rfl

theorem alike_traceEv (s : State) (src inst ctx payload : Nat) : Alike s (s.traceEv src inst ctx payload) where
  frame := by
    unfold State.traceEv
    split <;> rfl
  tx m := congrArg Link.tx ((noted_traceEv s src inst ctx payload).same (·.link m) fun _ _ _ => rfl)
  rd p off h := by
    unfold State.traceEv
    split
    · exact State.rd_set_ne _ _ _ _ _ _ h
    · rfl

theorem alike_giveBack (s : State) (m : Nat) (msg : Msg) : Alike s (s.giveBack m msg) := by
  refine alike_setLink s m _ ?_
  dsimp only
  split <;> split <;> rfl

/-! ### What alike states show -/

section
variable {s t : State} (h : Alike s t)
include h

theorem Alike.get {p : Page} {f : Fld} (hp : p.base + f.off ≠ trcPtr) : t.get p f = s.get p f := by
  unfold State.get; rw [h.rd _ _ hp]

theorem Alike.rd_above {p : Page} (hp : trcPtr < p.base) (off : Nat) : t.rd p off = s.rd p off := h.rd _ _ (by omega)

theorem Alike.get_above {p : Page} (hp : trcPtr < p.base) (f : Fld) : t.get p f = s.get p f := h.get (by omega)

theorem Alike.hall : t.hall = s.hall := by rw [h.frame]
theorem Alike.event : t.event = s.event := by rw [h.frame]
theorem Alike.queues : t.queues = s.queues := by rw [h.frame]
theorem Alike.rings : t.rings = s.rings := by rw [h.frame]
theorem Alike.twin : t.twin = s.twin := by rw [h.frame]
theorem Alike.straps : t.straps = s.straps := by rw [h.frame]
theorem Alike.fuses : t.fuses = s.fuses := by rw [h.frame]
theorem Alike.heldRegs : t.heldRegs = s.heldRegs := by rw [h.frame]
theorem Alike.portRegs : t.portRegs = s.portRegs := by rw [h.frame]
theorem Alike.shadow : t.shadow = s.shadow := by rw [h.frame]
theorem Alike.faultBuf (c : Nat) : t.faultBuf c = s.faultBuf c := by rw [h.frame]; rfl

theorem Alike.portRd (port : Port) (p : Page) (off : Nat) : t.portRd port p off = s.portRd port p off := by
  unfold State.portRd
  rw [h.portRegs, State.resetReg_congr s t h.straps h.fuses]

theorem Alike.rdSh (p : Page) (off : Nat) : t.rdSh p off = s.rdSh p off := by
  unfold State.rdSh
  rw [h.shadow, State.resetReg_congr s t h.straps h.fuses]

/-! The pages of modules, engines and foremen. -/

theorem Alike.get_mod (m : Nat) {f : Fld} (hf : f.off < 0x1000) : t.get (modPage m) f = s.get (modPage m) f :=
  h.get (modPage_ne m hf)

theorem Alike.isTwin (m : Nat) : t.isTwin m = s.isTwin m := by
  unfold State.isTwin State.flag
  rw [h.get_mod m (by decide)]

theorem Alike.vcMap (m k : Nat) : t.vcMap m k = s.vcMap m k := by
  unfold State.vcMap
  rw [h.get_mod m (by decide)]

theorem Alike.authorised (m c : Nat) : t.authorised m c = s.authorised m c := by
  unfold State.authorised
  rw [h.get_mod m (by decide)]

theorem Alike.modHeld (m : Nat) : t.modHeld m = s.modHeld m := by
  unfold State.modHeld State.running State.run
  rw [h.get_mod m (by decide), h.isTwin]

theorem Alike.get_fmn (g k : Nat) (f : Fld) (hf : f.off < 0x400 ∧ f.stride ≤ 0x10) :
    t.get (fmnPage g) (f.at (k % 8)) = s.get (fmnPage g) (f.at (k % 8)) := by
  refine h.get (fmnPage_ne g ?_)
  have : f.stride * (k % 8) ≤ 0x10 * 7 := Nat.mul_le_mul hf.2 (by omega)
  simp only [Fld.at]; omega

theorem Alike.get_eng (q k : Nat) (f : Fld) (hf : f.off < 0x400 ∧ f.stride ≤ 0x10) :
    t.get (qPage q) (f.at (k % 8)) = s.get (qPage q) (f.at (k % 8)) := by
  refine h.get (engPage_ne _ ?_)
  have : f.stride * (k % 8) ≤ 0x10 * 7 := Nat.mul_le_mul hf.2 (by omega)
  simp only [Fld.at]; omega

/-! Tallies (R454, R455, R501). -/

theorem Alike.tallyCount (c : Nat) : t.tallyCount c = s.tallyCount c := by
  unfold State.tallyCount; rw [h.get_above thl_above]

theorem Alike.tallyBase (c : Nat) : t.tallyBase c = s.tallyBase c := by
  unfold State.tallyBase; rw [h.get_above thl_above]

theorem Alike.physOf (c v : Nat) : t.physOf c v = s.physOf c v := by
  simp only [State.physOf, State.shareOf, State.flag, h.tallyCount, h.tallyBase, h.get_above thl_above]

theorem Alike.ownerOf (p : Nat) : t.ownerOf p = s.ownerOf p := by
  simp only [State.ownerOf, h.tallyCount, h.tallyBase]

theorem Alike.linksOf (c : Nat) : t.linksOf c = s.linksOf c := by
  have hp : trcPtr < (ttvPage c).base := tenant_above rfl
  simp only [State.linksOf, State.flag, h.get_above hp, h.physOf]
  rfl

theorem Alike.partner (p : Nat) : t.partner p = s.partner p := by
  unfold State.partner
  rw [funext h.linksOf]

theorem Alike.tally (p : Nat) : t.tally p = s.tally p := by
  unfold State.tally; rw [h.hall]

theorem Alike.tallyWord (p w : Nat) : t.tallyWord p w = s.tallyWord p w := by
  simp only [State.tallyWord, State.flag, h.tally, h.hall, h.partner, h.ownerOf, h.get_above thl_above]

theorem Alike.ttvSel (port : Port) (c : Nat) : t.ttvSel port c = s.ttvSel port c := by
  unfold State.ttvSel; rw [h.physOf, h.portRd]

theorem Alike.ttvRead (port : Port) (c off : Nat) : t.ttvRead port c off = s.ttvRead port c off := by
  simp only [State.ttvRead, h.tallyCount, h.get_above thl_above, h.portRd, h.ttvSel, h.tallyWord, h.tally]

/-! Stream queues and rings (Table 9-7, Table 10-8). -/

theorem Alike.queue (q : Nat) : t.queue q = s.queue q := by
  unfold State.queue; rw [h.queues]

theorem Alike.ring (r : Nat) : t.ring r = s.ring r := by
  unfold State.ring; rw [h.rings]

theorem Alike.qCtx (q : Nat) : t.qCtx q = s.qCtx q := h.get_eng q q _ (by decide)

theorem Alike.qLines (q : Nat) : t.qLines q = s.qLines q := by
  simp only [State.qLines, h.tx]

theorem Alike.queueState (q : Nat) : t.queueState q = s.queueState q := by
  have hen := h.get_eng q q F.ENG_QUEUE_CFG_EN (by decide)
  have hrun : t.get (qPage q) F.PAGE_STATE_RUN = s.get (qPage q) F.PAGE_STATE_RUN := h.get (engPage_ne _ (by decide))
  have hst (m : Nat) := h.get_mod m (f := F.MOD_STALL_STATE_STALLED) (by decide)
  simp only [State.queueState, State.halted, State.run, State.flag, h.queue, h.tx, hen, hrun, hst]
  rfl

theorem Alike.queueStateWord (q : Nat) : t.queueStateWord q = s.queueStateWord q := by
  simp only [State.queueStateWord, h.queue, h.queueState, h.qLines]

theorem Alike.tqcRead (port : Port) (c off : Nat) : t.tqcRead port c off = s.tqcRead port c off := by
  simp only [State.tqcRead, h.portRd, h.qCtx, h.queueStateWord, h.queue]

theorem Alike.ringHome (r : Nat) : t.ringHome r = s.ringHome r := by
  have hen (k : Nat) := h.get_fmn (k / 8) k F.FMN_RING_SLOT_EN (by decide)
  have hr (k : Nat) := h.get_fmn (k / 8) k F.FMN_RING_SLOT_RING (by decide)
  simp only [State.ringHome, State.slotsOf, State.flag, hen, hr]

theorem Alike.tail (r : Nat) : t.tail r = s.tail r := h.get_above (tenant_above rfl) _

theorem Alike.ringState (r : Nat) : t.ringState r = s.ringState r := by
  simp only [State.ringState, h.ring, h.ringHome, h.tail]

/-! Event mode (R585, Table 13-13). -/

theorem Alike.evCtx : t.evCtx = s.evCtx := h.get_above evm_above _

theorem Alike.evState : t.evState = s.evState := by
  have hp : trcPtr < s.evPage.base := tenant_above rfl
  have he : t.evPage = s.evPage := by unfold State.evPage; rw [h.evCtx]
  simp only [State.evState, State.evOn, State.halted, State.run, State.flag, he, h.event, h.get_above evm_above, h.get_above hp]
  rfl

theorem Alike.tblRead (port : Port) (c k : Nat) : t.tblRead port c k = s.tblRead port c k := by
  simp only [State.tblRead, State.tblSel, State.liveEnt, State.shadowEnt, h.portRd, h.event]
  rfl

/-! A read of a tenant page. -/

section
variable {p : Page} (hp : p.kind.tenant = true)
include hp

theorem Alike.readFields (off : Nat) : t.readFields p off = s.readFields p off := by
  have ha := tenant_above hp
  simp only [State.readFields, State.flag, h.rd_above ha, h.get_above ha, h.rdSh]
  rfl

theorem Alike.readCommon (off : Nat) : t.readCommon p off = s.readCommon p off := by
  simp only [State.readCommon, State.alertReg, h.rd_above (tenant_above hp)]

omit hp in
theorem Alike.tevRead (port : Port) (c off : Nat) : t.tevRead port c off = s.tevRead port c off := by
  have hp : (tevPage c).kind.tenant = true := rfl
  simp only [State.tevRead, h.evCtx, h.portRd, h.tblRead, h.evState, h.rd_above (tenant_above hp), h.readFields hp]

theorem Alike.viewReg (port : Port) (off : Nat) : t.viewReg port p off = s.viewReg port p off := by
  have hf := h.readFields hp off
  have hr := h.rd_above (tenant_above hp) off
  obtain ⟨k, i⟩ := p
  obtain rfl | rfl | rfl | rfl | rfl | rfl | rfl := tenant_kind hp <;>
    simp only [State.viewReg, hf, hr, h.ringState, h.faultBuf, h.ttvRead, h.tqcRead, h.tevRead]

/-- A tenant register reads the same in alike states. -/
theorem Alike.readReg_fst (port : Port) (off : Nat) : (t.readReg port p off).1 = (s.readReg port p off).1 := by
  unfold State.readReg
  rw [h.readCommon hp, h.evCtx, h.viewReg hp, h.rd_above (tenant_above hp), h.portRd]
  split
  · rfl
  · split
    · rfl
    · cases wideHalf p.kind off with
      | none =>
        dsimp only
        split
        · rfl
        · split <;> rfl
      | some lo => cases lo <;> rfl

end
end

/-! ### Whether a request is refused or held -/

section
variable {s t : State} (h : Alike s t)
include h

theorem Alike.assigned {c : Nat} (hc : c < 16) : t.assigned c = s.assigned c := by
  have hne : pgCTX.base + (F.CTX_CTX_STATE_STATE.at c).off ≠ trcPtr := by
    have hb : pgCTX.base + (F.CTX_CTX_STATE_STATE.at c).off = 0x20801140 + 4 * c := by
      have hp : pgCTX.base = 0x20801000 := rfl
      simp only [hp, Fld.at, F.CTX_CTX_STATE_STATE]; omega
    rw [hb, trcPtr_eq]; omega
  unfold State.assigned State.ctxState
  rw [h.get hne]

theorem Alike.twinState : t.twinState = s.twinState := h.get_above twn_above _

theorem Alike.reqCheck (m : Nat) (hd : BitVec 128) : t.reqCheck m hd = s.reqCheck m hd := by
  have hc : hCtx hd < 16 := Nat.mod_lt _ (by decide)
  simp only [State.reqCheck, h.isTwin, h.vcMap, h.authorised, h.assigned hc, h.twinState]

/-- A tenant page holds a module's access in both or in neither, but for the enable of a fault queue (R101). -/
theorem Alike.regHeld {p : Page} (hp : p.kind.tenant = true) (m : Fin 16) {off : Nat} {data : Option Word}
    (hfq : data = none ∨ off ≠ 0x108) : t.regHeld (.module m) p off data = s.regHeld (.module m) p off data := by
  have hph (x : State) : x.phaseHolds p = false := by
    obtain hk | hk | hk | hk | hk | hk | hk := tenant_kind hp <;> simp only [State.phaseHolds, hk]
  have hport : (Port.module m == .steward) = false := rfl
  have hrun : t.run p = s.run p := h.get_above (tenant_above hp) _
  have hen : (off == 0x108 && data.any (·.getLsbD 0)) = false := by
    rcases hfq with rfl | ho
    · simp
    · simp [ho]
  simp only [State.regHeld, hph, hport, hrun, Bool.and_assoc, hen, h.twinState, h.twin, h.heldRegs,
    State.mirroredReg, h.straps, Bool.and_false, Bool.false_and]

end

/-! ### What serving a register request may change -/

/-- `t` differs from `s` in registers, links, the trace, the error log and the words read last, and in nothing else. -/
def Contained (s t : State) : Prop :=
  t = { s with regs := t.regs, shadow := t.shadow, portRegs := t.portRegs, links := t.links, trace := t.trace, elog := t.elog
               readRsp := t.readRsp }

theorem Contained.trans {s t u : State} (h : Contained s t) (k : Contained t u) : Contained s u := by
  unfold Contained at *
  rw [h] at k
  exact k

theorem Noted.contained {s t : State} (h : Noted s t) : Contained s t := by
  unfold Contained
  rw [h]

theorem Alike.contained {s t : State} (h : Alike s t) : Contained s t := by
  unfold Contained
  rw [h.frame]

section
variable {s t : State} (h : Contained s t)
include h

theorem Contained.sameMem : SameMem s t := by rw [h]; exact ⟨rfl, rfl, rfl, rfl⟩
theorem Contained.hall : t.hall = s.hall := by rw [h]

theorem Contained.finish (hq : s.quiet = true) : t.finish = t := by
  refine t.finish_quiet (Eq.trans ?_ hq)
  rw [h]; rfl

end

/-- Module m's request is being served and not yet answered: nothing is added to what m waits to send, and m answers on
the VC on which it would have answered. -/
structure Serving (m : Nat) (s t : State) : Prop where
  contained : Contained s t
  tx : (t.link m).tx = (s.link m).tx
  vcMap : ∀ k, t.vcMap m k = s.vcMap m k

theorem Alike.serving {s t : State} (h : Alike s t) (m : Nat) : Serving m s t := ⟨h.contained, h.tx m, h.vcMap m⟩

theorem Serving.trans {m : Nat} {s t u : State} (h : Serving m s t) (k : Serving m t u) : Serving m s u :=
  ⟨h.contained.trans k.contained, k.tx.trans h.tx, fun i => (k.vcMap i).trans (h.vcMap i)⟩

theorem Serving.rspMsg {m : Nat} {s t : State} (h : Serving m s t) (hd : BitVec 128) (st detail poison xf : Nat)
    (data : List Byte) : t.rspMsg m hd st detail poison xf data = s.rspMsg m hd st detail poison xf data := by
  unfold State.rspMsg; rw [h.vcMap]

/-! ### Registers that an operation keeps -/

/-- The registers whose DPA satisfies K read the same. -/
def Keeps (K : Nat → Prop) (s t : State) : Prop := ∀ p off, K (p.base + off) → t.rd p off = s.rd p off

/-- The DPAs of the tenant pages, and those below them. -/
def tenantDpa (a : Nat) : Prop := 0x21000000 ≤ a
def lowDpa (a : Nat) : Prop := a < 0x21000000

theorem Keeps.refl (K : Nat → Prop) (s : State) : Keeps K s s := fun _ _ _ => rfl
theorem Keeps.trans {K : Nat → Prop} {s t u : State} (h : Keeps K s t) (k : Keeps K t u) : Keeps K s u :=
  fun p off hp => (k p off hp).trans (h p off hp)

theorem Keeps.tenant {s t : State} (h : Keeps tenantDpa s t) {p : Page} (hp : p.kind.tenant = true) (off : Nat) :
    t.rd p off = s.rd p off := h p off (Nat.le_add_right_of_le (tenant_base hp))

section
variable {K : Nat → Prop} (s : State) {p : Page}

theorem keeps_wr {off : Nat} (w : Word) (h : ¬ K (p.base + off)) : Keeps K s (s.wr p off w) :=
  fun _ _ hk => s.rd_wr_ne _ _ _ _ _ fun he => h (he ▸ hk)

theorem keeps_set {f : Fld} (v : Nat) (h : ¬ K (p.base + f.off)) : Keeps K s (s.set p f v) := keeps_wr s _ h

theorem keeps_errBit (b : Nat) (h : ∀ off < 0x30, ¬ K (p.base + off)) : Keeps K s (s.errBit p b) := by
  unfold State.errBit
  dsimp only
  refine Keeps.trans (t := if s.rd p 0x020 = 0 then s.wr p 0x028 (BitVec.ofNat 32 (b + 2 ^ 31)) else s) ?_
    ((keeps_set _ _ (h _ (by decide))).trans (keeps_wr _ _ (h _ (by decide))))
  split
  · exact keeps_wr _ _ (h _ (by decide))
  · exact Keeps.refl _ _

end

/-! Notes of a page that is no tenant page keep the tenant pages. -/

theorem keeps_traceEv (s : State) (src inst ctx payload : Nat) : Keeps tenantDpa s (s.traceEv src inst ctx payload) :=
  fun p off hp => (alike_traceEv s src inst ctx payload).rd p off fun he => by
    rw [he, trcPtr_eq] at hp
    exact absurd hp (by unfold tenantDpa; omega)

theorem stw_low {off : Nat} (h : off < 0x1000) : ¬ tenantDpa (pgSTW.base + off) := by
  have hb : pgSTW.base = 0x20800000 := rfl
  unfold tenantDpa; omega

theorem modPage_low {m off : Nat} (hm : m < 16) (h : off < 0x1000) : (modPage m).base + off < 0x21000000 := by
  rw [modPage_base]; omega

theorem keeps_logLost (s : State) : Keeps tenantDpa s s.logLost := by
  have hb (x : State) (b : Nat) : Keeps tenantDpa x (x.errBit pgSTW b) := keeps_errBit x b fun _ _ => stw_low (by omega)
  have h := (keeps_set s _ (stw_low (by decide))).trans (hb (s.bump pgSTW F.STW_ELOG_LOST) Err.STW_ELOG_LOST)
  unfold State.logLost
  dsimp only
  split
  · exact h.trans (hb _ _)
  · exact h

theorem keeps_logRec (s : State) (p : Page) (i : Nat) (d : Detail) (inj fatal : Bool) :
    Keeps tenantDpa s (s.logRec p i d inj fatal) := by
  unfold State.logRec
  dsimp only
  generalize ht : s.traceEv _ _ _ _ = t
  have h : Keeps tenantDpa s t := ht ▸ keeps_traceEv s _ _ _ _
  split
  · exact h
  · exact h.trans (keeps_logLost _)

theorem keeps_logEnabled (s : State) (p : Page) (b : Nat) (d : Detail) (always inj : Bool) :
    Keeps tenantDpa s (s.logEnabled p b d always inj) := by
  unfold State.logEnabled
  split
  · exact keeps_logRec s _ _ _ _ _
  · exact Keeps.refl _ s

theorem keeps_raise (s : State) {p : Page} (b : Nat) (d : Detail) (always inj : Bool)
    (hp : ∀ off < 0x1000, ¬ tenantDpa (p.base + off)) : Keeps tenantDpa s (s.raise p b d always inj) := by
  have h := keeps_errBit s b fun off ho => hp off (by omega)
  have k := h.trans (keeps_logEnabled _ p b d always inj)
  unfold State.raise
  dsimp only
  split
  · exact h
  · split
    · exact k.trans (keeps_logEnabled _ _ _ _ _ _)
    · exact k

theorem keeps_count (s : State) {p : Page} {f : Fld} (n : Nat) (hp : ∀ off < 0x1000, ¬ tenantDpa (p.base + off))
    (hf : f.off < 0x1000) : Keeps tenantDpa s (s.count p f n) := by
  have h : Keeps tenantDpa s (s.bump p f n) := keeps_set s _ (hp _ hf)
  unfold State.count
  dsimp only
  split
  · exact h.trans (keeps_raise _ _ _ _ _ hp)
  · exact h

/-! ### The answer -/

theorem contained_send (s : State) (m : Nat) (x : TxMsg) : Contained s (s.send m x) := rfl

theorem tx_send (s : State) (m : Nat) (x : TxMsg) : ((s.send m x).link m).tx = (s.link m).tx ++ [x] := by
  have hu (u : State) : ((u.updStall m).link m).tx = (u.link m).tx := by
    show ((u.setLink m _).link m).tx = _
    rw [State.link_setLink_same]
  unfold State.send State.modLink
  rw [hu, State.link_setLink_same]

theorem keeps_send (s : State) {m : Nat} (hm : m < 16) (x : TxMsg) : Keeps tenantDpa s (s.send m x) := by
  have hp {off : Nat} (ho : off < 0x1000) : ¬ tenantDpa ((modPage m).base + off) := Nat.not_le.2 (modPage_low hm ho)
  exact fun p off hk => (keeps_set _ _ (hp (by decide))).trans (keeps_set _ _ (hp (by decide))) p off hk

/-- A response is noted, and then it is ready to leave. -/
theorem respond_sends (s : State) {m : Nat} (hm : m < 16) (h : BitVec 128) (st detail poison xf : Nat) (data : List Byte) :
    ∃ u, Noted s u ∧ Keeps tenantDpa s u ∧
      s.respond m h st detail poison xf data = u.send m (s.rspMsg m h st detail poison xf data) := by
  have hp : ∀ off < 0x1000, ¬ tenantDpa ((modPage m).base + off) := fun off ho => Nat.not_le.2 (modPage_low hm ho)
  refine ⟨_, ?_, ?_, rfl⟩
  · refine Noted.trans ?_ (noted_traceEv _ _ _ _ _)
    split
    · exact (noted_count _ _ _ _).trans (noted_raise _ _ _ _ _ _)
    · exact Noted.refl s
  · refine Keeps.trans ?_ (keeps_traceEv _ _ _ _ _)
    split
    · exact (keeps_count _ _ hp (by decide)).trans (keeps_raise _ _ _ _ _ hp)
    · exact Keeps.refl _ s

/-- A command that ends with the answer to a request being served: the answer is added to what module m waits to send,
and the tenant pages, both memories and the hall are as the serving left them. -/
theorem Serving.answers {m : Nat} {s u r : State} {c : Instr} {h : BitVec 128} {st detail poison xf : Nat} {data : List Byte}
    (k : Serving m s u) (hm : m < 16) (hq : s.quiet = true) (hc : exec c s = .next r.finish)
    (hr : r = u.respond m h st detail poison xf data) :
    ∃ t, exec c s = .next t ∧ Keeps tenantDpa u t ∧
      (t.link m).tx = (s.link m).tx ++ [s.rspMsg m h st detail poison xf data] ∧ SameMem s t ∧ t.hall = s.hall := by
  obtain ⟨v, hn, hk, he⟩ := respond_sends u hm h st detail poison xf data
  rw [he, k.rspMsg] at hr
  have hl : v.link m = u.link m := hn.same (·.link m) fun _ _ _ => rfl
  have ht : Contained s r := hr ▸ k.contained.trans (hn.contained.trans (contained_send v m _))
  exact ⟨r, by rw [hc, ht.finish hq], hr ▸ hk.trans (keeps_send v hm _), by rw [hr, tx_send, hl, k.tx], ht.sameMem, ht.hall⟩

/-! ### The request is taken from the receive buffer -/

@[simp] theorem Link.use_rx (l : Link) (vc pool n : Nat) : (l.use vc pool n).rx = l.rx := by
  unfold Link.use; split <;> rfl
@[simp] theorem Link.use_tx (l : Link) (vc pool n : Nat) : (l.use vc pool n).tx = l.tx := by
  unfold Link.use; split <;> rfl

theorem rxAdmit_ok {s u : State} {m : Nat} {msg : Msg} (h : s.rxAdmit m msg = .ok u) :
    Alike s u ∧ (u.link m).rx = (s.link m).rx ++ [⟨msg, false⟩] := by
  unfold State.rxAdmit at h
  dsimp only at h
  split at h
  · cases h
  · split at h
    · cases h
    · split at h
      · cases h
      · obtain rfl := Except.ok.inj h
        exact ⟨alike_setLink s m _ (by simp), by simp⟩

/-- A request of a module that is UP and not held, with nothing before it in the buffer, is acted on at once. -/
theorem requestRow_taken {s : State} {m : Nat} {h : BitVec 128} {data : List Byte} (hup : s.modUp m = true)
    (hheld : s.modHeld m = false) (hrx : (s.link m).rx = []) (hok : ∃ u, s.rxAdmit m (s.mkMsg h data) = .ok u) :
    ∃ t, Alike s t ∧ s.requestRow m h data true = t.request m (t.mkMsg h data) := by
  obtain ⟨u, hu⟩ := hok
  obtain ⟨ha, hr⟩ := rxAdmit_ok hu
  rw [hrx, List.nil_append] at hr
  refine ⟨u.modLink m fun l => { l with rx := [] }, ha.trans (alike_setLink u m _ rfl), ?_⟩
  have hh : u.modHeld m = false := (ha.modHeld m).trans hheld
  simp [State.requestRow, State.takeMsg, hup, hrx, hu, hr, takeFirst, hh]

/-! ### A register request that passes its checks -/

/-- The access of a tenant register that a REG_RD or REG_WR of module m makes. -/
def regReq (m : Fin 16) (h : BitVec 128) (p : Page) : HeldReg :=
  { port := .module m, page := p, off := hAddr h % 0x1000
    data := if hOpc h = opREG_WR then some (BitVec.ofNat 32 (hXf h)) else none, hdr := h }

/-- A register request that passes the checks is noted in the trace and goes to its page. -/
theorem request_passes {s : State} {m : Nat} {msg : Msg} (hchk : s.reqCheck m msg.hdr = none)
    (hop : hOpc msg.hdr = opREG_RD ∨ hOpc msg.hdr = opREG_WR) :
    ∃ t, Alike s t ∧ s.request m msg = t.regRequest m msg := by
  unfold State.request
  dsimp only
  rw [hchk]
  exact ⟨_, alike_traceEv s _ _ _ _, if_pos hop⟩

/-- An accepted register request reaches its tenant page, or is misaligned or of another length (R11). -/
theorem requestRow_register {s : State} {m : Fin 16} {h : BitVec 128} {data : List Byte} {p : Page}
    (hop : hOpc h = opREG_RD ∨ hOpc h = opREG_WR) (hacc : s.accepts m h data)
    (hp : tenantPage (hCtx h) (hAddr h / 0x1000 % 16) = some p) :
    ∃ t, Alike s t ∧ s.requestRow m h data true =
      if hLen h ≠ 4 ∨ hAddr h % 0x1000 % 4 ≠ 0 then (t.raise p Err.BAD_ACCESS).respond m h 10 dtRegister 0 0 []
      else t.regAccess (regReq m h p) := by
  obtain ⟨hup, hheld, hrx, hok, hchk⟩ := hacc
  obtain ⟨t, ha, he⟩ := requestRow_taken hup hheld hrx hok
  obtain ⟨u, hu, hr⟩ := request_passes (msg := t.mkMsg h data) ((ha.reqCheck m h).trans hchk) hop
  have hm : Fin.ofNat 16 m.val = m := Fin.ext (Nat.mod_eq_of_lt m.isLt)
  refine ⟨u.giveBack m (t.mkMsg h data), ha.trans (hu.trans (alike_giveBack u m _)), ?_⟩
  have hh : (t.mkMsg h data).hdr = h := rfl
  rw [he, hr, State.regRequest, hh, hp, hm]
  rfl

/-! ### The access is served -/

theorem readReg_snd (s : State) (port : Port) (p : Page) (off : Nat) :
    ∃ r, (s.readReg port p off).2 = { s with portRegs := r } := by
  unfold State.readReg
  split
  · exact ⟨_, rfl⟩
  · split
    · exact ⟨_, rfl⟩
    · cases wideHalf p.kind off with
      | none =>
        dsimp only
        split
        · exact ⟨_, rfl⟩
        · split <;> exact ⟨_, rfl⟩
      | some lo => cases lo <;> exact ⟨_, rfl⟩

/-- What a read leaves of a state: the words that its port has read or snapshot, and nothing else. -/
theorem serving_readReg (s : State) (m : Nat) (port : Port) (p : Page) (off : Nat) (r : List (Nat × Word)) :
    Serving m s { (s.readReg port p off).2 with readRsp := r } := by
  obtain ⟨pr, he⟩ := readReg_snd s port p off
  rw [he]
  exact ⟨rfl, rfl, fun _ => rfl⟩

theorem regServe_read (s : State) {m : Fin 16} {h : BitVec 128} {p : Page} (hop : hOpc h = opREG_RD) :
    ∃ u, Serving m s u ∧ s.regServe (regReq m h p) =
      u.respond m h 0 0 0 (s.readReg (.module m) p (hAddr h % 0x1000)).1.toNat [] := by
  have hz : h ≠ 0 := by rintro rfl; exact absurd hop (by decide)
  have hw : (if hOpc h = opREG_WR then some (BitVec.ofNat 32 (hXf h)) else none) = none := if_neg (by rw [hop]; decide)
  unfold State.regServe regReq
  rw [hw]
  refine ⟨_, ?_, if_neg hz⟩
  exact serving_readReg s m (.module m) p (hAddr h % 0x1000) _

theorem regServe_write (s : State) {m : Fin 16} {h : BitVec 128} {p : Page} (hop : hOpc h = opREG_WR)
    (hmir : s.mirroredReg p (hAddr h % 0x1000) = false) :
    s.regServe (regReq m h p) =
      (s.writeReg (.module m) p (hAddr h % 0x1000) (BitVec.ofNat 32 (hXf h))).respond m h 0 0 0 0 [] := by
  have hz : h ≠ 0 := by rintro rfl; exact absurd hop (by decide)
  unfold State.regServe regReq
  rw [if_pos hop]
  dsimp only
  rw [hmir]
  exact if_neg hz

/-! ### What is noted on a tenant page -/

/-- A change of a tenant page's registers alone leaves the request being served. -/
theorem Noted.serving {s t : State} (h : Noted s t) (hk : Keeps lowDpa s t) {m : Nat} (hm : m < 16) : Serving m s t where
  contained := h.contained
  tx := congrArg Link.tx (h.same (·.link m) fun _ _ _ => rfl)
  vcMap k := by
    unfold State.vcMap State.get
    rw [hk _ _ (modPage_low hm (by decide))]

theorem raise_tenant (s : State) {p : Page} (hp : p.kind.tenant = true) (b : Nat) : s.raise p b = s.errBit p b := by
  unfold State.raise
  dsimp only
  rw [if_pos hp]

theorem serving_raise (s : State) {p : Page} (hp : p.kind.tenant = true) (b : Nat) {m : Nat} (hm : m < 16) :
    Serving m s (s.raise p b) := by
  refine (noted_raise s p b _ _ _).serving ?_ hm
  rw [raise_tenant s hp]
  exact keeps_errBit s b fun off _ hl => absurd (tenant_base hp) (by unfold lowDpa at hl; omega)

theorem errBit_sets (s : State) (p : Page) {b : Nat} (hb : b < 32) : ((s.errBit p b).rd p 0x020).getLsbD b = true := by
  unfold State.errBit
  dsimp only
  rw [State.rd_wr_same]
  have hbit : (BitVec.ofNat 32 (2 ^ b)).getLsbD b = true := by
    rw [BitVec.getLsbD_ofNat, Nat.testBit_two_pow_self]; simpa using hb
  split <;> simp only [BitVec.getLsbD_or, hbit, Bool.or_true, Bool.true_or]

/-! ### The registers that the obligation names -/

theorem keeps_low_wr (s : State) {p : Page} (hp : p.kind.tenant = true) (off : Nat) (w : Word) :
    Keeps lowDpa s (s.wr p off w) :=
  keeps_wr s w fun hl => absurd (tenant_base hp) (by unfold lowDpa at hl; omega)

/-- A write of ERR_STATUS clears the ones of its word (Table 3-5). -/
theorem writeReg_errStatus (s : State) {p : Page} (hp : p.kind.tenant = true) (port : Port) (w : Word) {m : Nat} (hm : m < 16) :
    Serving m s (s.writeReg port p 0x020 w) ∧ (s.writeReg port p 0x020 w).rd p 0x020 = s.rd p 0x020 &&& ~~~w := by
  have he : s.writeReg port p 0x020 w = s.errClear p w := by simp [State.writeReg, State.writeCommon]
  have h1 := (noted_wr s p 0x020 (s.rd p 0x020 &&& ~~~w)).serving (keeps_low_wr s hp _ _) hm
  rw [he, State.errClear]
  split
  · exact ⟨h1.trans ((noted_wr _ p 0x028 0).serving (keeps_low_wr _ hp _ _) hm),
      by rw [State.rd_wr_off _ _ _ _ _ (by decide), State.rd_wr_same]⟩
  · exact ⟨h1, State.rd_wr_same _ _ _ _⟩

/-- A field that a mask takes from a written word. -/
theorem wbits_mergeWord (a b : Word) (lo w : Nat) (h : lo + w ≤ 32) :
    wbits (mergeWord ((2 ^ w - 1) * 2 ^ lo) a b) lo w = wbits a lo w := by
  apply Nat.eq_of_testBit_eq
  intro i
  rw [testBit_wbits, testBit_wbits]
  by_cases hi : i < w
  · have h32 : lo + i < 32 := by omega
    simp only [mergeWord, BitVec.getLsbD_or, BitVec.getLsbD_and, BitVec.getLsbD_not, BitVec.getLsbD_ofNat,
      Nat.testBit_mul_two_pow, Nat.testBit_two_pow_sub_one]
    simp [hi, h32]
  · simp [hi]

/-- A register whose fields are all of class RW-L takes their bits of the written word. -/
theorem writeFields_rwL (s : State) {p : Page} {off : Nat} {d : RegDef} (w : Word) (hd : findReg p.kind off = some d)
    (hwide : d.wide = false) (hmask : ∀ a, a ≠ .rwL → d.maskOf a = 0) :
    (s.writeFields p off w = s ∧ s.rd p off = mergeWord (d.maskOf .rwL) w (s.rd p off)) ∨
      s.writeFields p off w = s.wr p off (mergeWord (d.maskOf .rwL) w (s.rd p off)) := by
  have hH := hmask .rwH (by decide)
  have hS := hmask .rwS (by decide)
  have hC := hmask .w1c (by decide)
  have hN := hmask .cntS (by decide)
  have hnot (x : Word) : x &&& ~~~0#32 = x := by rw [BitVec.not_zero, BitVec.and_allOnes]
  have hnone (a b : Word) : mergeWord 0 a b = b := by
    unfold mergeWord
    rw [BitVec.and_zero, hnot, BitVec.zero_or]
  have hz : (0#32 = (0 : Word)) = True := eq_self _
  unfold State.writeFields
  rw [hd]
  simp only [hz, hwide, hH, hS, hC, hN, hnone, hnot, BitVec.and_zero, ite_self, ne_eq, not_true_eq_false, decide_false, Bool.and_false,
    Bool.false_eq_true, if_false, if_true]
  split
  · exact Or.inl ⟨rfl, Eq.symm ‹_›⟩
  · exact Or.inr rfl

/-- FQ_BASE_LO of the register map: the base's low bits, from bit 10 on. -/
def fqBaseLo : RegDef := ⟨0x100, 0x0, 1, false, [⟨10, 22, .rwL, 0x0⟩]⟩

theorem fqBaseLo_mask : fqBaseLo.maskOf .rwL = (2 ^ 22 - 1) * 2 ^ 10 := by decide
theorem fqBaseLo_rwL (a : Attr) (h : a ≠ .rwL) : fqBaseLo.maskOf a = 0 := by
  simp [fqBaseLo, RegDef.maskOf, Ne.symm h]

/-- A write of FQ_BASE_LO while the fault queue is off stores the bits of its field (R734). -/
theorem writeReg_fqBaseLo (s : State) (c : Nat) (port : Port) (w : Word) (hoff : s.flag (tfqPage c) F.TFQ_FQ_CTRL_EN = false)
    {m : Nat} (hm : m < 16) :
    Serving m s (s.writeReg port (tfqPage c) 0x100 w) ∧
      (s.writeReg port (tfqPage c) 0x100 w).get (tfqPage c) F.TFQ_FQ_BASE_LO_TVA =
        wbits w F.TFQ_FQ_BASE_LO_TVA.lo F.TFQ_FQ_BASE_LO_TVA.w := by
  have he : s.writeReg port (tfqPage c) 0x100 w = s.writeFields (tfqPage c) 0x100 w := by
    have h1 : s.writeReg port (tfqPage c) 0x100 w = s.tfqWrite c 0x100 w := by simp [State.writeReg, tfqPage]
    rw [h1]; simp [State.tfqWrite, hoff]
  have hd : findReg (tfqPage c).kind 0x100 = some fqBaseLo := by
    change findReg .TFQ 0x100 = _; decide
  have hf (x : Word) : wbits (mergeWord (fqBaseLo.maskOf .rwL) w x) 10 22 = wbits w 10 22 := by
    rw [fqBaseLo_mask]; exact wbits_mergeWord w x 10 22 (by decide)
  rw [he]
  change _ ∧ wbits (State.rd _ (tfqPage c) 0x100) 10 22 = wbits w 10 22
  rcases writeFields_rwL s w hd rfl fqBaseLo_rwL with ⟨h, hr⟩ | h
  · rw [h]
    exact ⟨(Alike.refl s).serving m, by rw [hr, hf]⟩
  · rw [h]
    exact ⟨(noted_wr s _ _ _).serving (keeps_low_wr s rfl _ _) hm, by rw [State.rd_wr_same, hf]⟩

/-! ### A module's register request and its answer -/

/-- An accepted and aligned access of one word to a tenant page that does not hold it is served at once. -/
theorem requestRow_served {s : State} {m : Fin 16} {h : BitVec 128} {data : List Byte} {p : Page}
    (hop : hOpc h = opREG_RD ∨ hOpc h = opREG_WR) (hacc : s.accepts m h data)
    (hp : tenantPage (hCtx h) (hAddr h / 0x1000 % 16) = some p) (hlen : hLen h = 4) (hal : hAddr h % 4 = 0)
    (hfq : (regReq m h p).data = none ∨ hAddr h % 0x1000 ≠ 0x108)
    (hheld : s.regHeld (.module m) p (hAddr h % 0x1000) (regReq m h p).data = false) :
    ∃ t, Alike s t ∧ s.requestRow m h data true = t.regServe (regReq m h p) := by
  obtain ⟨t, ha, he⟩ := requestRow_register hop hacc hp
  have hoff : ¬ (hLen h ≠ 4 ∨ hAddr h % 0x1000 % 4 ≠ 0) := by omega
  have hfree : t.regHeld (.module m) p (hAddr h % 0x1000) (regReq m h p).data = false :=
    (ha.regHeld (tenantPage_tenant hp) m hfq).trans hheld
  refine ⟨t, ha, ?_⟩
  rw [he, if_neg hoff]
  exact if_neg (Bool.eq_false_iff.1 hfree)

theorem regReq_data_read (m : Fin 16) {h : BitVec 128} (p : Page) (hop : hOpc h = opREG_RD) : (regReq m h p).data = none :=
  if_neg (by rw [hop]; decide)

theorem regReq_data_write (m : Fin 16) {h : BitVec 128} (p : Page) (hop : hOpc h = opREG_WR) :
    (regReq m h p).data = some (BitVec.ofNat 32 (hXf h)) := if_pos hop

/-- A read is answered OK with the word that the register shows. -/
theorem requestRow_read {s : State} {m : Fin 16} {h : BitVec 128} {data : List Byte} {p : Page} (hop : hOpc h = opREG_RD)
    (hacc : s.accepts m h data) (hp : tenantPage (hCtx h) (hAddr h / 0x1000 % 16) = some p) (hlen : hLen h = 4)
    (hal : hAddr h % 4 = 0) (hheld : s.regHeld (.module m) p (hAddr h % 0x1000) none = false) :
    ∃ u, Serving m s u ∧ s.requestRow m h data true =
      u.respond m h 0 0 0 (s.readReg (.module m) p (hAddr h % 0x1000)).1.toNat [] := by
  have hd := regReq_data_read m p hop
  obtain ⟨t, ha, he⟩ := requestRow_served (.inl hop) hacc hp hlen hal (.inl hd) (hd ▸ hheld)
  obtain ⟨u, hu, hr⟩ := regServe_read t (p := p) hop
  exact ⟨u, (ha.serving m).trans hu, by rw [he, hr, ha.readReg_fst (tenantPage_tenant hp)]⟩

/-- A write of a tenant register that is not mirrored is made and then answered OK. -/
theorem requestRow_write {s : State} {m : Fin 16} {h : BitVec 128} {data : List Byte} {p : Page} {off : Nat}
    (hop : hOpc h = opREG_WR) (hacc : s.accepts m h data) (hp : tenantPage (hCtx h) (hAddr h / 0x1000 % 16) = some p)
    (hlen : hLen h = 4) (hoff : hAddr h % 0x1000 = off) (hal : off % 4 = 0) (hfq : off ≠ 0x108)
    (hmir : ∀ t : State, t.mirroredReg p off = false)
    (hheld : s.regHeld (.module m) p off (some (BitVec.ofNat 32 (hXf h))) = false) :
    ∃ t, Alike s t ∧
      s.requestRow m h data true = (t.writeReg (.module m) p off (BitVec.ofNat 32 (hXf h))).respond m h 0 0 0 0 [] := by
  subst hoff
  have hd := regReq_data_write m p hop
  obtain ⟨t, ha, he⟩ := requestRow_served (.inr hop) hacc hp hlen (by omega) (.inr hfq) (hd ▸ hheld)
  exact ⟨t, ha, he.trans (regServe_write t hop (hmir t))⟩

/-- A register request of a context that the module is not authorised for is refused, and its page notes it (R118, R260). -/
theorem request_denied {s : State} {m : Nat} {msg : Msg} {h : BitVec 128} {p : Page} (hh : msg.hdr = h)
    (hchk : s.reqCheck m h = some (5, dtNotAuth)) (hop : hOpc h = opREG_RD ∨ hOpc h = opREG_WR)
    (hp : tenantPage (hCtx h) (hAddr h / 0x1000 % 16) = some p) :
    s.request m msg = ((s.raise p Err.ACCESS_DENIED).giveBack m msg).respond m h 5 dtNotAuth 0 0 [] := by
  have hlog : ¬ (5 = 10 ∧ dtNotAuth ≠ dtBadVc) := by decide
  simp only [State.request, hh, hchk, if_neg hlog, hop, hp, true_or, and_self, if_true]

theorem exec_vtlRegRd (s : State) (m : Fin 16) {h : BitVec 128} (data : List Byte) (hop : hOpc h = opREG_RD) :
    exec (.vtlRegRd m h data) s = .next (s.requestRow m h data true).finish := by
  change Host.Outcome.next (s.requestRow m h data (hOpc h == opREG_RD)).finish = _
  rw [hop, beq_self_eq_true]

theorem exec_vtlRegWr (s : State) (m : Fin 16) {h : BitVec 128} (data : List Byte) (hop : hOpc h = opREG_WR) :
    exec (.vtlRegWr m h data) s = .next (s.requestRow m h data true).finish := by
  change Host.Outcome.next (s.requestRow m h data (hOpc h == opREG_WR)).finish = _
  rw [hop, beq_self_eq_true]

/-- ERR_STATUS of a tenant page is no mirrored register (Table 19-3). -/
theorem mirroredReg_errStatus (s : State) {p : Page} (hp : p.kind.tenant = true) : s.mirroredReg p 0x020 = false := by
  obtain hk | hk | hk | hk | hk | hk | hk := tenant_kind hp <;> simp [State.mirroredReg, hk]

/-- Settles O40: taking a request and noting it changes nothing that a tenant page shows (`Alike`), so the access that
is served is the one asked for; the answer then adds one message and leaves the tenant pages as they are. -/
theorem registerRequestsOfAModule : Obligations.RegisterRequestsOfAModule := by
  refine ⟨?_, ?_, ?_, ?_, ?_, fun s m h hq => congrArg Host.Outcome.next (s.finish_quiet hq)⟩
  · intro s m h data p hq hop hacc hp hlen hal hheld
    obtain ⟨u, hu, he⟩ := requestRow_read hop hacc hp hlen hal hheld
    obtain ⟨t, hx, -, hrest⟩ := hu.answers m.isLt hq (exec_vtlRegRd s m data hop) he
    exact ⟨t, hx, hrest⟩
  · intro s m h data p hq hop hacc hp hlen hoff hheld
    have hten := tenantPage_tenant hp
    obtain ⟨u, ha, he⟩ := requestRow_write hop hacc hp hlen hoff rfl (by decide) (fun t => mirroredReg_errStatus t hten) hheld
    obtain ⟨hw, hv⟩ := writeReg_errStatus u hten (.module m) (BitVec.ofNat 32 (hXf h)) m.isLt
    obtain ⟨t, hx, hk, hrest⟩ := ((ha.serving m).trans hw).answers m.isLt hq (exec_vtlRegWr s m data hop) he
    exact ⟨t, hx, by rw [hk.tenant hten, hv, ha.rd_above (tenant_above hten)], hrest⟩
  · intro s m h data c hq hop hacc hctx hpage hlen hoff hen hheld
    have hp : tenantPage (hCtx h) (hAddr h / 0x1000 % 16) = some (tfqPage c) := by rw [hctx, hpage]; rfl
    obtain ⟨u, ha, he⟩ := requestRow_write hop hacc hp hlen hoff rfl (by decide) (fun _ => rfl) hheld
    have henu : u.flag (tfqPage c) F.TFQ_FQ_CTRL_EN = false := by
      rw [← hen, State.flag, ha.get_above (tenant_above rfl), State.flag]
    obtain ⟨hw, hv⟩ := writeReg_fqBaseLo u c (.module m) (BitVec.ofNat 32 (hXf h)) henu m.isLt
    obtain ⟨t, hx, hk, hrest⟩ := ((ha.serving m).trans hw).answers m.isLt hq (exec_vtlRegWr s m data hop) he
    exact ⟨t, hx, by rw [← hv, State.get, hk.tenant rfl, State.get], hrest⟩
  · intro s m h data p hq hop hacc hp hbad
    have hten := tenantPage_tenant hp
    obtain ⟨u, ha, he⟩ := requestRow_register (.inr hop) hacc hp
    rw [if_pos (by omega)] at he
    have hr := serving_raise u hten Err.BAD_ACCESS m.isLt
    obtain ⟨t, hx, hk, htx, hmem, -⟩ := ((ha.serving m).trans hr).answers m.isLt hq (exec_vtlRegWr s m data hop) he
    refine ⟨t, hx, ?_, htx, hmem⟩
    rw [hk.tenant hten, raise_tenant u hten]
    exact errBit_sets u p (by decide)
  · intro s m h data p hq hop hup hheld hrx hok hchk hp
    have hten := tenantPage_tenant hp
    obtain ⟨u, ha, he⟩ := requestRow_taken hup hheld hrx hok
    have hr := serving_raise u hten Err.ACCESS_DENIED m.isLt
    have hg := alike_giveBack (u.raise p Err.ACCESS_DENIED) m (u.mkMsg h data)
    obtain ⟨t, hx, hk, htx, hmem, -⟩ := (((ha.serving m).trans hr).trans (hg.serving m)).answers m.isLt hq
      (exec_vtlRegRd s m data hop) (he.trans (request_denied rfl ((ha.reqCheck m h).trans hchk) (.inl hop) hp))
    refine ⟨t, hx, ?_, htx, hmem⟩
    rw [hk.tenant hten, hg.rd_above (tenant_above hten), raise_tenant u hten]
    exact errBit_sets u p (by decide)

end Sys2Proof.Machine
end

section
/-! PROOF. Reads of registers that are answered at once, and what they leave in the port's own words (R44, R115, R649). -/

namespace Sys2Proof.Machine

/-- The state after a read that returned `w` and left the ports' own words as `own`. -/
def State.readDone (s : State) (port : Port) (own : List (Nat × Word)) (w : Word) : State :=
  { s with portRegs := own, readRsp := put s.readRsp port.code w }

theorem State.readDone_rsp (s : State) (port : Port) (own : List (Nat × Word)) (w : Word) :
    find (s.readDone port own w).readRsp port.code = some w := find_put_same _ _ _

theorem State.readDone_quiet (s : State) (port : Port) (own : List (Nat × Word)) (w : Word) :
    (s.readDone port own w).quiet = s.quiet := rfl

/-- A word that a port holds of its own, after the read that stored it. -/
theorem State.portRd_readDone (s : State) (port : Port) (p : Page) (off : Nat) (v w : Word) :
    (s.readDone port (s.portWr port p off v).portRegs w).portRd port p off = v := by
  simp [State.portRd, State.readDone, State.portWr]

/-- The access of a port that waits for no answer, when nothing holds it. -/
theorem State.readRow_served {s : State} {port : Port} {p : Page} {off : Nat} (h : s.reads port p off = true)
    {w : Word} {own : List (Nat × Word)} (hv : s.readReg port p off = (w, { s with portRegs := own })) :
    s.readRow port p off = s.readDone port own w := by
  simp only [State.reads, Bool.and_eq_true, Bool.not_eq_true'] at h
  obtain ⟨⟨hvalid, hport⟩, hheld⟩ := h
  have hserve : s.regServe { port := port, page := p, off := off, data := none } = s.readDone port own w := by
    simp only [State.regServe, hv]
    cases port <;> rfl
  simp only [State.readRow, hvalid, hport, State.regAccess, hheld, Bool.and_self, Bool.false_eq_true, if_true, if_false, hserve]

/-- A command that is such a read, in a quiet state. -/
theorem exec_read {s : State} {c : Instr} {port : Port} {p : Page} {off : Nat} (hq : s.quiet = true)
    (hr : s.reads port p off = true) (hc : exec c s = .next (s.readRow port p off).finish)
    {w : Word} {own : List (Nat × Word)} (hv : s.readReg port p off = (w, { s with portRegs := own })) :
    exec c s = .next (s.readDone port own w) := by
  rw [hc, State.readRow_served hr hv, State.finish_quiet _ ((s.readDone_quiet port own w).trans hq)]

theorem readReg_loHalf {s : State} {port : Port} {p : Page} {off : Nat} (hoff : 0x100 ≤ off) (hk : p.kind ≠ .TEV)
    (hw : wideHalf p.kind off = some true) : s.readReg port p off = (s.rd p off, s.snapshot port p off) := by
  unfold State.readReg
  rw [if_neg (Nat.not_lt.2 hoff), if_neg fun h => hk h.1, hw]

theorem snapRow_loHalf {s : State} {port : Port} {dpa : Nat} {p : Page} {off : Nat} (hreg : region dpa = .page p off)
    (hal : dpa % 4 = 0) (hw : wideHalf p.kind off = some true) : s.snapRow port dpa = s.readRow port p off := by
  unfold State.snapRow
  rw [hreg]
  exact if_pos ⟨hal, hw⟩

/-- TRC_DATA_3 is word 3 of the selected entry, and its read moves the port's index on. -/
theorem readReg_trcData3 (s : State) (port : Port) : s.readReg port pgDBG 0x14C = (s.trcRead port 3, s.trcAdvance port) := rfl

/-- Settles O13: a read at once leaves the state as it was but for the port's own words and its last word read
(`exec_read`); the own words are the snapshot of the HI half, or the index moved on. -/
theorem counterAndTraceReadsMoveTheirOwnSnapshot : Obligations.CounterAndTraceReadsMoveTheirOwnSnapshot := by
  refine ⟨?_, ?_⟩
  · intro s port dpa p off hq hreg hal hw hoff hk hr
    have hc : exec (.cntSnapshotRead port dpa) s = .next (s.readRow port p off).finish := by
      rw [← snapRow_loHalf hreg hal hw]; rfl
    exact ⟨_, exec_read hq hr hc (readReg_loHalf hoff hk hw), s.readDone_rsp _ _ _, s.portRd_readDone _ _ _ _ _, rfl⟩
  · intro s port hq hr
    exact ⟨_, exec_read hq hr rfl (readReg_trcData3 s port), s.readDone_rsp _ _ _, s.portRd_readDone _ _ _ _ _, rfl⟩

end Sys2Proof.Machine
end

section
/-! PROOF. A stair message with bad header parity: the fatal sequence lets the stacks complete what waits for them, and
a request of a class that does not exist counts its bytes in another page's register (R38, R198, R318, R730). -/

namespace Sys2Proof.Machine

/-- The class whose BYTES_STACK of gallery 0 would lie where BOOT_STATUS lies. A request of the model may hold any number
as its class; the spec has eight. -/
def strayClass : Nat :=
  (pgBOOT.base + F.BOOT_BOOT_STATUS_PHASE.off - ((arbPage 0).base + F.ARB_BYTES_STACK.off)) / F.ARB_BYTES_STACK.stride

/-- A write of one byte, of that class, that waits at stack 0. -/
def strayWrite : StackReq :=
  { line := 0, write := true, en := 1, data := [], pois := 0, cls := strayClass, urg := 0, ctx := 0, org := .errand 0 0 0
    merged := true }

/-- A message that node 0 sends to gallery 1 by lane 1 of link 0, where it ends. -/
def lastHop : StairMsg := { mask := 2, cls := 0, ctx := 0, n := 64 }

/-- A die in P6 with stack 0 UP, the write waiting at it, and the message in its buffer. -/
def strayState : State :=
  { (State.reset.set pgBOOT F.BOOT_BOOT_STATUS_PHASE 6).set (hcPage 0) F.HC_HC_STATUS_STATE 2 with
    hcs := [(0, { waiting := [strayWrite] })]
    stair := [(stairKey 0 0 1 false, [lastHop])] }

theorem strayState_requests : strayState.stairReqs 0 0 = [⟨stairIndex 1 false 0, 0, lastHop.urg⟩] := by decide +kernel

/-- The fatal sequence sets PHASE to 7; the byte of the waiting write, granted at stack 0, then counts it on to 8, of which
the field's three bits keep 0. -/
theorem strayState_not_fatal : (strayState.stairForward 0 0 1 false 0 true).finish.isFatal = false := by decide +kernel

/-- Refutes O34: clause (3) is of every state, and `strayState` meets it, but the fatal sequence does not leave it fatal. -/
theorem not_stairMessageReachesItsNode : ¬ Obligations.StairMessageReachesItsNode := by
  rintro ⟨h, -⟩
  obtain ⟨-, -, hbad⟩ :=
    h strayState 0 0 1 false 0 lastHop (by decide +kernel) (by decide +kernel) rfl rfl strayState_requests (by decide +kernel)
  obtain ⟨t, ht, -, hfatal, -⟩ := hbad (by decide +kernel) (by decide +kernel)
  obtain rfl := Host.Outcome.next.inj ht
  exact absurd (strayState_not_fatal.symm.trans hfatal) (by decide)

end Sys2Proof.Machine
end
